-- ==== Sys2Proof/Word.lean ====
section
/-! DEFINITION. Word types of the home engine: lines, addresses, pages, register words. -/

namespace Sys2Proof

/-- A 64-byte line, byte i in bits [8i+7:8i] (R550). -/
abbrev Line := BitVec 512
/-- A line number: A[47:6] of a host-physical address (R113, R249). -/
abbrev LineAddr := BitVec 42
/-- A page number: P = A[47:12] (R48). -/
abbrev Page := BitVec 36
/-- An address as ports carry it: bits [51:0] (R48, R228). -/
abbrev Addr := BitVec 52
/-- A ledger nibble: GLOW in [3:2], DIR in [1:0] (R124). -/
abbrev Nib := BitVec 4
/-- One 32-bit register word (R491). -/
abbrev W32 := BitVec 32
/-- One 64-bit word. -/
abbrev W64 := BitVec 64
/-- A game number (R144). -/
abbrev Game := BitVec 8

end Sys2Proof
end

