-- ==== Sys2Proof/Syntax.lean ====
section
/-! DEFINITION. The commands of the block: one constructor of Instr for each row of the opcode table, and the operand types they carry. -/

namespace Sys2Proof

/-- How far a request goes within the step that presents it (log 2): it stays at its port, it waits at the input of
its home slice for an issue slot, or it is accepted and looked up at once. The rows that carry it name a whole step;
the moment at which a slot is won is the timing of R89 to R99. -/
inductive Reach where
  | port
  | input
  | home
  deriving DecidableEq, Repr

/-- The fields of an M2S Req or RwD message that the block decodes (R67, R151 to R155, R48). `useK`: the port spends
its class-K credit for the home slice on it (R92, log 16). -/
structure HostMsg where
  port : Nat
  ldid : BitVec 4
  spid : BitVec 12
  tag : BitVec 16
  addr : Addr
  metaField : BitVec 2
  metaValue : BitVec 2
  snpType : BitVec 3
  useK : Bool
  reach : Reach
  deriving DecidableEq, Repr

/-- The M2S channel of a message with an unsupported opcode (R151, R163). -/
inductive M2SChan where
  | req
  | rwd
  | birsp
  deriving DecidableEq, Repr

/-- A BIRsp as a host sends it: the port it arrives on, the fields that name its HID, its line (R165, R167). -/
structure BiRsp where
  port : Nat
  ldid : BitVec 4
  spid : BitVec 12
  line : LineAddr
  deriving DecidableEq, Repr

/-- An S2M channel (R151). -/
inductive S2MChan where
  | biSnp
  | ndr
  | drs
  deriving DecidableEq, Repr

/-- The 128-bit request header of an agent (R228), with the port it arrives on. `opc` is the OPC field as presented:
the row's own code, or a reserved value, which the port refuses (R229). -/
structure AgentMsg where
  port : Nat
  opc : BitVec 6
  tag : BitVec 7
  agent : BitVec 2
  thread : BitVec 4
  cls : BitVec 3
  size : BitVec 2
  aop : BitVec 4
  addr : Addr
  useK : Bool
  reach : Reach
  deriving DecidableEq, Repr

/-- A thread: port, agent, thread number (R224). -/
structure ThreadId where
  port : Nat
  agent : Nat
  thread : Nat
  deriving DecidableEq, Repr

/-- An agent-port answer as it reaches a home slice over the Rook ring (R249): the slice it is addressed to, the port
it comes from, the home tracker TRK, the line. -/
structure AgRsp where
  phys : Nat
  port : Nat
  trk : Nat
  line : LineAddr
  deriving DecidableEq, Repr

/-- What an acknowledgement presented as MemAck answers (R190, R213, R352). -/
inductive AckSel where
  /-- A memory port's write acknowledgement: port and response tag (R550). -/
  | mem (port : Nat) (tag : Nat)
  /-- The buddy's acknowledgement of the oldest mirror update the slice has not had acknowledged (R313). -/
  | mirror (phys : Nat)
  /-- The director's acknowledgement of a stamp of the page (R147). -/
  | stamp (phys : Nat) (page : Page)
  /-- The director's acknowledgement of a dirty mark of the page (R352). -/
  | dirtyMark (phys : Nat) (page : Page)
  deriving DecidableEq, Repr

/-- The kind of a MigStart (R206). -/
inductive MigKind where
  | promotion
  | demotion
  deriving DecidableEq, Repr

/-- Which loss of a ring flit was found (R408). -/
inductive ParityKind where
  | header
  | payload
  deriving DecidableEq, Repr

/-- Who takes a ring-loss notice (R408, R409). -/
inductive LossTarget where
  | slice (phys : Nat)
  | port (port : Nat)
  deriving DecidableEq, Repr

/-- One access of the register port as a write carries it: data, byte enables, attributes (18 Signal groups, R545). -/
structure RegAcc where
  data : W32
  be : BitVec 4
  priv : Bool
  sec : Bool
  deriving DecidableEq, Repr

/-- The attributes and enables of a register read (R492, R509). -/
structure RegRd where
  be : BitVec 4
  priv : Bool
  sec : Bool
  deriving DecidableEq, Repr

/-- A line as persistent-tier and master reads return it: data and poison mark (R557, R550). -/
structure PLine where
  data : Line
  poison : Bool
  deriving DecidableEq, Repr

/-- A flit on a board-mesh link: the link's number and the flit's header (R406, R450). -/
structure LinkFlit where
  link : Nat
  header : BitVec 128
  deriving DecidableEq, Repr

/-- A flit as a probe sees it cross its link (R445, R451, R452): its lane, the FCLK cycle of the move, its header;
`first`: no flit before it in the cycle matched; `waited`: cycles it waited at the sender that no other matching flit has
counted. -/
structure Flit where
  lane : BitVec 2
  cycle : BitVec 10
  header : BitVec 128
  first : Bool
  waited : Nat
  deriving DecidableEq, Repr

/-- Why a master read ended without data (R499). -/
inductive MasterErr where
  | errorStatus
  | poisoned
  | timeout
  | disabled
  deriving DecidableEq, Repr

/-- The outcome of the work a fetch step ordered (R485): bytes read from host memory, an erase or a page program
completed, bytes read back from the NOR. -/
inductive FetchEvent where
  | read (bytes : List (BitVec 8))
  | erased
  | programmed
  | readBack (bytes : List (BitVec 8))
  deriving DecidableEq, Repr

/-- Bytes of a NOR slot, from its first byte on (R467, R468). -/
abbrev SlotBytes := List (BitVec 8)

/-- The fields of the Basic Flash Parameter Table that the loader takes (R466): the density in bytes, the quad and dual read modes that
the part supports, the 4-byte read instructions, the program page if it is given, the sizes of the erase types. -/
structure Sfdp where
  density : Nat
  r144 : Bool
  r114 : Bool
  r122 : Bool
  r112 : Bool
  read4 : Bool
  page : Option Nat
  erase : List Nat
  deriving DecidableEq, Repr

/-- A density of at least 2 MiB, without which no slot is valid (R465, R466). -/
def Sfdp.ok (x : Sfdp) : Bool := 2097152 ≤ x.density

/-- The read mode taken, in the order of preference of R466, as LD_STATUS.READ_MODE codes it. -/
def Sfdp.readMode (x : Sfdp) : BitVec 2 :=
  if x.r144 || x.r114 then 0b10 else if x.r122 || x.r112 then 0b01 else 0b00

/-- The page size for programming: 256 B where the table gives none (R466). -/
def Sfdp.pageSize (x : Sfdp) : Nat := max 1 (x.page.getD 256)

/-- The erase unit: the smallest erase type of at least 4 KiB that divides 1 MiB (R466). -/
def Sfdp.eraseUnit (x : Sfdp) : Nat :=
  let fit := x.erase.filter fun n => 4096 ≤ n && 1048576 % n == 0
  fit.foldl min (fit.headD 4096)

/-- How a read carries its address (R466): three bytes, a 4-byte read instruction, or three-byte instructions after Enter 4-Byte
Address Mode. -/
inductive NorAddr where
  | three
  | four
  | entered
  deriving DecidableEq, Repr

/-- The addressing that the density and the table give (R466). -/
def Sfdp.addressing (x : Sfdp) : NorAddr :=
  if x.density ≤ 16777216 then .three else if x.read4 then .four else .entered

/-- The debounced Endgame inputs (R367). -/
structure EgInputs where
  sel : BitVec 2
  gatePg : Bool
  efuseFlt : Bool
  efuseRetry : Bool
  pwarn : Bool
  deriving DecidableEq, Repr

end Sys2Proof

namespace Sys2Proof

/-- What a slice's self-test has found (R58): an array word that read back beyond correction, the most repaired rows in one array,
a difference between the two copies of the sequencer or from the expected action word on the 64 fixed inputs, the loopback's return. -/
structure SelfTest where
  badRead : Bool
  repaired : Nat
  mismatch : Bool
  loopback : Bool
  deriving DecidableEq, Repr

/-- The slice passes (R58): at most 8 repaired rows in any one array. -/
def SelfTest.passes (t : SelfTest) : Bool := !t.badRead && t.repaired ≤ 8 && !t.mismatch && t.loopback

/-- The commands of the block, in the order of the opcode table; each docstring names the row and its rule. -/
inductive Instr where
  /-- MEMRD (R157). -/
  | memRd (m : HostMsg)
  /-- MEMRDDATA (R157). -/
  | memRdData (m : HostMsg)
  /-- MEMSPECRD (R161). -/
  | memSpecRd (m : HostMsg)
  /-- MEMINV (R157). -/
  | memInv (m : HostMsg)
  /-- MEMINVNT (R160). -/
  | memInvNT (m : HostMsg)
  /-- MEMCLNEVCT (R157). -/
  | memClnEvct (m : HostMsg)
  /-- MEMWR (R157). -/
  | memWr (m : HostMsg) (data : Line) (poison : Bool)
  /-- MEMWRPTL (R159). -/
  | memWrPtl (m : HostMsg) (data : Line) (be : BitVec 64) (poison : Bool)
  /-- BICONFLICT (R174). -/
  | biConflict (m : HostMsg)
  /-- HOST_UNSUPPORTED_OPCODE (R151). -/
  | hostUnsupported (m : HostMsg) (chan : M2SChan)
  /-- BIRSPI (R165). -/
  | biRspI (r : BiRsp)
  /-- BIRSPS (R165). -/
  | biRspS (r : BiRsp)
  /-- BIRSPE (R165). -/
  | biRspE (r : BiRsp)
  /-- BIRSPIBLK (R166). -/
  | biRspIBlk (r : BiRsp) (four : Bool)
  /-- BIRSPSBLK (R166). -/
  | biRspSBlk (r : BiRsp) (four : Bool)
  /-- BIRSPEBLK (R166). -/
  | biRspEBlk (r : BiRsp) (four : Bool)
  /-- HOST_LINK_UP (R177). -/
  | hostLinkUp (port : Nat)
  /-- HOST_PORT_RESET (R44). -/
  | hostPortReset (port : Nat)
  /-- S2M_DELIVERED (R179). -/
  | s2mDelivered (port : Nat) (chan : S2MChan)
  /-- RETURN_WINDOW_EXPIRY (R177). -/
  | returnWindowExpiry (hid : Nat)
  /-- HOST_SNOOP_TIMEOUT (R168). -/
  | hostSnoopTimeout (hid : Nat)
  /-- EXPIRY_SWEEP_END (R184). -/
  | expirySweepEnd (hid : Nat)
  /-- RDSHARED (R205). -/
  | rdShared (a : AgentMsg)
  /-- RDOWN (R205). -/
  | rdOwn (a : AgentMsg)
  /-- RDCUR (R205). -/
  | rdCur (a : AgentMsg)
  /-- UPGRADE (R205). -/
  | upgrade (a : AgentMsg)
  /-- WBDIRTY (R205). -/
  | wbDirty (a : AgentMsg) (data : Line) (poison : Bool)
  /-- EVICTCLEAN (R205). -/
  | evictClean (a : AgentMsg)
  /-- ATOMICOP (R258). -/
  | atomicOp (a : AgentMsg) (data : Line)
  /-- RDRES (R280). -/
  | rdRes (a : AgentMsg)
  /-- WRCOND (R282). -/
  | wrCond (a : AgentMsg) (data : Line)
  /-- FENCE (R274). -/
  | fence (a : AgentMsg)
  /-- AGENT_PORT_SEND (R268). -/
  | agentPortSend (port : Nat) (useK : Bool) (reach : Reach)
  /-- FENCE_AT_SLICE (R232). -/
  | fenceAtSlice (phys : Nat) (t : ThreadId)
  /-- FENCE_ANSWER (R216). -/
  | fenceAnswer (phys : Nat) (t : ThreadId)
  /-- AGENT_RESPONSE_ARRIVAL (R238). -/
  | agentResponseArrival (phys : Nat) (port : Nat)
  /-- AGENT_RESPONSE_DELIVERY (R235). -/
  | agentResponseDelivery (t : ThreadId)
  /-- FORWARDED_DATA_ARRIVAL (R257). -/
  | forwardedDataArrival (port : Nat) (agent : Nat) (line : LineAddr) (data : Line) (dirty : Bool) (poison : Bool)
  /-- THREAD_EXCEPTION (R546). -/
  | threadException (t : ThreadId)
  /-- RING_SNOOP_COPY (R253). -/
  | ringSnoopCopy (port : Nat) (phys : Nat) (trk : Nat) (line : LineAddr)
  /-- AGENT_PORT_SNOOP (R240). -/
  | agentPortSnoop (port : Nat) (sq : Nat)
  /-- AGENT_SNOOP_ANSWER (R242). -/
  | agentSnoopAnswer (port : Nat) (header : BitVec 64) (data : Line)
  /-- AGENT_SNOOP_TIMEOUT (R246). -/
  | agentSnoopTimeout (port : Nat) (agent : Nat)
  /-- RSPI (R208). -/
  | rspI (r : AgRsp)
  /-- RSPS (R211). -/
  | rspS (r : AgRsp)
  /-- RSPFWD (R208). -/
  | rspFwd (r : AgRsp)
  /-- RSPWBDATA (R208). -/
  | rspWbData (r : AgRsp) (data : Line) (poison : Bool)
  /-- RSPIW (R208). -/
  | rspIW (r : AgRsp)
  /-- MEMDATA (R207). -/
  | memData (port : Nat) (tag : Nat) (data : Line) (nib : Nib) (poison : Bool) (ue : Bool)
  /-- MEMACK (R213). -/
  | memAck (a : AckSel)
  /-- MEMORY_PORT_TIMEOUT (R410). -/
  | memoryPortTimeout (port : Nat) (tag : Nat)
  /-- SPILLHIT (R212). -/
  | spillHit (port : Nat) (tag : Nat)
  /-- SPILLMISS (R212). -/
  | spillMiss (port : Nat) (tag : Nat) (ue : Bool)
  /-- MIGSTART (R206). -/
  | migStart (phys : Nat) (page : Page) (kind : MigKind)
  /-- MIGDONE (R214). -/
  | migDone (phys : Nat) (page : Page)
  /-- MOVETICK (R81). -/
  | moveTick (phys : Nat) (trk : Nat)
  /-- CASTLEREPLAY (R215). -/
  | castleReplay (phys : Nat)
  /-- SELFCHECK (R80). -/
  | selfCheck (phys : Nat) (agree : Bool)
  /-- REEVAL (R200). -/
  | reeval (phys : Nat) (trk : Nat)
  /-- ISSUE_SLOT (R90). -/
  | issueSlot (phys : Nat)
  /-- STARVATION_LIMIT (R98). -/
  | starvationLimit (phys : Nat) (input : Nat)
  /-- HOLD_RELEASE (R25). -/
  | holdRelease (phys : Nat) (line : LineAddr)
  /-- KCREDIT_ISSUE (R92). -/
  | kcreditIssue (phys : Nat) (input : Nat)
  /-- MOVE_BOUNDARY (R78). -/
  | moveBoundary
  /-- PREFETCH_ACCEPT (R302). -/
  | prefetchAccept (phys : Nat)
  /-- WRITEBACK_WALK_TURN (R310). -/
  | writebackWalkTurn (phys : Nat)
  /-- CACHE_DRAIN_WALK_TURN (R320). -/
  | cacheDrainWalkTurn (phys : Nat)
  /-- VICTIM_TO_WPQ (R305). -/
  | victimToWpq (phys : Nat) (entry : Nat)
  /-- WPQ_ISSUE (R308). -/
  | wpqIssue (phys : Nat)
  /-- PENDING_KPIN_FILL (R306). -/
  | pendingKpinFill (phys : Nat) (trk : Nat)
  /-- MIRROR_UPDATE (R313). -/
  | mirrorUpdate (phys : Nat)
  /-- PRELOAD_WALK_TURN (R315). -/
  | preloadWalkTurn (phys : Nat)
  /-- WAY_RETIRE (R321). -/
  | wayRetire (phys : Nat) (way : Nat)
  /-- ERROR_WINDOW_RESTART (R321). -/
  | errorWindowRestart (phys : Nat)
  /-- SF_WAY_DISABLE_WALK (R540). -/
  | sfWayDisableWalk (phys : Nat)
  /-- BLINDFOLD_SWEEP_GROUP (R423). -/
  | blindfoldSweepGroup (phys : Nat)
  /-- PROMO (R340). -/
  | promo (phys : Nat) (page : Page)
  /-- DACK (R338). -/
  | dack (phys : Nat) (page : Page)
  /-- DNOTE (R343). -/
  | dnote (phys : Nat) (page : Page)
  /-- DIRTY_MARK (R353). -/
  | dirtyMark (phys : Nat) (page : Page)
  /-- DIRTY_MARK_RELEASE (R353). -/
  | dirtyMarkRelease
  /-- STAMP (R147). -/
  | stamp (phys : Nat) (page : Page)
  /-- HEAT_REPORT (R334). -/
  | heatReport (phys : Nat) (page : Page) (heat : BitVec 8)
  /-- PAGE_MAP_FILL (R335). -/
  | pageMapFill (phys : Nat) (page : Page) (ue : Bool)
  /-- PAGE_MAP_ENTRY_UPDATE (R335). -/
  | pageMapEntryUpdate (page : Page)
  /-- DEMOTION_CLOCK_STEP (R349). -/
  | demotionClockStep
  /-- SLOT_EVICTION_CLOCK_STEP (R350). -/
  | slotEvictionClockStep (pool : Nat)
  /-- CLEANING_START (R354). -/
  | cleaningStart
  /-- CLEAN_COMMAND (R354). -/
  | cleanCommand (phys : Nat) (page : Page)
  /-- CLEAN_ACK (R354). -/
  | cleanAck (phys : Nat) (page : Page)
  /-- GAME_SWEEPER_STEP (R149). -/
  | gameSweeperStep
  /-- HEAT_DECAY (R348). -/
  | heatDecay
  /-- PAGE_MAP_CHUNK_LOAD (R337). -/
  | pageMapChunkLoad (chunk : Nat) (pins : List (Page × BitVec 3))
  /-- COPY_DONE (R340). -/
  | copyDone (ctag : Nat) (status : BitVec 4)
  /-- COMPRESS_DONE (R345). -/
  | compressDone (ctag : Nat) (status : BitVec 4) (len : Nat) (crc : W32)
  /-- FLUSH_DONE (R343). -/
  | flushDone (ctag : Nat) (status : BitVec 4)
  /-- STAGING_STORE_DONE (R342). -/
  | stagingStoreDone (ctag : Nat) (status : BitVec 4)
  /-- VICTIM_OFFER_RESPONSE (R304). -/
  | victimOfferResponse (ctag : Nat) (status : BitVec 4)
  /-- CLEAN_COPY_DONE (R354). -/
  | cleanCopyDone (ctag : Nat) (status : BitVec 4)
  /-- PERSISTENT_WRITE_DONE (R394). -/
  | persistentWriteDone (ctag : Nat) (status : BitVec 4)
  /-- PERSISTENT_READ_DONE (R396). -/
  | persistentReadDone (ctag : Nat) (status : BitVec 4) (lines : List PLine)
  /-- SAVE_PAGE_DONE (R384). -/
  | savePageDone (ctag : Nat) (status : BitVec 4)
  /-- DOORBELL (R363). -/
  | doorbell (ring : Nat)
  /-- RING_POLL (R363). -/
  | ringPoll
  /-- HINT_SLOT (R361). -/
  | hintSlot (ring : Nat)
  /-- PIN_COMPLETE (R357). -/
  | pinComplete (page : Page)
  /-- PD_LIST_START (R500). -/
  | pdListStart (w : RegAcc)
  /-- PD_LIST_ABORT (R500). -/
  | pdListAbort (w : RegAcc)
  /-- LIST_READ_DONE (R500). -/
  | listReadDone (tag : Nat) (lines : List Line)
  /-- MASTER_READ_ERROR (R499). -/
  | masterReadError (tag : Nat) (why : MasterErr)
  /-- PD_RING_CTL_RESET (R364). -/
  | pdRingCtlReset (w : RegAcc)
  /-- SLICE_FAILURE_DECLARED (R412). -/
  | sliceFailureDeclared (phys : Nat) (cause : BitVec 4)
  /-- ADOPTION_ITEM_MOVE (R426). -/
  | adoptionItemMove (phys : Nat)
  /-- RESYNC_COMPLETE (R420). -/
  | resyncComplete (phys : Nat)
  /-- MESH_PARITY_REFUSE (R406). -/
  | meshParityRefuse (link : LinkFlit)
  /-- RING_PARITY_FAIL (R408). -/
  | ringParityFail (stop : Nat) (kind : ParityKind) (flit : Nat)
  /-- RING_LOSS_NOTICE (R409). -/
  | ringLossNotice (target : LossTarget)
  /-- RING_ESCALATION (R252). -/
  | ringEscalation (flit : Nat)
  /-- RING_INJECT_CLAIM (R251). -/
  | ringInjectClaim (stop : Nat)
  /-- PROBE_MATCH (R451). -/
  | probeMatch (probe : Nat) (flit : Flit)
  /-- TRACE_PACKET_GAP (R457). -/
  | tracePacketGap (probe : Nat)
  /-- FB_TRACE_DATA_READ (R458). -/
  | fbTraceDataRead (r : RegRd)
  /-- FB_TRACE_CTL_FLUSH (R458). -/
  | fbTraceCtlFlush (w : RegAcc)
  /-- FB_PRB_CTL_CLEAR (R451). -/
  | fbPrbCtlClear (probe : Nat) (w : RegAcc)
  /-- FB_EVT_POP (R461). -/
  | fbEvtPop (r : RegRd)
  /-- EVENT_FIFO_STALE (R462). -/
  | eventFifoStale
  /-- SL_PMC_CLR_CYC (R463). -/
  | slPmcClrCyc (phys : Nat) (w : RegAcc)
  /-- SL_PMC_CLR_CNT (R463). -/
  | slPmcClrCnt (phys : Nat) (w : RegAcc)
  /-- COUNTER_LOW_READ (R454). -/
  | counterLowRead (offset : BitVec 27) (r : RegRd)
  /-- WIDE_REGISTER_LOW_READ (R518). -/
  | wideRegisterLowRead (offset : BitVec 27) (r : RegRd)
  /-- SL_OCC_MAX_READ (R538). -/
  | slOccMaxRead (phys : Nat) (r : RegRd)
  /-- READ_CLEAR_REGISTER (R509). -/
  | readClearRegister (offset : BitVec 27) (r : RegRd)
  /-- SL_PEEK_GO (R542). -/
  | slPeekGo (phys : Nat) (w : RegAcc)
  /-- SL_MSC_PRE_START (R315). -/
  | slMscPreStart (phys : Nat) (w : RegAcc)
  /-- SL_MSC_PRE_ABORT (R316). -/
  | slMscPreAbort (phys : Nat) (w : RegAcc)
  /-- GL_COMMIT (R79). -/
  | glCommit (w : RegAcc)
  /-- GL_GAME_WRITE (R145). -/
  | glGameWrite (w : RegAcc)
  /-- REGISTER_ALIAS_WRITE (R513). -/
  | registerAliasWrite (offset : BitVec 27) (w : RegAcc)
  /-- REGISTER_WRITE (R509). -/
  | registerWrite (offset : BitVec 27) (w : RegAcc)
  /-- DVSEC_CONFIG_WRITE (R490). -/
  | dvsecConfigWrite (offset : Nat) (value : W32)
  /-- EXPANSION_ROM_READ (R494). -/
  | expansionRomRead (offset : BitVec 27) (r : RegRd)
  /-- EXPANSION_ROM_WRITE (R494). -/
  | expansionRomWrite (offset : BitVec 27) (w : RegAcc)
  /-- ATOMIC_APERTURE_ATOMICOP (R497). -/
  | atomicApertureAtomicOp (offset : Nat) (a : AgentMsg) (data : Line)
  /-- LD_CMD_FETCH (R485). -/
  | ldCmdFetch (w : RegAcc)
  /-- FETCH_STEP_DONE (R485). -/
  | fetchStepDone (e : FetchEvent)
  /-- LD_CMD_ARM_RELOAD (R483). -/
  | ldCmdArmReload (w : RegAcc)
  /-- LD_CMD_DISARM (R483). -/
  | ldCmdDisarm (w : RegAcc)
  /-- LD_CMD_RETRY (R481). -/
  | ldCmdRetry (w : RegAcc)
  /-- LD_ROT_ACCEPT (R478). -/
  | ldRotAccept (w : RegAcc)
  /-- LD_ROT_REJECT (R478). -/
  | ldRotReject (w : RegAcc)
  /-- ROOT_OF_TRUST_TIMEOUT (R478). -/
  | rootOfTrustTimeout
  /-- EG_CTL_SHUTDOWN (R397). -/
  | egCtlShutdown (w : RegAcc)
  /-- EG_CTL_ACCEPT_LOSS (R397). -/
  | egCtlAcceptLoss (w : RegAcc)
  /-- EG_POR_RELEASE (R44). -/
  | egPorRelease
  /-- BLK_POR_RELEASE (R488). -/
  | blkPorRelease
  /-- SELF_TEST_DONE (R58). -/
  | selfTestDone (phys : Nat) (found : SelfTest)
  /-- SLOT_HEADERS_READ (R475). -/
  | slotHeadersRead (slotA : SlotBytes) (slotB : SlotBytes) (sfdp : Option Sfdp)
  /-- IMAGE_SLOT_LOADED (R476). -/
  | imageSlotLoaded (bytes : List (BitVec 8))
  /-- SETUP_WALK (R59). -/
  | setupWalk
  /-- RESTART_COMPLETE (R402). -/
  | restartComplete
  /-- WARM_REQ (R45). -/
  | warmReq
  /-- WARM_RELOAD (R483). -/
  | warmReload (slotA : SlotBytes) (slotB : SlotBytes)
  /-- FAB_RST (R44). -/
  | fabRst
  /-- ENDGAME_INPUT_CHANGE (R377). -/
  | endgameInputChange (i : EgInputs)
  /-- ADC_SAMPLE (R370). -/
  | adcSample (chan : Nat) (code : BitVec 12)
  /-- ALLOWANCE_COMPUTE (R387). -/
  | allowanceCompute
  /-- DEBOUNCE_COMPLETE (R377). -/
  | debounceComplete
  /-- RIDE_TIME_END (R377). -/
  | rideTimeEnd
  /-- RIDE_RECOVER (R377). -/
  | rideRecover
  /-- DRAIN_WALK_TURN (R382). -/
  | drainWalkTurn (phys : Nat)
  /-- DRAIN_COMPLETE (R382). -/
  | drainComplete
  /-- GPF_PHASE1 (R390). -/
  | gpfPhase1
  /-- GPF_PHASE1_ACK (R390). -/
  | gpfPhase1Ack
  /-- GPF_PHASE2 (R391). -/
  | gpfPhase2
  /-- PM_DSTATE_D3HOT (R503). -/
  | pmDstateD3hot
  /-- P2_ENTRY_COMPLETE (R503). -/
  | p2EntryComplete
  /-- PM_DSTATE_D0 (R505). -/
  | pmDstateD0
  /-- PM_P3_REQ (R507). -/
  | pmP3Req
  /-- P1_GATE (R502). -/
  | p1Gate (phys : Nat)
  /-- P1_UNGATE (R502). -/
  | p1Ungate (phys : Nat)
  /-- DEMOTION_TO_PERSISTENT_DONE (R342). -/
  | demotionToPersistentDone (ctag : Nat) (status : BitVec 4)
  /-- EVICTION_FROM_COMPRESSED_DONE (R338). -/
  | evictionFromCompressedDone (ctag : Nat) (status : BitVec 4)
  /-- NOR_ERASE_PROGRAM_TIMEOUT (R486). -/
  | norEraseProgramTimeout
  /-- TRACE_PORT_TRANSFER (R458). -/
  | tracePortTransfer
  /-- EVENT_REQUEST_ACCEPT (R438). -/
  | eventRequestAccept
  /-- PM_DSTATE_RESERVED (R501). -/
  | pmDstateReserved (value : BitVec 2)
  deriving DecidableEq, Repr

end Sys2Proof
end

