-- ==== Sys2Proof/WellFormed.lean ====
section
/-! DEFINITION. Well-formed commands: every index a command carries lies within what the largest variant has (R4). -/

namespace Sys2Proof

/-- The host port exists. -/
def HostMsg.wf (m : HostMsg) : Bool := m.port < 8
/-- The host port exists. -/
def BiRsp.wf (r : BiRsp) : Bool := r.port < 8
/-- The agent port exists. -/
def AgentMsg.wf (a : AgentMsg) : Bool := a.port < 8
/-- Port, agent and thread exist (R224). -/
def ThreadId.wf (t : ThreadId) : Bool := t.port < 8 && t.agent < 4 && t.thread < 16
/-- Slice, port and tracker exist (R249). -/
def AgRsp.wf (r : AgRsp) : Bool := r.phys < 17 && r.port < 8 && r.trk < 192
/-- The port and tag, or the slice, exist. -/
def AckSel.wf : AckSel → Bool
  | .mem port tag => port < 16 && tag < 256
  | .mirror phys => phys < 17
  | .stamp phys _ => phys < 17
  | .dirtyMark phys _ => phys < 17
/-- The slice or agent port exists. -/
def LossTarget.wf : LossTarget → Bool
  | .slice phys => phys < 17
  | .port n => n < 8

/-- A command whose indices name parts the largest variant has. -/
def Instr.wf : Instr → Bool
  | .memRd m => m.wf
  | .memRdData m => m.wf
  | .memSpecRd m => m.wf
  | .memInv m => m.wf
  | .memInvNT m => m.wf
  | .memClnEvct m => m.wf
  | .memWr m _ _ => m.wf
  | .memWrPtl m _ _ _ => m.wf
  | .biConflict m => m.wf
  | .hostUnsupported m _ => m.wf
  | .biRspI r => r.wf
  | .biRspS r => r.wf
  | .biRspE r => r.wf
  | .biRspIBlk r _ => r.wf
  | .biRspSBlk r _ => r.wf
  | .biRspEBlk r _ => r.wf
  | .hostLinkUp port => port < 8
  | .hostPortReset port => port < 8
  | .s2mDelivered port _ => port < 8
  | .returnWindowExpiry hid => hid < 64
  | .hostSnoopTimeout hid => hid < 64
  | .expirySweepEnd hid => hid < 64
  | .rdShared a => a.wf
  | .rdOwn a => a.wf
  | .rdCur a => a.wf
  | .upgrade a => a.wf
  | .wbDirty a _ _ => a.wf
  | .evictClean a => a.wf
  | .atomicOp a _ => a.wf
  | .rdRes a => a.wf
  | .wrCond a _ => a.wf
  | .fence a => a.wf
  | .agentPortSend port _ _ => port < 8
  | .fenceAtSlice phys t => phys < 17 && t.wf
  | .fenceAnswer phys t => phys < 17 && t.wf
  | .agentResponseArrival phys port => phys < 17 && port < 8
  | .agentResponseDelivery t => t.wf
  | .forwardedDataArrival port agent _ _ _ _ => port < 8 && agent < 4
  | .threadException t => t.wf
  | .ringSnoopCopy port phys trk _ => port < 8 && phys < 17 && trk < 192
  | .agentPortSnoop port sq => port < 8 && sq < 32
  | .agentSnoopAnswer port _ _ => port < 8
  | .agentSnoopTimeout port agent => port < 8 && agent < 4
  | .rspI r => r.wf
  | .rspS r => r.wf
  | .rspFwd r => r.wf
  | .rspWbData r _ _ => r.wf
  | .rspIW r => r.wf
  | .memData port tag _ _ _ _ => port < 16 && tag < 256
  | .memAck a => a.wf
  | .memoryPortTimeout port tag => port < 16 && tag < 256
  | .spillHit port tag => port < 16 && tag < 256
  | .spillMiss port tag _ => port < 16 && tag < 256
  | .migStart phys _ _ => phys < 17
  | .migDone phys _ => phys < 17
  | .moveTick phys trk => phys < 17 && trk < 192
  | .castleReplay phys => phys < 17
  | .selfCheck phys _ => phys < 17
  | .reeval phys trk => phys < 17 && trk < 192
  | .issueSlot phys => phys < 17
  | .starvationLimit phys input => phys < 17 && input < 16
  | .holdRelease phys _ => phys < 17
  | .kcreditIssue phys input => phys < 17 && input < 16
  | .moveBoundary => true
  | .prefetchAccept phys => phys < 17
  | .writebackWalkTurn phys => phys < 17
  | .cacheDrainWalkTurn phys => phys < 17
  | .victimToWpq phys entry => phys < 17 && entry < 32
  | .wpqIssue phys => phys < 17
  | .pendingKpinFill phys trk => phys < 17 && trk < 192
  | .mirrorUpdate phys => phys < 17
  | .preloadWalkTurn phys => phys < 17
  | .wayRetire phys way => phys < 17 && way < 16
  | .errorWindowRestart phys => phys < 17
  | .sfWayDisableWalk phys => phys < 17
  | .blindfoldSweepGroup phys => phys < 17
  | .promo phys _ => phys < 17
  | .dack phys _ => phys < 17
  | .dnote phys _ => phys < 17
  | .dirtyMark phys _ => phys < 17
  | .dirtyMarkRelease => true
  | .stamp phys _ => phys < 17
  | .heatReport phys _ _ => phys < 17
  | .pageMapFill phys _ _ => phys < 17
  | .pageMapEntryUpdate _ => true
  | .demotionClockStep => true
  | .slotEvictionClockStep pool => pool < 3
  | .cleaningStart => true
  | .cleanCommand phys _ => phys < 17
  | .cleanAck phys _ => phys < 17
  | .gameSweeperStep => true
  | .heatDecay => true
  | .pageMapChunkLoad _ _ => true
  | .copyDone ctag _ => ctag < 256
  | .compressDone ctag _ len _ => ctag < 256 && len < 8192
  | .flushDone ctag _ => ctag < 256
  | .stagingStoreDone ctag _ => ctag < 256
  | .victimOfferResponse ctag _ => ctag < 256
  | .cleanCopyDone ctag _ => ctag < 256
  | .persistentWriteDone ctag _ => ctag < 256
  | .persistentReadDone ctag _ _ => ctag < 256
  | .savePageDone ctag _ => ctag < 256
  | .doorbell ring => ring < 16384
  | .ringPoll => true
  | .hintSlot ring => ring < 16384
  | .pinComplete _ => true
  | .pdListStart _ => true
  | .pdListAbort _ => true
  | .listReadDone tag _ => tag < 256
  | .masterReadError tag _ => tag < 256
  | .pdRingCtlReset _ => true
  | .sliceFailureDeclared phys _ => phys < 17
  | .adoptionItemMove phys => phys < 17
  | .resyncComplete phys => phys < 17
  | .meshParityRefuse link => link.link < 192
  | .ringParityFail stop _ _ => stop < 25
  | .ringLossNotice target => target.wf
  | .ringEscalation _ => true
  | .ringInjectClaim stop => stop < 25
  | .probeMatch probe _ => probe < 12
  | .tracePacketGap probe => probe < 12
  | .fbTraceDataRead _ => true
  | .fbTraceCtlFlush _ => true
  | .fbPrbCtlClear probe _ => probe < 12
  | .fbEvtPop _ => true
  | .eventFifoStale => true
  | .slPmcClrCyc phys _ => phys < 17
  | .slPmcClrCnt phys _ => phys < 17
  | .counterLowRead _ _ => true
  | .wideRegisterLowRead _ _ => true
  | .slOccMaxRead phys _ => phys < 17
  | .readClearRegister _ _ => true
  | .slPeekGo phys _ => phys < 17
  | .slMscPreStart phys _ => phys < 17
  | .slMscPreAbort phys _ => phys < 17
  | .glCommit _ => true
  | .glGameWrite _ => true
  | .registerAliasWrite _ _ => true
  | .registerWrite _ _ => true
  | .dvsecConfigWrite offset _ => offset < 64
  | .expansionRomRead _ _ => true
  | .expansionRomWrite _ _ => true
  | .atomicApertureAtomicOp offset a _ => offset < 134217728 && a.wf
  | .ldCmdFetch _ => true
  | .fetchStepDone _ => true
  | .ldCmdArmReload _ => true
  | .ldCmdDisarm _ => true
  | .ldCmdRetry _ => true
  | .ldRotAccept _ => true
  | .ldRotReject _ => true
  | .rootOfTrustTimeout => true
  | .egCtlShutdown _ => true
  | .egCtlAcceptLoss _ => true
  | .egPorRelease => true
  | .blkPorRelease => true
  | .selfTestDone phys _ => phys < 17
  | .slotHeadersRead _ _ _ => true
  | .imageSlotLoaded _ => true
  | .setupWalk => true
  | .restartComplete => true
  | .warmReq => true
  | .warmReload _ _ => true
  | .fabRst => true
  | .endgameInputChange _ => true
  | .adcSample chan _ => chan < 8
  | .allowanceCompute => true
  | .debounceComplete => true
  | .rideTimeEnd => true
  | .rideRecover => true
  | .drainWalkTurn phys => phys < 17
  | .drainComplete => true
  | .gpfPhase1 => true
  | .gpfPhase1Ack => true
  | .gpfPhase2 => true
  | .pmDstateD3hot => true
  | .p2EntryComplete => true
  | .pmDstateD0 => true
  | .pmP3Req => true
  | .p1Gate phys => phys < 17
  | .p1Ungate phys => phys < 17
  | .demotionToPersistentDone ctag _ => ctag < 256
  | .evictionFromCompressedDone ctag _ => ctag < 256
  | .norEraseProgramTimeout => true
  | .tracePortTransfer => true
  | .eventRequestAccept => true
  | .pmDstateReserved _ => true

end Sys2Proof
end

