-- ==== Sys2Proof/Decode.lean ====
section
/-! DEFINITION. The command a word spells by the bits of the opcode table: its rows give no bits, so no word spells one. -/

namespace Sys2Proof

/-- The command that the low `nbits` bits of a word spell: the table gives its rows no encoding (every `fields` list is
empty), so there is none. -/
def decodeTableWord (_nbits _w : Nat) : Option Instr := none

end Sys2Proof
end

