-- ==== Sys2Proof/Config.lean ====
section
/-! DEFINITION. What the specification leaves open: values no rule fixes, as constants without a body (log 7, 8, 15). -/

namespace Sys2Proof

/-- The identifier of the Ranvos reference table for release 3.2 (R219, R222): the manual gives no number (log 8). -/
opaque Config.refTableId : W64

/-- SECDED check bits over the 72 data bits of a snoop-filter entry (R113): the manual names no code (log 7). -/
opaque Config.sfCheck : BitVec 72 → BitVec 8

/-- SECDED check bits over the 41 data bits of a cache tag word (R295; log 7). -/
opaque Config.tagCheck : BitVec 41 → BitVec 7

/-- SECDED check bits of a cell word (R186; log 7). -/
opaque Config.cellCheck : BitVec 40 → BitVec 7

/-- SECDED check bits of an action-pool word (R186; log 7). -/
opaque Config.poolCheck : W64 → BitVec 8

/-- Cell words of the Ranvos reference table (R189): the manual gives its entries, not its words (log 8). -/
opaque Config.refCell : Nat → BitVec 40

/-- Action-pool words of the Ranvos reference table (R195; log 8). -/
opaque Config.refPool : Nat → W64

/-- Line data the manual does not state: the n-th such value drawn (log 7). -/
opaque Config.freeLine : Nat → Line

/-- Nanoseconds of a castling stall, as records 0x01 and 0x02 carry them: the n-th such value drawn. Time is not modelled
(log 19). -/
opaque Config.stallNs : Nat → BitVec 32

/-- Code of the error response that an agent port gives while the setup walk has failed (R61): the manual gives no code for it
(log 48). -/
opaque Config.setupErr : BitVec 3

/-- Which free item is taken where the manual fixes none: the n-th such choice (log 15). -/
opaque Config.freePick : Nat → Nat

end Sys2Proof
end

