-- ==== Sys2Proof/Machine/State.lean ====
section
/-! DEFINITION. The state of the block as plain data: every register, array, queue, counter, mode and pin the manual
names, the queue of waiting commands, and the state right after reset. -/

namespace Sys2Proof.Machine

/-! ### Names -/

/-- The three variants (R4). -/
inductive Variant where
  | yzh04
  | yzh08
  | yzh16
  deriving DecidableEq, Repr

/-- Traffic classes (R82), highest precedence first. -/
inductive Cls where
  | k
  | q
  | n
  | p
  deriving DecidableEq, Repr

/-- The inputs of the sequencer (R191). -/
inductive Inp where
  | memRd | memRdData | memSpecRd | memInv | memInvNT | memClnEvct | memWr | memWrPtl | biConflict
  | biRspI | biRspS | biRspE
  | rdShared | rdOwn | rdCur | upgrade | wbDirty | evictClean | atomicOp | rdRes | wrCond | fence
  | rspI | rspS | rspFwd | rspWbData | rspIW
  | memData | memAck | spillHit | spillMiss | migStart | migDone | moveTick | castleReplay | selfCheck
  deriving DecidableEq, Repr

/-- Tracker states (R190). -/
inductive TSt where
  | i | s | e | x | isD | ieD | eb | sb | xs | xsW | wbx | bc | spF | spW | mg | atN | lrW | ca
  deriving DecidableEq, Repr

/-- The meaning of MetaValue to the block (R153). -/
inductive Meta where
  | i
  | s
  | a
  deriving DecidableEq, Repr

/-- Who sent a request to a slice. -/
inductive Src where
  | host (port hid : Nat)
  | agent (port agent thread : Nat)
  /-- A director command: MigStart, or the director's read or write of a ring or result slot (R88, R364). -/
  | director
  /-- A queued next-line prefetch (R301, R302). -/
  | prefetch
  /-- The preload walk, or the fills of a PREFETCH hint (R315, R361). -/
  | preload
  /-- The snoop-filter way-disable walk (R540). -/
  | wayWalk
  /-- The blindfold sweeper (R423). -/
  | sweeper
  deriving DecidableEq, Repr

/-- A request as a slice holds it (R85, R153, R192, R228). `seq` orders requests by their arrival at the slice. -/
structure Req where
  kind : Inp
  src : Src
  tag : Nat
  line : LineAddr
  off : BitVec 6
  mv : Meta
  hdmH : Bool
  ownCls : Option Cls
  cls : Cls
  data : Line
  be : BitVec 64
  poison : Bool
  size : BitVec 2
  aop : BitVec 4
  withK : Bool
  mig : Option MigKind
  seq : Nat
  deriving DecidableEq, Repr

/-! ### Directory records -/

/-- STATE of a snoop-filter entry (R114). -/
inductive HState where
  | free
  | s
  | e
  | x
  deriving DecidableEq, Repr

/-- A snoop-filter entry, holder register or victim register (R113, R194). `ptrs` are the valid precise pointers in
order (R116); `coarse` is the SHARERS field in coarse mode (R117), none in precise mode; HCNT is the length of
`ptrs`. The 80-bit form is `entryBits`. -/
structure Entry where
  line : LineAddr
  st : HState
  ptrs : List Nat
  coarse : Option (BitVec 32)
  amh : Bool
  fwd : Nat
  opn : Bool
  kpin : Bool
  deriving DecidableEq, Repr

/-- Kinds of BISnp (R165). -/
inductive HSnp where
  | inv
  | data
  | cur
  deriving DecidableEq, Repr

/-- Kinds of Rook-ring snoop (R239). -/
inductive ASnp where
  | inv
  | shr
  | cur
  deriving DecidableEq, Repr

/-- A BISnp outstanding to a HID (R165, R193). `owner`: the HID was recorded as E owner when it was sent. -/
structure HSnpOut where
  hid : Nat
  line : LineAddr
  kind : HSnp
  owner : Bool
  deriving DecidableEq, Repr

/-- A Rook-ring snoop whose answer from one port is outstanding (R409). -/
structure ASnpOut where
  port : Nat
  line : LineAddr
  kind : ASnp
  deriving DecidableEq, Repr

/-- What an outstanding acknowledgement answers (R190, R306, R352). -/
inductive AckKind where
  | lineWrite (wid : Nat)
  | metaWrite
  | bucket
  | mirror (uid : Nat)
  | stamp
  | dirtyMark
  /-- A pending fill of a class-K line (R306); true: the line is written, not only filled. -/
  | kFill (dirty : Bool)
  deriving DecidableEq, Repr

/-- An acknowledgement outstanding to a tracker; `vic`: it concerns the line of the victim register (C17). -/
structure Ack where
  kind : AckKind
  vic : Bool
  deriving DecidableEq, Repr

/-! ### Messages -/

/-- S2M NDR opcodes (R151). -/
inductive Ndr where
  | cmp
  | cmpS
  | cmpE
  | biConflictAck
  deriving DecidableEq, Repr

/-- The body of an S2M message (R151, R154, R159, R166). -/
inductive S2MBody where
  | ndr (op : Ndr) (tag : Nat)
  | data (tag : Nat) (data : Line) (poison : Bool)
  | snp (kind : HSnp) (lines : Nat)
  deriving DecidableEq, Repr

/-- An S2M message: the HID it is for, the line, and the slice that sent it (none: the port itself, R163). `k`: it goes ahead of
other classes' messages (R100). `ord`: its place among the messages its slice has sent, from when it first sent it (R181). -/
structure S2M where
  hid : Nat
  line : LineAddr
  phys : Option Nat
  body : S2MBody
  k : Bool
  ord : Nat
  deriving DecidableEq, Repr

/-- Responses to agents (R234, ARSP of R196). The error response carries its code (R236). -/
inductive ARspKind where
  | gntS
  | gntX
  | gntCur
  | gntUp
  | cmp
  | result
  | error (code : BitVec 3)
  deriving DecidableEq, Repr

/-- A response to an agent as it travels and as it waits in its reorder entry (R234). `data` none: no data beat;
`fwd`: the grant follows RspFwd and its data comes from another agent (R257). `k`: it goes ahead of other classes' messages
(R100). -/
structure ARsp where
  phys : Nat
  kind : ARspKind
  tag : BitVec 7
  agent : Nat
  thread : Nat
  line : LineAddr
  data : Option Line
  poison : Bool
  lost : Bool
  fwded : Bool
  dirty : Bool
  wcok : Bool
  fwd : Bool
  k : Bool
  deriving DecidableEq, Repr

/-- A response of a slice or port to whoever sent a request. -/
inductive OutMsg where
  | host (port : Nat) (m : S2M)
  | agent (port : Nat) (r : ARsp)
  /-- The director's own slot access has completed, with the line that a read returns (R362, R364). -/
  | director (tag : Nat) (data : Option Line)
  deriving DecidableEq, Repr

/-- A completion held by the data path until its mirror (R199) and its dirty mark (R352) are acknowledged.
`mirror` none: no mirror, or already acknowledged. -/
structure Held where
  msg : OutMsg
  mirror : Option Nat
  mark : Bool
  /-- Line write whose acknowledgement stands for the mirror's in unprotected mode (R420). -/
  write : Option Nat
  /-- A pending class-K fill still holds the written data (R306). -/
  fill : Bool
  deriving DecidableEq, Repr

/-! ### Mirror (09 R312, 12 R413) -/

/-- A mirrored dirty line or WPQ entry. -/
structure MirLine where
  line : LineAddr
  data : Line
  nib : Nib
  poison : Bool
  deriving DecidableEq, Repr

/-- One change of a mirror (R313). -/
inductive MirOp where
  | putDirty (r : MirLine)
  | delDirty (line : LineAddr)
  | putWpq (wid : Nat) (r : MirLine)
  | delWpq (wid : Nat)
  deriving DecidableEq, Repr

/-! ### Steps of the sequencer -/

/-- An action word, field by field (R195). -/
structure Word where
  next : BitVec 5 := 0
  retire : Bool := false
  reeval : Bool := false
  hrsp : BitVec 3 := 0
  hdata : Bool := false
  bisnp : BitVec 3 := 0
  rsnp : BitVec 3 := 0
  arsp : BitVec 3 := 0
  mem : BitVec 3 := 0
  nibw : Bool := false
  ndir : BitVec 2 := 0
  holder : BitVec 4 := 0
  sfw : Bool := false
  cache : BitVec 2 := 0
  take : Bool := false
  mirror : Bool := false
  stamp : Bool := false
  arm : Bool := false
  promo : Bool := false
  dack : Bool := false
  dnote : Bool := false
  resv : BitVec 2 := 0
  atom : Bool := false
  pois : Bool := false
  vstart : Bool := false
  sprec : Bool := false
  log : Bool := false
  fault : Bool := false
  pevt : BitVec 4 := 0
  rsv : BitVec 12 := 0
  deriving DecidableEq, Repr

/-- An input to a tracker with what it carries (R191): its sender, the request it belongs to when it is a message of a
host or agent, line data with byte enables, the nibble, an error mark, the spill entry and slots a bucket read found. -/
structure InMsg where
  inp : Inp
  vic : Bool := false
  line : LineAddr
  who : Option Src := none
  req : Option Req := none
  side : Bool := false
  data : Line := 0
  be : BitVec 64 := 0
  poison : Bool := false
  nib : Nib := 0
  ue : Bool := false
  hit : Option Entry := none
  illegal : Bool := false
  ownerAns : Bool := false
  replayEnd : Bool := false
  /-- The kind of Rook-ring snoop an agent port's answer is for, and of BISnp a host's answer is for. -/
  aKind : Option ASnp := none
  hKind : Option HSnp := none
  /-- The line that was read for a partial side write, and its mark (R159). -/
  under : Option (Line × Bool) := none
  deriving DecidableEq, Repr

/-- A step held from CACHE onward until a WPQ entry frees (R308): its word, its input, whether it is a lookup's, and what its
fields before CACHE have done: mirror changes, a nibble written, a mark still to be written on a line that no line buffer holds. -/
structure Stall where
  word : Word
  msg : InMsg
  look : Bool
  ops : List MirOp
  nibbed : Bool
  marks : Bool
  deriving DecidableEq, Repr

/-! ### Trackers and hold -/

/-- The pool a tracker belongs to (R27). -/
inductive Pool where
  | k
  | maint
  | shared
  deriving DecidableEq, Repr

/-- What a tracker's bucket read is for (R140 to R143, R212). -/
inductive BktUse where
  | lookup
  | direct
  | victim
  deriving DecidableEq, Repr

/-- An open tracker (R190 to R201, R134, R413). -/
structure Tracker where
  num : Nat
  pool : Pool
  raised : Bool
  req : Req
  st : TSt
  /-- The state that a replayed record holds while the tracker is in CA (R215). -/
  was : TSt
  /-- The holder register; none while it is not loaded (R194). -/
  holder : Option Entry
  /-- The nibble as last read, from the cache, the WPQ or memory. -/
  nib : Option Nib
  /-- A MemData with an uncorrectable error has come (class 0b10, R194). -/
  ue : Bool
  /-- The line buffer's data. -/
  buf : Option Line
  poison : Bool
  /-- POIS has marked the line and the mark is not yet in the cache or the WPQ. -/
  newPoison : Bool
  /-- The own write's data and operand have been merged into the line buffer (R200). -/
  merged : Bool
  result : Option Line
  wcok : Bool
  hsnp : List HSnpOut
  asnp : List ASnpOut
  acks : List Ack
  held : List Held
  /-- Lines for which an agent writeback has reached the tracker (C19). -/
  wbSeen : List LineAddr
  /-- Ports whose RspIW has come and whose WbDirty has not (C20), by line. -/
  wbOwed : List (Nat × LineAddr)
  /-- A line read is outstanding. -/
  rdOut : Bool
  /-- A bucket read is outstanding, and its use. -/
  bktOut : Option BktUse
  /-- A bucket read has returned while the line read is outstanding (R192): hit or miss with an error mark. -/
  bktIn : Option Bool
  /-- The tracker waits for a bucket reservation (R140). -/
  bktWait : Option BktUse
  victim : Option Entry
  vst : Option TSt
  armed : Bool
  direct : Bool
  dslot : Nat
  snooped : Bool
  /-- HIDs that have answered, written back or evicted in the transaction: no longer counted in OTHERS (log 21). -/
  gone : List Nat
  snoopAll : Bool
  reduced : Bool
  fwdGot : Bool
  /-- Data has been written back during the transaction (R159, R160). -/
  wbData : Bool
  atomNear : Option Bool
  waitedHold : Bool
  reevalDue : Bool
  reevals : Nat
  /-- The tracker waits for its page's entry (R335, 01 Inside a home slice). -/
  pmWait : Bool
  /-- A step that waits for WPQ entries, and the inputs that wait behind it (R308). -/
  stall : Option Stall
  inq : List InMsg
  /-- Partial side writes that wait for their line's read (R159). -/
  late : List InMsg
  resOk : Bool
  /-- The record's COMMITTED flag (R413, R417). -/
  committed : Bool
  /-- A retirement is wanted as soon as R201 allows it. -/
  retiring : Bool
  /-- Moves since the tracker opened (R542). -/
  moves : Nat
  /-- A MoveTick of this move is to be delivered (R81). -/
  tickDue : Bool
  deriving DecidableEq, Repr

/-- A hold entry (R24 to R26): its request, the order of its arrival, the tracker it waits behind. -/
structure HoldEnt where
  num : Nat
  req : Req
  order : Nat
  behind : Nat
  deriving DecidableEq, Repr

/-! ### Arbitration (03) -/

/-- A candidate of a draw: an input and a class (R93). -/
structure Cand where
  input : Nat
  cls : Cls
  deriving DecidableEq, Repr

/-- One slice input (R90, R92, R97): waiting requests oldest first, starvation counter, due forced win, and the pool
of the tracker reserved for the class-K credit the input holds. -/
structure InputQ where
  waiting : List Req
  starve : Nat
  forced : Bool
  kcredit : Option Pool
  /-- The input's port has been reset since the draw of the cycle before (R99). -/
  wasReset : Bool
  deriving DecidableEq, Repr

/-- Arbitration state of a slice. -/
structure Arb where
  cyc : Nat
  kAccept : Nat
  /-- Class-K acceptances of the second logical number of an adopting slice (R427). -/
  kAcceptB : Nat
  qCount : Nat
  maintCount : Nat
  /-- The self-check's slot of the move has come (R80). -/
  selfSlot : Bool
  selfDone : Bool
  lfsr : BitVec 16
  /-- The previous zero-total winner (R95). -/
  rrZero : Option Cand
  /-- Round-robin pointer of maintenance work (R90). -/
  rrMaint : Nat
  /-- The draws made in the cycle before, in YZH-16S (R96). -/
  pipeQ : Option Cand
  pipeL : Option Cand
  inputs : List InputQ
  starved : BitVec 16
  dead : BitVec 32
  seq : Nat
  deriving DecidableEq, Repr

/-! ### Cache (09) -/

/-- A cached line: the tag word's fields and the data (R295). -/
structure CLine where
  line : LineAddr
  dirty : Bool
  nib : Nib
  poison : Bool
  pf : Bool
  kline : Bool
  data : Line
  deriving DecidableEq, Repr

/-- A victim-buffer entry (R305, R307): whether the WPQ holds its line, whether CACHE 0b11 has marked it, and the
mirror update its freeing waits for. -/
structure VbEnt where
  num : Nat
  cl : CLine
  inWpq : Bool
  noReinst : Bool
  mirror : Option Nat
  deriving DecidableEq, Repr

/-- A WPQ entry (R308): issued to a memory port or not. -/
structure WpqEnt where
  wid : Nat
  line : LineAddr
  data : Line
  nib : Nib
  poison : Bool
  issued : Bool
  ktag : Bool
  deriving DecidableEq, Repr

/-- SL_MSC_STATUS.STATE (R317). -/
inductive MscState where
  | enabled
  | draining
  | disabled
  deriving DecidableEq, Repr

/-- The preload walk (R315, R316): the page and line it is at, the pages left, the set it is clearing. -/
structure Preload where
  busy : Bool
  done : Bool
  page : Page
  left : Nat
  lineNo : Nat
  clearing : Option Nat
  skipped : Nat
  loaded : Nat
  deriving DecidableEq, Repr

/-- The memory-side cache of a slice with its victim buffer and WPQ. -/
structure Msc where
  lines : List (Nat × CLine)
  plru : List (Nat × BitVec 15)
  vb : List VbEnt
  wpq : List WpqEnt
  widNext : Nat
  state : MscState
  pinBlock : Bool
  walkBusy : Bool
  walkSet : Nat
  drainSet : Nat
  drainLeft : Bool
  auto : BitVec 16
  /-- Ways being emptied: way, next set, and whether AUTO is set at the end (R321). -/
  retiring : List (Nat × Nat × Bool)
  wayErr : List (Nat × Nat)
  pre : Preload
  /-- The prefetch queue: line and class (R301). -/
  pfq : List (LineAddr × Cls)
  pfDropped : Nat
  fillsSkipped : Nat
  deriving DecidableEq, Repr

/-! ### Page-map entries (10) -/

/-- A page-map entry (R330), its reserved bits kept. -/
structure PEnt where
  tier : BitVec 2
  frame : BitVec 36
  game : Game
  classPin : BitVec 3
  dirty : Bool
  mig : Bool
  cslot : BitVec 2
  rsvd : BitVec 11
  deriving DecidableEq, Repr

/-- A page-map cache way (R334). -/
structure PmWay where
  page : Page
  ent : PEnt
  heat : BitVec 8
  deriving DecidableEq, Repr

/-! ### Mirror updates under way (09 R313) -/

/-- A mirror update on the castling link, in order, with the tracker that waits for its acknowledgement. -/
structure MirUpd where
  uid : Nat
  ops : List MirOp
  deriving DecidableEq, Repr

/-- The mirror storage a slice keeps for its buddy, with the buddy's tracker journal, and its own updates under way. -/
structure MirStore where
  dirty : List MirLine
  wpq : List (Nat × MirLine)
  /-- The buddy's journal (R32, R413): tracker records, and the request records of hold entries. -/
  jTrk : List Tracker
  jHold : List HoldEnt
  /-- Updates sent and not yet taken by the buddy. -/
  link : List MirUpd
  /-- Updates taken by the buddy whose acknowledgement has not been presented, oldest first. -/
  acked : List Nat
  uidNext : Nat
  deriving DecidableEq, Repr

/-! ### Slices -/

/-- SL_STATUS.WALK (R60). -/
inductive Walk where
  | notWalked
  | active
  | reserve
  | fusedOff
  | testFailed
  | excluded
  deriving DecidableEq, Repr

/-- SL_STATUS.ROLE (R536). -/
inductive Role where
  | none
  | active
  | reserve
  | takeover
  | adopting
  deriving DecidableEq, Repr

/-- Why a slice reports its own failure (R412, R437 code 0x01). -/
inductive FailCause where
  | mismatch
  | heartbeat
  | control
  | link
  deriving DecidableEq, Repr

/-- Status of a physical slice (17). -/
structure SliceId where
  walk : Walk
  role : Role
  logA : Nat
  logB : Nat
  /-- The self-test's outcome; none until it has finished (R58). -/
  selfTest : Option Bool
  isolated : Bool
  gated : Bool
  draining : Bool
  drainSet : Nat
  drainPass : Bool
  frozen : Bool
  unprot : Bool
  /-- The slice has reported a failure and stopped; not yet declared (R412). -/
  failed : Option FailCause
  idleMoves : Nat
  beats : BitVec 16
  singleMiss : BitVec 8
  beatThisMove : Bool
  missedLast : Bool
  /-- The slice has evaluated no input since power-on clear of P2 (R504). -/
  asleep : Bool
  /-- The slice takes no new work until a replay's REPLAY_END (R414, R426). -/
  adoptStall : Bool
  /-- The slice has not been idle throughout this move (R502). -/
  busyMove : Bool
  /-- The loader has written the slice's table memories (R218). -/
  tableIn : Bool
  deriving DecidableEq, Repr

/-- Which array of a slice a stored error lies in (R404, log 9). -/
inductive ErrArr where
  | sf
  | tag
  | data
  | tracker
  | hold
  | pm
  | cell
  | pool
  | mirror
  | wpq
  | vb
  /-- A copy of the sequencer: its next action word differs from the other copy's (R29). -/
  | seq
  /-- The next beat of the slice's castling link. -/
  | link
  /-- The next beat that the slice sends over the replay bus. -/
  | bus
  deriving DecidableEq, Repr

/-- An error in a stored word (log 9): its array and index, and whether it is beyond correction. -/
structure LatErr where
  arr : ErrArr
  idx : Nat
  ue : Bool
  deriving DecidableEq, Repr

/-- A reservation monitor (R280), held oldest first. -/
structure Monitor where
  num : Nat
  thread : ThreadId
  granule : LineAddr
  deriving DecidableEq, Repr

/-- A 48-bit counter with its SAT bit and the latch of R454. -/
structure Ctr48 where
  value : BitVec 48
  sat : Bool
  latch : BitVec 17
  deriving DecidableEq, Repr

/-- The peek window's status and data (R542). -/
structure Peek where
  busy : Bool
  done : Bool
  result : BitVec 2
  d0 : W32
  d1 : W32
  d2 : W32
  d3 : W32
  deriving DecidableEq, Repr

/-- A blindfold range (R422, R423): logical number, class-K pages still to visit, the frame and group the sweeper is
at. `groupLine` none: between groups. -/
structure Blind where
  log : Nat
  kpages : List Page
  frame : Nat
  group : Nat
  deriving DecidableEq, Repr

/-- Counters and errors of a slice (13, 17). -/
structure SliceObs where
  occTrk : Nat
  occHold : Nat
  occWpq : Nat
  ce : List Nat
  ue : List Nat
  cfgErr : W32
  pmc : List Ctr48
  cyc : Ctr48
  peek : Peek
  /-- Counted events no register shows: raises, discarded messages, back-invalidations, unclear reads (R101, R143). -/
  raises : Nat
  backInv : Nat
  discarded : Nat
  poisonLogged : Nat
  errs : List LatErr
  deriving DecidableEq, Repr

/-- Directory state of a slice (04). -/
structure DirSt where
  sf : List (Nat × Entry)
  plru : List (Nat × BitVec 15)
  /-- Way-disable walk (R540): next set, entries left in the pass per way, EMPTY bits. -/
  wdSet : Option Nat
  wdLeft : BitVec 16
  empty : BitVec 16
  disp : BitVec 2
  /-- Bucket reservations: bucket number and tracker (R140). -/
  bkt : List (Nat × Nat)
  pred : List (Nat × BitVec 2)
  monitors : List Monitor
  fences : List ThreadId
  deriving DecidableEq, Repr

/-- One physical home slice. -/
structure Slice where
  ident : SliceId
  arb : Arb
  trk : List Tracker
  hold : List HoldEnt
  holdSeq : Nat
  dir : DirSt
  msc : Msc
  pm : List (Nat × PmWay)
  pmPlru : List (Nat × BitVec 7)
  /-- Page-map reads outstanding; true: discard the fill and read again (R335). -/
  pmOut : List (Page × Bool)
  stamps : List Page
  marks : List Page
  /-- Pages whose cleaning or demotion waits for WPQ entries: page, entries waited for, true for cleaning. -/
  quiesce : List (Page × List Nat × Bool)
  /-- Responses sent to each agent port, modulo 256 (R237). -/
  rspCnt : List (BitVec 8)
  retq : List S2M
  /-- Host messages the slice has sent (R181). -/
  sent : Nat
  /-- HIDs for which a queued message's line is being read again (R180). -/
  rereads : List Nat
  mir : MirStore
  blind : List Blind
  obs : SliceObs
  deriving DecidableEq, Repr

/-! ### Ports -/

/-- HP_HID_STATEn.STATE (R176). -/
inductive HidSt where
  | undeclared
  | unbound
  | bound
  | absent
  | expiring
  | fenced
  deriving DecidableEq, Repr

/-- A host identity: table entry (R67) and live state (R176). -/
structure Hid where
  valid : Bool
  portMask : BitVec 8
  kind : BitVec 2
  value : BitVec 12
  window : BitVec 8
  st : HidSt
  windowLeft : BitVec 15
  deriving DecidableEq, Repr

/-- A host port (05). -/
structure HostPort where
  linkUp : Bool
  inReset : Bool
  linkDowns : BitVec 16
  egress : List S2M
  /-- Accepted messages kept for a stalled home or a class-K credit (R414, R92), with their home number. -/
  waiting : List Req
  errs : List (BitVec 8)
  logged : List Nat
  biUnmatched : W32
  deriving DecidableEq, Repr

/-- Where a request stands at its agent port (R266, R231). -/
inductive ReqStage where
  | buffered
  | sent
  | received
  deriving DecidableEq, Repr

/-- A request an agent port holds, from its taking until its delivery (R226, R235, R266). -/
structure PortReq where
  req : Req
  agent : Nat
  thread : Nat
  inBuf : Bool
  device : Bool
  stage : ReqStage
  /-- Slices whose answer a Fence awaits (R232). -/
  fenceWait : List Nat
  rsp : Option ARsp
  fwdData : Option (Line × Bool × Bool)
  /-- The response is discarded instead of delivered (R291). -/
  discard : Bool
  /-- R271: a snoop has met this WbDirty in the buffer and it leaves ahead of the read path. -/
  urged : Bool
  deriving DecidableEq, Repr

/-- A snoop flit on the Rook ring or in a snoop queue (R249). `counts` are the payload's count values (R237). -/
structure SnpFlit where
  phys : Nat
  trk : Nat
  kind : ASnp
  line : LineAddr
  vic : Bool
  dmask : BitVec 8
  reqag : Bool
  reqPort : Nat
  reqAgent : Nat
  fwdOk : Bool
  fwdPort : Nat
  counts : List (BitVec 8)
  retry : Bool
  circ : Nat
  esc : Bool
  deriving DecidableEq, Repr

/-- An agent's answer to a presented snoop (R242). -/
structure SnpAns where
  agent : Nat
  shared : Bool
  data : Option Line
  dirty : Bool
  poison : Bool
  deriving DecidableEq, Repr

/-- A snoop-queue entry (R240, R242): the snoop, whether it has been processed, the agents still to answer, the
answers in, the port's own part (R244). -/
structure SnpEnt where
  sq : Nat
  flit : SnpFlit
  taken : Bool
  asked : List Nat
  answers : List SnpAns
  own : Option SnpAns
  deriving DecidableEq, Repr

/-- The answer kinds of an agent port (R241, R250). -/
inductive AnsKind where
  | rspI
  | rspS
  | rspFwd
  | rspWbData
  | rspIW
  deriving DecidableEq, Repr

/-- An answer header a port keeps (R409). -/
structure AnsHdr where
  phys : Nat
  trk : Nat
  line : LineAddr
  kind : AnsKind
  deriving DecidableEq, Repr

/-- An agent port (07, 08). -/
structure AgentPort where
  held : List PortReq
  /-- Reorder entries assigned to each of the four agents (R226). -/
  assigned : List Nat
  creditShort : Bool
  headAge : Nat
  snq : List SnpEnt
  /-- Responses received from each slice, modulo 256 (R237). -/
  recv : List (BitVec 8)
  /-- Reservation registers: thread and granule (R281). -/
  resv : List (ThreadId × LineAddr)
  silent : BitVec 4
  stopped : Bool
  flush : BitVec 4
  kept : List AnsHdr
  errs : List (BitVec 8)
  /-- Forwarded data discarded because no request matched (R257). -/
  fwdDrop : Nat
  lastRsp : Option ARsp
  /-- Responses on their way from slices, oldest first. -/
  inbound : List ARsp
  deriving DecidableEq, Repr

/-- Kinds of memory-port command (R549). -/
inductive MemKind where
  | read
  | write
  | metaWrite
  deriving DecidableEq, Repr

/-- Who waits for a memory-port command. -/
inductive MemOwner where
  | lineRead (phys trk : Nat) (keep : Bool)
  | bucketRead (phys trk : Nat) (use : BktUse)
  | wpq (phys wid : Nat)
  | metaW (phys trk : Nat) (vic : Bool)
  | bucketW (phys trk : Nat) (vic : Bool)
  | sweepRead (phys : Nat)
  /-- The data of the first message queued for a HID (R180). -/
  | resend (phys hid : Nat)
  | director
  deriving DecidableEq, Repr

/-- A memory-port command (R549): near address of its line and the address that its port takes (R75), data of a write, the new
nibble of a meta-only write. -/
structure MemCmd where
  tag : Nat
  kind : MemKind
  ktag : Bool
  na : Nat
  pa : Nat
  line : LineAddr
  nib : Nib
  data : Line
  poison : Bool
  owner : MemOwner
  givenUp : Bool
  deriving DecidableEq, Repr

/-- A memory port: commands outstanding, commands waiting for a TAG, memory-port faults counted (R549, R550, R410). -/
structure MemPort where
  out : List MemCmd
  waiting : List MemCmd
  faults : Nat
  late : Nat
  deriving DecidableEq, Repr

/-! ### Messages between parts -/

/-- A message under way between a slice and the placement director. -/
inductive NMsg where
  | promo (phys : Nat) (page : Page)
  | dack (phys : Nat) (page : Page)
  | dnote (phys : Nat) (page : Page)
  | stamp (phys : Nat) (page : Page)
  | mark (phys : Nat) (page : Page)
  | heat (phys : Nat) (page : Page) (heat : BitVec 8)
  | pmRead (phys : Nat) (page : Page)
  | cleanAck (phys : Nat) (page : Page)
  | doorbell (ring : Nat)
  | migStart (phys : Nat) (page : Page) (kind : MigKind)
  | migDone (phys : Nat) (page : Page)
  | stampAck (phys : Nat) (page : Page)
  | markAck (phys : Nat) (page : Page)
  | clean (phys : Nat) (page : Page)
  | entry (page : Page)
  deriving DecidableEq, Repr

/-- A flit on the Rook ring other than a snoop (R249, R250). `circ` and `esc`: its circulation count and its escalation (R252);
`src`: the port that forwards. -/
inductive RingFlit where
  | answer (h : AnsHdr) (port : Nat) (data : Line) (poison : Bool) (circ : Nat) (esc : Bool)
  | fwdData (src port agent : Nat) (line : LineAddr) (data : Line) (dirty poison : Bool) (circ : Nat) (esc : Bool)
  deriving DecidableEq, Repr

/-! ### Configuration in force (02, 14) -/

/-- An address window (R49). -/
structure Window where
  base : BitVec 21
  size : BitVec 22
  type : BitVec 2
  cls : BitVec 2
  deriving DecidableEq, Repr

/-- A region of the memory-port map in GiB (R72). -/
structure Region where
  base : Nat
  size : Nat
  deriving DecidableEq, Repr

/-- The coherence table a slice evaluates: the reference entries of R203 to R215 (log 8), or the words of a TABLE
section, unlisted words reading 0. -/
inductive TableMem where
  | reference
  | words (cells : List (Nat × BitVec 40)) (pool : List (Nat × W64))
  deriving DecidableEq, Repr

/-- The configuration in force from the Parrel image (R470 to R472, R351). -/
structure Cfg where
  hashKey : BitVec 36
  portCap : Nat
  granule : BitVec 2
  pageMap : Region
  spill : Region
  near : Region
  comp : Region
  windows : List Window
  snpTo : BitVec 10
  excl : BitVec 17
  persistSize : Nat
  pmapPbase : Nat
  rootPaddr : Nat
  growth : Nat
  pool1 : Nat
  pool2 : Nat
  saveRate : Nat
  table : TableMem
  tableId : W64
  kbound : Bool
  deriving DecidableEq, Repr

/-! ### Castling logic (12) -/

/-- A home-table entry (R56, R414, R429). -/
structure Home where
  valid : Bool
  stalled : Bool
  lost : Bool
  phys : Nat
  deriving DecidableEq, Repr

/-- An item of a replay (R415). `slot` of a dirty line: its place in the cache array, or 65,536 more than its number in
the victim buffer. -/
inductive RItem where
  | wpq (wid : Nat) (r : MirLine)
  | dirty (slot : Nat) (r : MirLine)
  | trk (t : Tracker)
  | hold (h : HoldEnt)
  | replayEnd
  deriving DecidableEq, Repr

/-- A takeover or adoption in progress (R415, R426): the failed slice, the slice that replays its range, the buddy
that supplies the items, the items left, and all of them. -/
structure Replay where
  failed : Nat
  target : Nat
  buddy : Nat
  log : Nat
  adoption : Bool
  cause : FailCause
  items : List RItem
  all : List RItem
  deriving DecidableEq, Repr

/-- The castling logic (R412 to R430): home table, channels in use, failed links, channels whose pair has been reported unprotected
(R437), replays, redirections. -/
structure Cast where
  homes : List Home
  channels : List (Option (Nat × Nat))
  linkFailed : List Bool
  reported : List Nat
  replays : List Replay
  redirect : List (Nat × Nat)
  deriving DecidableEq, Repr

/-! ### Event records (12 R435, 13 R459) -/

/-- An event record (R435). -/
structure EvRec where
  code : BitVec 8
  sev : BitVec 2
  src : BitVec 5
  unit : BitVec 9
  move : BitVec 40
  detail : W64
  deriving DecidableEq, Repr

/-! ### Placement director (10) -/

/-- A frame-table or slot-table entry of a used frame or slot (R333). -/
structure FrameEnt where
  page : Page
  heat : BitVec 8
  deriving DecidableEq, Repr

/-- The kinds of move (R338). -/
inductive MoveKind where
  | demandPromotion
  | hintPromotion
  | demotion
  | slotEviction
  deriving DecidableEq, Repr

/-- Where a move stands. `quiesce`: for DACK; `copy`: for the tier engine's copy or
decompression; `compress`, `store`: for the compressor; `flush`: for the answer to a flush (R343); `persist`: for the
copy or decompression to the persistent tier. -/
inductive MoveStage where
  | quiesce
  | copy
  | compress
  | store
  | flush
  | persist
  deriving DecidableEq, Repr

/-- A move in progress (R338): the slices whose trackers it answers (R340), the new frame or slot, the attempt's code
tables, and whether a DNOTE or DACK has come. -/
structure Move where
  page : Page
  kind : MoveKind
  stage : MoveStage
  askers : List Nat
  frame : Nat
  slot : Option (BitVec 2 × Nat)
  ctag : Nat
  tables : BitVec 2
  dacked : Bool
  toPersist : Bool
  /-- The source entry is corrupt, or its dirty slot failed to decompress: the frame is written poisoned. -/
  poisonAll : Bool
  len : Nat
  /-- Started by a hint or under R341: the heat of the page does not stop it. -/
  forced : Bool
  /-- A DNOTE has come after DACK (R343), or the drain has abandoned the move (R381): it ends without its update. -/
  aborted : Bool
  deriving DecidableEq, Repr

/-- A page being cleaned (R354): its frame, the step reached (2 command sent, 4 copy), whether a mark has come. -/
structure Cleaning where
  page : Page
  frame : Nat
  copying : Bool
  ctag : Nat
  remarked : Bool
  deriving DecidableEq, Repr

/-- Commands of the tier engines (R556). `marks` and `glow`: what the te_data transfer after the command carries. -/
inductive TeOp where
  | copyToFrame (p : Nat) (frame : Nat) (marks : BitVec 64) (glow : BitVec 2) (poisonAll : Bool)
  | copyToPersist (frame : Nat) (p : Nat)
  | offerVictim (line : LineAddr) (data : Line)
  | compress (frame : Nat) (tables : BitVec 2) (growth : Nat)
  | flush (ctag : Nat)
  | decompToFrame (slot : Nat) (cslot : BitVec 2) (frame : Nat) (marks : BitVec 64) (glow : BitVec 2) (poisonAll : Bool)
  | decompToPersist (slot : Nat) (cslot : BitVec 2) (p : Nat)
  /-- `poison`: a page of a lost range, saved with every line poisoned (R429). -/
  | savePage (src : Nat) (cslot : BitVec 2) (p : Nat) (poison : Bool)
  | storeSlot (ctag : Nat) (slot : Nat) (cslot : BitVec 2)
  | discard (ctag : Nat)
  | persistRead (addr : Nat) (lines : Nat)
  | persistWrite (addr : Nat) (lines : List Line)
  deriving DecidableEq, Repr

/-- What an outstanding tier-engine command is for. -/
inductive PerUse where
  /-- A victim offered to the migration buffer, or a command of a move or a cleaning, known by its CTAG. -/
  | none
  /-- The header of a root copy; true: the second copy (R393, R396). -/
  | rootHdr (second : Bool)
  /-- The pin list of a root copy. -/
  | rootPins (second : Bool)
  /-- The manifest at restart, from an entry on (R398). -/
  | manifestRead (first : Nat)
  /-- Part of a root copy or of the save manifest being written (R384, R394). -/
  | rootWrite
  /-- A manifest page being saved, by its index (R384). -/
  | save (idx : Nat)
  /-- A page promoted poisoned at restart (R398), or promoted for the class-K pins (R106). -/
  | restart (page : Page) (frame : Nat) (poisoned : Bool)
  /-- The CLASSPIN word of a page in the persistent page map (R336). -/
  | pinWrite (page : Page)
  deriving DecidableEq, Repr

/-- A tier-engine command outstanding: its CTAG and use. -/
structure TeCmd where
  ctag : Nat
  op : TeOp
  use : PerUse
  deriving DecidableEq, Repr

/-- What comes next for a hint (R361 to R365). `read`, `result` and `slotWrite`: the director's access to the slot or the
result is to be sent, with `Wait` it is at the home slice; `page`: the next page; `moving`: its move; `pinning`: the steps of
a pin after promotion; `pinWrite`: the write of its CLASSPIN; `pinned`: the pin is complete; `prefetch`: the fills of its
lines. -/
inductive HintStage where
  | read
  | readWait
  | page
  | moving
  | pinning
  | pinWrite
  | pinned
  | prefetch
  | result
  | resultWait
  | slotWrite
  | slotWait
  deriving DecidableEq, Repr

/-- A ring being acted on (R360 to R365): its slot, the slot's line, the index of the page, the status so far, the result's
ENTRY or, for PREFETCH, the lines of the page begun. -/
structure HintCtx where
  ring : Nat
  slot : Nat
  line : Line
  idx : Nat
  stage : HintStage
  status : BitVec 8
  entry : W64
  deriving DecidableEq, Repr

/-- The page list (15 R500). -/
structure PList where
  busy : Bool
  done : Bool
  status : BitVec 8
  pages : BitVec 24
  addr : BitVec 64
  count : Nat
  op : BitVec 3
  arg : BitVec 2
  /-- The first entry not yet asked for; `pages` counts the entries acted on. -/
  next : Nat
  /-- Reads outstanding: tag, index of the first entry, whether the list still wants it. -/
  reads : List (Nat × Nat × Bool)
  /-- Entries read and not yet acted on, by index. -/
  entries : List (Nat × W64)
  /-- The page being acted on, its stage and, for PREFETCH, the lines begun. -/
  cur : Option Page
  stage : HintStage
  lines : Nat
  /-- The status with which the list stops after the current page (R500). -/
  stopping : Option (BitVec 8)
  deriving DecidableEq, Repr

/-- The placement work area and policy state (10). -/
structure Director where
  /-- Page-map entries of loaded chunks that differ from what a rebuild writes (R337; log 12). -/
  pages : List (Nat × PEnt)
  /-- CLASSPIN of the persistent page map, where not 0 (R336). -/
  classPins : List (Nat × BitVec 3)
  /-- Chunks loaded, with the game number their entries were written with (R337). -/
  loaded : List (Nat × Game)
  /-- Pages whose entry was corrupt and that have not been promoted since (R332). -/
  corrupt : List Page
  frames : List (Nat × FrameEnt)
  slots : List (Nat × FrameEnt)
  dirtyFrames : List Nat
  dirtySlots : List Nat
  d : Nat
  moves : List Move
  /-- Promotions asked for that cannot start yet: slice and page, in order (R338). -/
  waiting : List (Nat × Page)
  cleaning : List Cleaning
  cleaningOn : Bool
  marks : List (Nat × Page)
  demClock : Nat
  demOn : Bool
  slotClocks : List Nat
  slotOn : List Bool
  cleanPos : Nat
  compSizes : List (Page × Nat)
  /-- Pages whose entry, as the work area of near memory holds it, is read with an uncorrectable error (R332; log 9). -/
  entErrs : List Page
  deriving DecidableEq, Repr

/-- Sweeper, rings, pins and status of the director (04 R149, 10 R355 to R366, 16 R527). -/
structure DirCtl where
  sweepPage : Nat
  sweepGame : Game
  sweepIncs : Nat
  sweepFast : Bool
  heads : List (Nat × BitVec 6)
  rseqs : List (Nat × W32)
  bells : List Nat
  ringNext : Nat
  ctxs : List HintCtx
  list : PList
  te : List TeCmd
  budgetInt : Bool
  listInt : Bool
  pinRefuse : Bool
  cfgErr : W32
  /-- The director's own slot and result accesses that the home slice has completed, by tag, with a read's line (R364). -/
  slotDone : List (Nat × Option Line)
  /-- What the period counters have made due and the director has not done yet: the halving of heat (R348), the sweeper's entries of
  the move (R150), the reading of the rings' heads (R363). -/
  decayDue : Bool
  sweepDue : Bool
  pollDue : Bool
  /-- Class-K entries still to be loaded into a slice after a castling, in the order of the pin list: slice, page, whether the
  page-map read is outstanding (R423). -/
  kpLoad : List (Nat × Page × Bool)
  deriving DecidableEq, Repr

/-! ### Root record and save (11) -/

/-- What a root-record copy holds (R393), beside its constant fields. -/
structure RootCopy where
  state : BitVec 8
  game : Game
  seq : W32
  pinCount : Nat
  sweepPos : Page
  sweepGame : Game
  manifest : Nat
  progress : Nat
  pinCrc : W32
  deriving DecidableEq, Repr

/-- Where the restart stands (R396 to R399). `reading`: headers and pin lists; `held`: R397; `manifest`: reading the
manifest's tail; `writing`: the RUNNING copy; `pins`: reconciling; `ready`: the first request may be accepted. -/
inductive RootStage where
  | idle
  | reading
  | held
  | manifest
  | writing
  | pins
  | ready
  deriving DecidableEq, Repr

/-- Where a save stands (R384, R385). -/
inductive SaveStage where
  | idle
  | manifest
  | inProgress
  | pages
  | progress
  | last
  | resume
  deriving DecidableEq, Repr

/-- The root record as the director knows it, the restart and the save (R384, R393 to R399). -/
structure Root where
  stage : RootStage
  /-- Copies found valid so far: which, header, pin list. -/
  found : List (Bool × RootCopy × List Page)
  /-- The header whose pin list is being read, and the lines of it read so far. -/
  hdr : Option RootCopy
  pinLines : List Line
  seq : W32
  nextSecond : Bool
  saveState : BitVec 8
  held : Bool
  unsaved : Bool
  rootBad : Bool
  last : BitVec 2
  poisoned : BitVec 26
  /-- Pages still to be promoted poisoned (R398) and pinned pages still to be reconciled (R106). -/
  poison : List Page
  repin : List Page
  /-- Write commands of the present copy or manifest not yet acknowledged; one of them failed. -/
  writes : Nat
  save : SaveStage
  manifest : List Page
  /-- Next manifest page to command, pages acknowledged, leading pages acknowledged. -/
  sent : Nat
  acked : List Nat
  progress : Nat
  deriving DecidableEq, Repr

/-! ### Endgame unit (11) -/

/-- States of the Endgame unit (R375). -/
inductive PState where
  | off
  | debounce
  | start
  | normal
  | ride
  | drain
  | save
  | saved
  deriving DecidableEq, Repr

/-- One ADC channel: the last values of k, newest first, the filter, and whether it has been sampled (R370). -/
structure EgChan where
  last : List Nat
  y : BitVec 16
  sampled : Bool
  deriving DecidableEq, Repr

/-- Drain causes that have caused or joined the drain or save (R377, R385, R386, R391). -/
structure Causes where
  shutdown : Bool
  hot : Bool
  gpf : Bool
  efuse : Bool
  ride : Bool
  failed : Bool
  deriving DecidableEq, Repr

/-- The Endgame unit. -/
structure Endgame where
  pstate : PState
  inp : EgInputs
  chans : List EgChan
  vrefMiss : Nat
  sensor : Bool
  calLoaded : Bool
  shrunk : Bool
  /-- The feed is good, with the hysteresis of R376. -/
  good : Bool
  pg : Bool
  wake : Bool
  drainReq : Bool
  hot : Bool
  vLow : Bool
  /-- Allowance in force and the run of computations that gave more: their number and least value, in 16 MiB (R388). -/
  allow : Nat
  riseRun : Nat
  riseMin : Nat
  frozen : Bool
  causes : Causes
  ints : BitVec 4
  cfgErr : W32
  qualFails : Nat
  selErrs : Nat
  /-- The channel that the ADC converts next (R370). -/
  adcNext : Nat
  deriving DecidableEq, Repr

/-! ### Power, GPF and warm reset (01, 11, 15) -/

/-- Power states as the block goes through them (R501 to R505). -/
inductive PwrPhase where
  | p0
  | entering
  | p2
  deriving DecidableEq, Repr

/-- Power management (R501, R507), GPF phases (R390, R391) and the warm reset (R45). -/
structure Power where
  dstate : BitVec 2
  phase : PwrPhase
  /-- A D-state presented during an entry, acted on after it (R505). -/
  later : Option (BitVec 2)
  dErr : Nat
  p3 : Bool
  ack : Bool
  gpf1 : Bool
  gpf1Ack : Bool
  gpf2 : Bool
  gpf2Ack : Bool
  /-- A GPF phase request that waits for the end of a P2 entry (R562): 1 or 2. -/
  gpfLater : List Nat
  warm : Bool
  warmAck : Bool
  deriving DecidableEq, Repr

/-! ### Loader (14) -/

/-- LD_STATUS.STATE. -/
inductive LdState where
  | reset
  | sfdp
  | loading
  | rot
  | loaded
  | noImage
  | reloading
  deriving DecidableEq, Repr

/-- A fetch's steps (R485). -/
inductive FetchStep where
  | header
  | eraseFirst
  | eraseRest (left : Nat)
  | page (n : Nat)
  | program (n : Nat)
  | verify
  | programHeader
  | compare
  deriving DecidableEq, Repr

/-- What the loader does with the NOR (R485). -/
inductive NorKind where
  | read
  | erase
  | program
  deriving DecidableEq, Repr

/-- An access of the loader to the NOR: its first address and its bytes (R466, R467). -/
structure NorOp where
  kind : NorKind
  addressing : NorAddr
  addr : Nat
  len : Nat
  deriving DecidableEq, Repr

/-- A fetch in progress: target slot, page 0 as read, master-read tags in use. -/
structure Fetch where
  step : FetchStep
  slotB : Bool
  page0 : List (BitVec 8)
  tags : List Nat
  deriving DecidableEq, Repr

/-- The loader: status, image memory, what is known of both slots, a load in progress, a fetch. -/
structure Loader where
  state : LdState
  slotB : Bool
  fallback : Bool
  digestValid : Bool
  armed : Bool
  busy : Bool
  sfdp : Option Sfdp
  aFailed : Bool
  bFailed : Bool
  seq : W32
  tableLatch : W32
  moveLatch : W32
  digest : List W32
  image : List (BitVec 8)
  /-- Slots still to try, in order (R475): slot B or not, its header's SEQ. -/
  toTry : List (Bool × W32)
  /-- The slot in the image memory has passed checks 1 to 6 and its contents wait for the setup walk (R479). -/
  accepted : Bool
  /-- The first slot tried has failed: a load now is a fallback load. -/
  second : Bool
  /-- Reload: the slots' bytes and the slot in force, with its digest (R483). -/
  reload : Option (SlotBytes × SlotBytes)
  prior : List (BitVec 8)
  /-- Contents of ADDRESS_MAP, CASTLING and power-on-only PLACEMENT in force (R482). -/
  powerOn : List (BitVec 8)
  fetch : Option Fetch
  result : BitVec 4
  pages : BitVec 16
  done : Bool
  /-- Ignored and counted: RETRY, ARM_RELOAD (R481, R486); ROM-window writes (R494). -/
  ignored : Nat
  romWrites : Nat
  deriving DecidableEq, Repr

/-! ### Fabric block (13) -/

/-- A probe's open packet (R457): timestamp of its first record, records so far. -/
structure Packet where
  stamp : BitVec 48
  records : Nat
  deriving DecidableEq, Repr

/-- A trace record on its way to the trace FIFO: link, lane, header, and the FCLK cycle of the flit (R456, R457). -/
structure TraceRec where
  link : Nat
  lane : BitVec 2
  header : BitVec 128
  time : BitVec 48
  deriving DecidableEq, Repr

/-- A probe: counter, open packet, records lost since the previous packet, its record buffer (R456), the registers' commands aside. -/
structure Probe where
  cnt : Ctr48
  packet : Option Packet
  lost : Nat
  buf : List TraceRec
  deriving DecidableEq, Repr

/-- A word of the trace FIFO: the reserved length slot of a probe's open packet, or a written word. -/
inductive TraceWord where
  | slot (probe : Nat)
  | word (w : W32)
  deriving DecidableEq, Repr

/-- A flit that waits at its ring stop for an empty slot (R251). -/
inductive RingWait where
  | snoop (f : SnpFlit)
  | flit (stop : Nat) (f : RingFlit)
  deriving DecidableEq, Repr

/-- A flit held at a router (R448): the router, the number of the link it came in by (R450), its header. -/
structure MeshAt where
  router : Nat
  link : Nat
  hdr : BitVec 128
  deriving DecidableEq, Repr

/-- Units whose control state may hold a stored error beyond correction (R411, log 9). -/
inductive CtlUnit where
  | hostPort (n : Nat)
  | agentPort (n : Nat)
  | director
  | loader
  | castling
  deriving DecidableEq, Repr

/-- The fabric block: probes, trace FIFO, counts; mesh flits being resent and their failures (R406), faulty links; ring
injection claims (R251). -/
structure Fabric where
  probes : List Probe
  trace : List TraceWord
  ovf : Bool
  trcData : W32
  cfgErr : W32
  flitDiscard : W32
  ringEsc : List W32
  /-- Flits refused on a link and not yet accepted, with the number of times; links found faulty (R406, R450). -/
  meshFails : List ((Nat × BitVec 128) × Nat)
  linkFaults : List Nat
  /-- Routers' and memory-port faults counted (R406, R408, R410, R550). -/
  parity : Nat
  claims : List Nat
  /-- Flits that wait to be injected into the ring, and stops that keep an ejection entry for an escalated flit (R251, R252). -/
  inject : List RingWait
  escKeep : List Nat
  /-- Flits at the routers, in order of arrival, and at the endpoints that send them (R448). -/
  mesh : List MeshAt
  meshOut : List (Nat × BitVec 128)
  /-- Outputs and lanes whose last alternate pick took VC0 (R449). -/
  meshAlt : List (Nat × Bool)
  /-- Flits delivered to their endpoints. -/
  meshDone : Nat
  /-- Units with a stored control-state error (R411). -/
  ctlErrs : List CtlUnit
  /-- Slices and agent ports for which a ring-loss notice is under way (R408). -/
  lossDue : List LossTarget
  /-- The probe that the trace FIFO looks at first, and the FCLK cycle up to which it has taken records (R456). -/
  trNext : Nat
  trTime : BitVec 48
  deriving DecidableEq, Repr

/-! ### Pins and global state -/

/-- Inputs that are static or levels: tie-offs, fuses, resets (18), and the last register-port answer. -/
structure Pins where
  dvsecVid : BitVec 16
  dvsecNext : BitVec 12
  regBir : BitVec 3
  atomBir : BitVec 3
  fuseOff : BitVec 17
  trim : List W32
  rotEn : Bool
  mstEn : Bool
  egPor : Bool
  blkPor : Bool
  regRdata : W32
  regUr : Bool
  deriving DecidableEq, Repr

/-- Global control block (16) and start-up. PHASE as R522; `serving`: requests are accepted (R399); `commit`: the values
a strobe has captured (R515); `anyCommit`: GL_STATUS.COMMIT_PENDING. -/
structure Gl where
  game : Game
  gameIgnored : BitVec 16
  move : BitVec 48
  phase : BitVec 3
  setupFail : Bool
  serving : Bool
  blockFailed : Bool
  reserveUsed : Bool
  adopted : Bool
  rangeLost : Bool
  unprotected : Bool
  wayRetired : Bool
  restartLoss : Bool
  fallback : Bool
  linkFault : Bool
  noReserve : Bool
  blind : Bool
  sensor : Bool
  shrunk : Bool
  latchMaint : Bool
  latchErr : Bool
  guardCnt : W32
  guardLast : W32
  urCnt : W32
  commit : List (Nat × W32)
  anyCommit : Bool
  deriving DecidableEq, Repr

/-- The registers' stored words: pending or stored values, and values in force (R512, R514). -/
structure Regs where
  base : List (Nat × W32)
  act : List (Nat × W32)
  deriving DecidableEq, Repr

/-- A request on the event-request port (R438): General Media or Memory Module, severity, detail, address. -/
structure EvReq where
  gm : Bool
  sev : BitVec 2
  detail : W64
  addr : BitVec 48
  deriving DecidableEq, Repr

/-- Event FIFO (R459 to R462) and event-request port (R438): records, records lost since the last 0x3B, LOST, STALE
and whether the stale timer has stopped, the read latch, the request offered, the Memory Module request kept, and the
requests counted instead of kept. -/
structure Events where
  fifo : List EvRec
  lost : BitVec 32
  lostBit : Bool
  stale : Bool
  staleHalt : Bool
  latch : BitVec 128
  offer : Option EvReq
  kept : Option EvReq
  reqLost : Nat
  /-- Codes 0x27 already logged this move, by stop, and poison records of the director this move (R252, R434). -/
  escLogged : List Nat
  poisonDir : Nat
  deriving DecidableEq, Repr

/-- The block. -/
structure State where
  variant : Variant
  pending : List Instr
  free : Nat
  pins : Pins
  gl : Gl
  regs : Regs
  cfg : Cfg
  hostPorts : List HostPort
  hids : List Hid
  agentPorts : List AgentPort
  slices : List Slice
  memPorts : List MemPort
  spill : List (Nat × Line)
  cast : Cast
  dir : Director
  dctl : DirCtl
  root : Root
  eg : Endgame
  pwr : Power
  ld : Loader
  fb : Fabric
  net : List NMsg
  ring : List RingFlit
  ringSnoops : List SnpFlit
  ev : Events
  deriving DecidableEq, Repr

/-! ### Stops -/

/-- Faults of the model: none. The manual gives every command of the table an effect, and describes each of the block's
own faults as a state it goes on from (12). -/
inductive Fault where
  deriving DecidableEq, Repr

/-- Refusals of the model. -/
inductive Refusal where
  /-- Raised only by an arm of exec whose command has no meaning yet; safe: nothing is claimed of such a command. -/
  | notModelled (mnemonic : String)
  deriving DecidableEq, Repr

/-! ### Reset (log 4, log 5) -/

/-- A counter at its reset value. -/
def Ctr48.zero : Ctr48 := ⟨0, false, 0⟩

/-- A physical slice before its self-test. -/
def Slice.blank (ports agents : Nat) : Slice where
  ident := ⟨.notWalked, .none, 0, 0, none, false, false, false, 0, false, false, false, none, 0, 0, 0, false, false, false, false, false, false⟩
  arb := ⟨0, 0, 0, 0, 0, false, false, 0, none, 0, none, none, List.replicate ports ⟨[], 0, false, none, false⟩, 0, 0, 0⟩
  trk := []
  hold := []
  holdSeq := 0
  dir := ⟨[], [], none, 0, 0, 0, [], [], [], []⟩
  msc := ⟨[], [], [], [], 0, .enabled, false, false, 0, 0, false, 0, [], [], ⟨false, false, 0, 0, 0, none, 0, 0⟩, [], 0, 0⟩
  pm := []
  pmPlru := []
  pmOut := []
  stamps := []
  marks := []
  quiesce := []
  rspCnt := List.replicate agents 0
  retq := []
  sent := 0
  rereads := []
  mir := ⟨[], [], [], [], [], [], 0⟩
  blind := []
  obs := ⟨0, 0, 0, List.replicate 8 0, List.replicate 2 0, 0, List.replicate 8 Ctr48.zero, Ctr48.zero, ⟨false, false, 0, 0, 0, 0, 0⟩, 0, 0, 0, 0, []⟩

/-- A host port with its link down. -/
def HostPort.blank : HostPort := ⟨false, false, 0, [], [], List.replicate 4 0, [], 0⟩
/-- An empty host-ID table entry (R531). -/
def Hid.blank : Hid := ⟨false, 0, 0, 0, 0, .undeclared, 0⟩
/-- An empty agent port; `slices` counts of responses received, one a physical slice. -/
def AgentPort.blank (slices : Nat) : AgentPort :=
  ⟨[], List.replicate 4 0, false, 0, [], List.replicate slices 0, [], 0, false, 0, [], List.replicate 4 0, 0, none, []⟩
/-- The configuration before an image is loaded (log 5, log 8). -/
def Cfg.blank : Cfg :=
  ⟨0, 0, 0, ⟨0, 0⟩, ⟨0, 0⟩, ⟨0, 0⟩, ⟨0, 0⟩, [], 0x014, 0, 0, 0, 0, 64, 40, 30, 43000, .words [] [], 0, false⟩
/-- The castling logic before the setup walk. -/
def Cast.blank : Cast := ⟨List.replicate 16 ⟨false, false, false, 0⟩, List.replicate 8 none, List.replicate 8 false, [], [], []⟩
/-- The director's tables before a restart. -/
def Director.blank : Director :=
  ⟨[], [], [], [], [], [], [], [], 0, [], [], [], false, [], 0, false, [0, 0, 0], [false, false, false], 0, [], []⟩
/-- The director's engines at rest. -/
def DirCtl.blank : DirCtl :=
  ⟨0, 0, 0, false, [], [], [], 0, [], ⟨false, false, 0, 0, 0, 0, 0, 0, 0, [], [], none, .page, 0, none⟩, [], false, false, false, 0, [],
    false, false, false, []⟩
/-- No root record known. -/
def Root.blank : Root :=
  ⟨.idle, [], none, [], 0, false, 0, false, false, false, 0, 0, [], [], 0, .idle, [], 0, [], 0⟩
/-- No drain cause. -/
def Causes.none : Causes := ⟨false, false, false, false, false, false⟩
/-- The Endgame unit after an Endgame reset: OFF, no feed. -/
def Endgame.blank : Endgame :=
  ⟨.off, ⟨0, false, false, false, false⟩, List.replicate 8 ⟨[], 0, false⟩, 0, false, false, false, false, false, false,
   false, false, false, 0, 0, 0, false, Causes.none, 0, 0, 0, 0, 0⟩
/-- Power management at rest in D0. -/
def Power.blank : Power := ⟨0, .p0, none, 0, false, false, false, false, false, false, [], false, false⟩
/-- The loader in reset. -/
def Loader.blank : Loader :=
  ⟨.reset, false, false, false, false, false, none, false, false, 0, 0, 0, List.replicate 12 0, [], [], false, false,
   none, [], [], none, 0, 0, false, 0, 0⟩
/-- The fabric block in reset. -/
def Fabric.blank : Fabric :=
  ⟨List.replicate 12 ⟨Ctr48.zero, none, 0, []⟩, [], false, 0, 0, 0, List.replicate 8 0, [], [], 0, [], [], [], [], [], [], 0, [], [],
    0, 0⟩
/-- Tie-offs and fuses (log 10), both power-on resets asserted (log 4). -/
def Pins.blank : Pins :=
  ⟨0, 0, 0, 0b111, 0, List.replicate 8 0x00080000 ++ [0], false, true, false, false, 0, false⟩
/-- The global control block in reset. -/
def Gl.blank : Gl :=
  ⟨0, 0, 0, 0, false, false, false, false, false, false, false, false, false, false, false, false, false, false, false,
   false, false, 0, 0, 0, [], false⟩

/-- The machine as the manual leaves it while eg_por_n and blk_por_n are asserted (R44, R46, R510; log 4). -/
def State.reset : State where
  variant := .yzh16
  pending := []
  free := 0
  pins := Pins.blank
  gl := Gl.blank
  regs := ⟨[], []⟩
  cfg := Cfg.blank
  hostPorts := List.replicate 8 HostPort.blank
  hids := List.replicate 64 Hid.blank
  agentPorts := List.replicate 8 (AgentPort.blank 17)
  slices := List.replicate 17 (Slice.blank 16 8)
  memPorts := List.replicate 16 ⟨[], [], 0, 0⟩
  spill := []
  cast := Cast.blank
  dir := Director.blank
  dctl := DirCtl.blank
  root := Root.blank
  eg := Endgame.blank
  pwr := Power.blank
  ld := Loader.blank
  fb := Fabric.blank
  net := []
  ring := []
  ringSnoops := []
  ev := ⟨[], 0, false, false, false, 0, none, none, 0, [], 0⟩

end Sys2Proof.Machine
end

