-- ==== Sys2Proof/Machine/Ops.lean ====
section
/-! DEFINITION. Named operations over the state that every family shares: counts of a variant, keyed lists, slices,
trackers, ports, memory-port commands, event records, register words in force. -/

namespace Sys2Proof.Machine

/-! ### Counts of a variant (R4) -/

/-- Base-2 logarithm of the active-slice count (R54). -/
def Variant.bits : Variant → Nat
  | .yzh04 => 2
  | .yzh08 => 3
  | .yzh16 => 4

/-- Active slices N. -/
def Variant.active (v : Variant) : Nat := 2 ^ v.bits

/-- Physical slices: the active ones and the reserve. -/
def Variant.phys (v : Variant) : Nat := v.active + 1

/-- Host ports. -/
def Variant.hosts : Variant → Nat
  | .yzh04 => 2
  | .yzh08 => 4
  | .yzh16 => 8

/-- Agent ports. -/
def Variant.agents : Variant → Nat
  | .yzh04 => 4
  | .yzh08 => 4
  | .yzh16 => 8

/-- Memory ports: as many as active slices. -/
def Variant.mems (v : Variant) : Nat := v.active

/-! ### Keyed lists, keys ascending -/

/-- The value at a key. -/
def kget {α : Type} (k : Nat) : List (Nat × α) → Option α
  | [] => none
  | (a, x) :: r => if a = k then some x else kget k r

/-- Set the value at a key, keeping the keys ascending. -/
def kset {α : Type} (k : Nat) (v : α) : List (Nat × α) → List (Nat × α)
  | [] => [(k, v)]
  | (a, x) :: r => if a = k then (k, v) :: r else if k < a then (k, v) :: (a, x) :: r else (a, x) :: kset k v r

/-- Remove a key. -/
def kdel {α : Type} (k : Nat) : List (Nat × α) → List (Nat × α)
  | [] => []
  | (a, x) :: r => if a = k then r else (a, x) :: kdel k r

/-- Keys strictly rise: the one form of a keyed list. -/
def ksorted {α : Type} : List (Nat × α) → Bool
  | [] => true
  | (a, _) :: r => (match r with | [] => true | (b, _) :: _ => a < b) && ksorted r

/-- The lowest number not in a list, below a limit (log 6). -/
def lowestFree (used : List Nat) (limit : Nat) : Option Nat :=
  (List.range limit).find? fun n => !used.contains n

/-- Remove the first element that satisfies a test. -/
def eraseFirst {α : Type} (p : α → Bool) : List α → List α
  | [] => []
  | x :: r => if p x then r else x :: eraseFirst p r

/-- Saturating increment of a count held in bits. -/
def satInc {w : Nat} (b : BitVec w) : BitVec w := if b = BitVec.allOnes w then b else b + 1

/-- Saturating increment of a number with a greatest value. -/
def satIncN (m n : Nat) : Nat := if n < m then n + 1 else n

/-- One bit of a word as a truth value; out of range reads 0. -/
def bitAt {w : Nat} (b : BitVec w) (i : Nat) : Bool := b.getLsbD i

/-- Set or clear one bit. -/
def setBit {w : Nat} (b : BitVec w) (i : Nat) (v : Bool) : BitVec w :=
  let m : BitVec w := 1#w <<< i
  if v then b ||| m else b &&& ~~~m

/-- A truth value as one bit. -/
def b1 (b : Bool) : BitVec 1 := if b then 1 else 0

/-- Word field [hi:lo] as a number. -/
def fieldN {w : Nat} (b : BitVec w) (lo len : Nat) : Nat := (b.extractLsb' lo len).toNat

/-! ### Slices -/

/-- The physical slice, if the variant has it. -/
def State.slice (s : State) (p : Nat) : Option Slice := s.slices[p]?

/-- Change one physical slice. -/
def State.modSlice (s : State) (p : Nat) (f : Slice → Slice) : State :=
  { s with slices := s.slices.modify p f }

/-- A tracker of a slice, by number. -/
def Slice.tracker (sl : Slice) (n : Nat) : Option Tracker := sl.trk.find? fun t => t.num == n

/-- Change a tracker. -/
def Slice.modTrk (sl : Slice) (n : Nat) (f : Tracker → Tracker) : Slice :=
  { sl with trk := sl.trk.map fun t => if t.num == n then f t else t }

/-- Change a tracker of a physical slice. -/
def State.modTrk (s : State) (p n : Nat) (f : Tracker → Tracker) : State :=
  s.modSlice p fun sl => sl.modTrk n f

/-- A tracker of a physical slice. -/
def State.tracker (s : State) (p n : Nat) : Option Tracker := (s.slice p).bind fun sl => sl.tracker n

/-- A maintenance tracker (R27): of the maintenance pool, or a page move's in a shared tracker. -/
def Tracker.isMaint (t : Tracker) : Bool := t.pool == .maint || t.req.kind == .migStart

/-- A line is that of the tracker's victim, not its own; a tracker of the way-disable walk has no line of its own (R540). -/
def Tracker.isVic (t : Tracker) (l : LineAddr) : Bool :=
  match t.victim with | some v => v.line == l && (t.req.line != l || t.req.src == .wayWalk) | none => false

/-- The slice serves a logical home number (R536). -/
def Role.serves : Role → Bool
  | .active => true
  | .takeover => true
  | .adopting => true
  | .none => false
  | .reserve => false

/-- The slice takes inputs: neither isolated nor stopped by a failure of its own, not frozen, awake (R412, R383). -/
def Slice.live (sl : Slice) : Bool :=
  !sl.ident.isolated && sl.ident.failed.isNone && !sl.ident.asleep && !sl.ident.frozen

/-- The slice stops with an uncorrectable error in control state, a mismatch or another cause (R403, R412). -/
def State.failSlice (s : State) (p : Nat) (c : FailCause) : State :=
  s.modSlice p fun sl =>
    { sl with ident := { sl.ident with failed := match sl.ident.failed with | some x => some x | none => some c } }

/-! ### Ports -/

def State.hostPort (s : State) (p : Nat) : Option HostPort := s.hostPorts[p]?
def State.modHostPort (s : State) (p : Nat) (f : HostPort → HostPort) : State :=
  { s with hostPorts := s.hostPorts.modify p f }
def State.hid (s : State) (h : Nat) : Option Hid := s.hids[h]?
def State.modHid (s : State) (h : Nat) (f : Hid → Hid) : State := { s with hids := s.hids.modify h f }
def State.agentPort (s : State) (p : Nat) : Option AgentPort := s.agentPorts[p]?
def State.modAgentPort (s : State) (p : Nat) (f : AgentPort → AgentPort) : State :=
  { s with agentPorts := s.agentPorts.modify p f }
def State.memPort (s : State) (p : Nat) : Option MemPort := s.memPorts[p]?
def State.modMemPort (s : State) (p : Nat) (f : MemPort → MemPort) : State :=
  { s with memPorts := s.memPorts.modify p f }

/-- A HID is valid in the host-ID table (R67). -/
def State.hidValid (s : State) (h : Nat) : Bool := match s.hid h with | some x => x.valid | none => false

/-- The snoop port of a HID: the lowest-numbered port of PORT_MASK whose link is up (R71). -/
def State.snoopPort (s : State) (h : Nat) : Option Nat :=
  match s.hid h with
  | some x => (List.range s.hostPorts.length).find? fun p =>
      bitAt x.portMask p && (match s.hostPort p with | some hp => hp.linkUp && !hp.inReset | none => false)
  | none => none

/-! ### Messages between parts -/

/-- Take a message out of the ones under way. -/
def State.takeMsg (s : State) (m : NMsg) : State := { s with net := eraseFirst (fun x => x == m) s.net }

/-! ### Event records (R435, R459) -/

/-- Capacity of the event FIFO (R459). -/
def evDepth : Nat := 512

/-- The kind of CXL event record a code requests (R437): 0 none, 1 General Media, 2 Memory Module. -/
def evRequest (code : Nat) : Nat :=
  if code ∈ [0x10, 0x12, 0x13, 0x14] then 1
  else if code ∈ [0x01, 0x02, 0x03, 0x04, 0x06, 0x08, 0x09, 0x15, 0x17, 0x18, 0x31, 0x34, 0x35, 0x36, 0x37, 0x38] then 2
  else 0

/-- Offer, keep or count an event request (R438). -/
def Events.request (e : Events) (r : EvReq) : Events :=
  match e.offer with
  | none => { e with offer := some r }
  | some _ =>
    if r.gm then { e with reqLost := e.reqLost + 1 }
    else match e.kept with
      | none => { e with kept := some r }
      | some _ => { e with kept := some r, reqLost := e.reqLost + 1 }

/-- Put a record into the event FIFO, or lose and count it (R459, R460). -/
def Events.push (e : Events) (r : EvRec) : Events :=
  if e.fifo.length < evDepth then { e with fifo := e.fifo ++ [r] }
  else { e with lost := satInc e.lost, lostBit := true }

/-- Log one event record, and make the CXL request its code names (R435, R437, R438). -/
def State.logEv (s : State) (code sev src unit : Nat) (detail : W64) : State :=
  let r : EvRec := EvRec.mk (BitVec.ofNat 8 code) (BitVec.ofNat 2 sev) (BitVec.ofNat 5 src)
    (BitVec.ofNat 9 unit) (s.gl.move.extractLsb' 0 40) detail
  let e := s.ev.push r
  let k := evRequest code
  { s with ev := if k = 0 then e
      else e.request (EvReq.mk (k == 1) r.sev detail <|
        if k = 1 then (if code = 0x10 then detail.extractLsb' 0 48 &&& ~~~(63 : BitVec 48)
          else (detail.extractLsb' 0 36).setWidth 48 <<< 12) else 0) }

/-- The DETAIL of a record that carries a line's address and a subcode (R435). -/
def addrDetail (line : LineAddr) (sub : Nat) : W64 := (line.setWidth 64 <<< 6) ||| BitVec.ofNat 64 (sub % 64)

/-- Event sources (R436). -/
def srcHost : Nat := 0x11
def srcAgent : Nat := 0x12
def srcDirector : Nat := 0x13
def srcEndgame : Nat := 0x14
def srcLoader : Nat := 0x15
def srcMesh : Nat := 0x16
def srcRing : Nat := 0x17
def srcCastle : Nat := 0x18

/-- A line newly poisoned by a home slice: at most 64 records a move, the rest counted (R434); `row` is the row of
R431. -/
def State.logPoison (s : State) (p : Nat) (line : LineAddr) (row : Nat) : State :=
  match s.slice p with
  | none => s
  | some sl =>
    let s1 := s.modSlice p fun x => { x with obs := { x.obs with poisonLogged := x.obs.poisonLogged + 1 } }
    if sl.obs.poisonLogged < 64 then s1.logEv 0x10 1 p 0 (addrDetail line row) else s1

/-- A line the director writes or saves poisoned (R434). -/
def State.logPoisonDir (s : State) (line : LineAddr) (row : Nat) : State :=
  let s1 := { s with ev := { s.ev with poisonDir := s.ev.poisonDir + 1 } }
  if s.ev.poisonDir < 64 then s1.logEv 0x10 1 srcDirector 0 (addrDetail line row) else s1

/-! ### Health (R439, R440) -/

/-- GL_HEALTH[28:17], in the order of the register's fields. -/
def Gl.reasons (g : Gl) : BitVec 12 :=
  b1 g.reserveUsed ++ b1 g.adopted ++ b1 g.rangeLost ++ b1 g.blind ++ b1 g.noReserve ++ b1 g.unprotected ++
  b1 g.wayRetired ++ b1 g.sensor ++ b1 g.shrunk ++ b1 g.restartLoss ++ b1 g.fallback ++ b1 g.linkFault

/-- GL_HEALTH.STATUS (R439). -/
def Gl.health (g : Gl) : Nat :=
  if g.blockFailed then 3
  else if g.rangeLost then 2
  else if g.reasons != 0 then 1
  else 0

/-- GL_HEALTH (12). -/
def Gl.healthWord (g : Gl) : W32 := BitVec.ofNat 3 g.health ++ g.reasons ++ (0 : BitVec 17)

/-- GL_INT_LATCH: MAINT is set when STATUS changes to maintenance needed, ERR when to range lost or failed (R522). -/
def Gl.latch (was : Nat) (g : Gl) : Gl :=
  if g.health = was then g
  else if g.health = 1 then { g with latchMaint := true }
  else if g.health = 2 || g.health = 3 then { g with latchErr := true }
  else g

/-- Change health state; when STATUS changes and no record of its own carries the change, log record 0x09 (R440). -/
def State.setHealth (s : State) (f : Gl → Gl) : State :=
  let was := s.gl.health
  let s1 := { s with gl := Gl.latch was (f s.gl) }
  let now := s1.gl.health
  if now = was then s1
  else s1.logEv 0x09 (match now with | 0 => 0 | 1 => 1 | 2 => 2 | _ => 3) srcCastle 0
    (BitVec.ofNat 64 now ||| (BitVec.ofNat 64 was <<< 3) ||| (s1.gl.reasons.setWidth 64 <<< 6))

/-- Change health state for a cause whose own record (0x01 to 0x04, 0x08) carries the new STATUS in [63:61] (R440). -/
def State.setHealthWith (s : State) (f : Gl → Gl) (code sev unit : Nat) (detail : W64) : State :=
  let s1 := { s with gl := Gl.latch s.gl.health (f s.gl) }
  s1.logEv code sev srcCastle unit (detail ||| (BitVec.ofNat 64 s1.gl.health <<< 61))

end Sys2Proof.Machine
end

