-- ==== Sys2Proof/Machine/Address.lean ====
section
/-! DEFINITION. Addresses: windows, the homing hash, the memory-port map, spill buckets, persistent page numbers. -/

namespace Sys2Proof.Machine

/-- The page of a line. -/
def pageOf (l : LineAddr) : Page := l.extractLsb' 6 36
/-- The line number within its page: A[11:6]. -/
def lineInPage (l : LineAddr) : Nat := fieldN l 0 6
/-- Line n of a page. -/
def pageLine (p : Page) (n : Nat) : LineAddr := p ++ BitVec.ofNat 6 n
/-- The line of an address. -/
def lineOf (a : Addr) : LineAddr := a.extractLsb' 6 42
/-- The offset of an address within its line. -/
def offOf (a : Addr) : BitVec 6 := a.extractLsb' 0 6

/-- The fold F of R54 over the low `len` bits of a number into n bits: output bit i is the XOR of the argument bits j
with j mod n = i. -/
def fold (n len : Nat) (q : Nat) : Nat :=
  (List.range len).foldl (fun h j => h ^^^ ((if q.testBit j then 1 else 0) <<< (j % n))) 0

/-- The logical home number of a page (R54). -/
def logicalHome (v : Variant) (key : BitVec 36) (p : Page) : Nat := fold v.bits 36 (p ^^^ key).toNat

/-- The logical home of a page under the key in force. -/
def State.homeOf (s : State) (p : Page) : Nat := logicalHome s.variant s.cfg.hashKey p

/-- The slice that serves a page's logical home (R56). -/
def State.homeSlice (s : State) (p : Page) : Option Nat :=
  match s.cast.homes[s.homeOf p]? with
  | some h => if h.valid && !h.lost then some h.phys else none
  | none => none

/-- An address window in use (R50). -/
def Window.used (w : Window) : Bool := w.type != 0
/-- First page of a window. -/
def Window.firstPage (w : Window) : Nat := 32768 * w.base.toNat
/-- Pages of a window. -/
def Window.pages (w : Window) : Nat := 32768 * w.size.toNat
/-- The window holds the page. -/
def Window.has (w : Window) (p : Page) : Bool :=
  w.used && w.firstPage ≤ p.toNat && p.toNat < w.firstPage + w.pages

/-- The window that holds a page (R51, R52). -/
def State.windowOf (s : State) (p : Page) : Option Window := s.cfg.windows.find? fun w => w.has p

/-- The page lies in an HDM-H window (R50). -/
def State.isHdmH (s : State) (p : Page) : Bool :=
  match s.windowOf p with | some w => w.type == 0b10 | none => false

/-- The hint window (R51). -/
def State.hintWindow (s : State) : Option Window := s.cfg.windows.find? fun w => w.type == 0b11

/-- The page lies in the hint window. -/
def State.inHint (s : State) (p : Page) : Bool :=
  match s.hintWindow with | some w => w.has p | none => false

/-- Byte offset of a line from the base of the hint window (R359), if it lies there. -/
def State.hintOffset (s : State) (l : LineAddr) : Option Nat :=
  match s.hintWindow with
  | some w => if w.has (pageOf l) then some (64 * l.toNat - 4096 * w.firstPage) else none
  | none => none

/-- The line is a result slot (R359). -/
def State.isResultSlot (s : State) (l : LineAddr) : Bool :=
  match s.hintOffset l with | some o => 0x4000000 ≤ o | none => false

/-- The ring a line is a slot of (R359). -/
def State.ringOf (s : State) (l : LineAddr) : Option Nat :=
  match s.hintOffset l with | some o => if o < 0x4000000 then some (o / 0x1000) else none | none => none

/-- A class from its two bits (R82). -/
def Cls.ofBits (b : BitVec 2) : Cls := if b = 0 then .k else if b = 1 then .q else if b = 2 then .n else .p
/-- The two bits of a class (R82). -/
def Cls.toNat : Cls → Nat
  | .k => 0
  | .q => 1
  | .n => 2
  | .p => 3

/-- The page number at the end of the highest window in use (R53). -/
def State.pagesEnd (s : State) : Nat :=
  s.cfg.windows.foldl (fun m w => if w.used then max m (w.firstPage + w.pages) else m) 0

/-- The persistent page number of a page (R328). -/
def persistNo : List Window → Page → Nat
  | [], p => p.toNat
  | w :: r, p =>
    if w.has p then p.toNat - w.firstPage
    else if w.used then w.pages + persistNo r p else persistNo r p

def State.persistNo (s : State) (p : Page) : Nat := Machine.persistNo s.cfg.windows p

/-- Base-2 logarithm of the interleave granule (R73). -/
def granuleBits (g : BitVec 2) : Nat := if g = 0 then 8 else if g = 1 then 10 else 12

/-- The memory port of a near address (R75). -/
def State.memPortOf (s : State) (na : Nat) : Nat :=
  let g := granuleBits s.cfg.granule
  fold s.variant.bits (48 - g) (na / 2 ^ g)

/-- The port address of a near address (R75). -/
def State.portAddr (s : State) (na : Nat) : Nat :=
  let g := granuleBits s.cfg.granule
  na / 2 ^ (g + s.variant.bits) * 2 ^ g + na % 2 ^ g

/-- The near address of a line in a plain frame (R330). -/
def nearOf (frame : BitVec 36) (l : LineAddr) : Nat := 4096 * frame.toNat + 64 * lineInPage l

/-- The near address of a line under a page-map entry. -/
def PEnt.na (e : PEnt) (l : LineAddr) : Nat := nearOf e.frame l

/-- Bytes in a GiB. -/
def gib : Nat := 1073741824

/-- There is a spill directory (R136, C18). -/
def State.spillOn (s : State) : Bool := s.cfg.spill.size != 0

/-- The bucket number of a line in the whole region (R137). -/
def State.bucketNo (s : State) (l : LineAddr) : Nat :=
  let w := 24 + Nat.log2 s.cfg.spill.size - s.variant.bits
  let i := (l.toNat ^^^ (l.toNat / 2 ^ w)) % 2 ^ w
  s.homeOf (pageOf l) * 2 ^ w + i

/-- The near address of a bucket (R137). -/
def State.bucketAddr (s : State) (b : Nat) : Nat := gib * s.cfg.spill.base + 64 * b

/-- Where a plain frame lies within the NEAR region: its frame number (R333), if it is there. -/
def State.frameIdx (s : State) (na : Nat) : Option Nat :=
  let b := gib * s.cfg.near.base
  if b ≤ na && na < b + gib * s.cfg.near.size then some ((na - b) / 4096) else none

/-- The plain frames (R333). -/
def State.frameCount (s : State) : Nat := gib * s.cfg.near.size / 4096

/-- NA[47:12] of a frame number. -/
def State.frameField (s : State) (f : Nat) : BitVec 36 := BitVec.ofNat 36 (gib * s.cfg.near.base / 4096 + f)

/-- Bytes of each compressed pool: 1, 2 and 3 KiB (R350). -/
def State.poolBytes (s : State) : Nat → Nat
  | 0 => 16777216 * (s.cfg.comp.size * 64 * s.cfg.pool1 / 100)
  | 1 => 16777216 * (s.cfg.comp.size * 64 * s.cfg.pool2 / 100)
  | _ => gib * s.cfg.comp.size - 16777216 * (s.cfg.comp.size * 64 * s.cfg.pool1 / 100 +
           s.cfg.comp.size * 64 * s.cfg.pool2 / 100)

/-- Slot size of a pool (R350). -/
def poolSlot (k : Nat) : Nat := 1024 * (k + 1)

/-- Slots of a pool (R350). -/
def State.poolSlots (s : State) (k : Nat) : Nat := s.poolBytes k / poolSlot k

/-- First slot number of a pool; slots are numbered through the three pools in order (R350). -/
def State.poolFirst (s : State) : Nat → Nat
  | 0 => 0
  | 1 => s.poolSlots 0
  | _ => s.poolSlots 0 + s.poolSlots 1

/-- All compressed slots. -/
def State.slotCount (s : State) : Nat := s.poolSlots 0 + s.poolSlots 1 + s.poolSlots 2

/-- Byte offset of a pool within the compressed region (R350). -/
def State.poolBase (s : State) : Nat → Nat
  | 0 => 0
  | 1 => s.poolBytes 0
  | _ => s.poolBytes 0 + s.poolBytes 1

/-- The pool of a slot number. -/
def State.poolOf (s : State) (slot : Nat) : Nat :=
  if slot < s.poolSlots 0 then 0 else if slot < s.poolSlots 0 + s.poolSlots 1 then 1 else 2

/-- NA[45:10] of a slot number (R330). -/
def State.slotField (s : State) (slot : Nat) : BitVec 36 :=
  let k := s.poolOf slot
  BitVec.ofNat 36 ((gib * s.cfg.comp.base + s.poolBase k + (slot - s.poolFirst k) * poolSlot k) / 1024)

/-- The slot number that NA[45:10] names with a slot size, if it is a slot (R330, R332). -/
def State.slotIdx (s : State) (field : BitVec 36) (cslot : BitVec 2) : Option Nat :=
  if cslot = 0 then none
  else
    let k := cslot.toNat - 1
    let na := 1024 * field.toNat
    let b := gib * s.cfg.comp.base + s.poolBase k
    if b ≤ na && (na - b) % poolSlot k = 0 && (na - b) / poolSlot k < s.poolSlots k
    then some (s.poolFirst k + (na - b) / poolSlot k) else none

end Sys2Proof.Machine
end

