-- ==== Sys2Proof/Machine/Mesh.lean ====
section
/-! DEFINITION. The board mesh: routers, endpoints and routes, the flit header, virtual channels, router buffers and arbitration
(13 R441 to R449, 01 R30). -/

namespace Sys2Proof.Machine

open Sys2Proof

/-! ### The board (R441 to R443) -/

/-- Files and ranks of the router array (R441). -/
def Variant.grid : Variant → Nat × Nat
  | .yzh04 => (2, 2)
  | .yzh08 => (4, 2)
  | .yzh16 => (4, 4)

/-- Mesh endpoints (R442). -/
inductive Endpoint where
  | slice (n : Nat)
  | host (n : Nat)
  | agent (n : Nat)
  | mem (n : Nat)
  | director
  | loader
  deriving DecidableEq, Repr

/-- The endpoint number (R442). -/
def Endpoint.num : Endpoint → Nat
  | .slice n => n
  | .host n => 0x11 + n
  | .agent n => 0x19 + n
  | .mem n => 0x21 + n
  | .director => 0x31
  | .loader => 0x32

/-- The endpoint of a number that the variant has; none for the reserved numbers and for endpoints it lacks (R442). -/
def endpointOf (v : Variant) (e : Nat) : Option Endpoint :=
  if e < 0x11 then (if e < v.phys then some (.slice e) else none)
  else if e < 0x19 then (if e - 0x11 < v.hosts then some (.host (e - 0x11)) else none)
  else if e < 0x21 then (if e - 0x19 < v.agents then some (.agent (e - 0x19)) else none)
  else if e < 0x31 then (if e - 0x21 < v.mems then some (.mem (e - 0x21)) else none)
  else if e = 0x31 then some .director
  else if e = 0x32 then some .loader
  else none

/-- The variant has a mesh endpoint (R442). -/
def endpointIn (v : Variant) (e : Nat) : Bool := (endpointOf v e).isSome

/-- The router that attaches an endpoint (R441). -/
def routerOf (v : Variant) : Endpoint → Nat
  | .slice n => if n = v.phys - 1 then (match v with | .yzh16 => 6 | .yzh08 => 5 | .yzh04 => 3) else n
  | .mem n => n
  | .host n => 2 * n
  | .agent n => (match v with | .yzh04 => if n < 2 then 1 else 3 | _ => 2 * n + 1)
  | .director => (match v with | .yzh16 => 9 | .yzh08 => 2 | .yzh04 => 0)
  | .loader => (match v with | .yzh16 => 9 | .yzh08 => 2 | .yzh04 => 0)

/-- The variant has a link of a number (R450). -/
def linkIn (v : Variant) (n : Nat) : Bool :=
  let e := n % 64
  if n < 128 then endpointIn v e
  else if n < 192 then
    let r := e / 4
    let g := v.grid
    let x := r % g.1
    let y := r / g.1
    r < g.1 * g.2 &&
    (match e % 4 with
      | 0 => x + 1 < g.1
      | 1 => y + 1 < g.2
      | 2 => 0 < x
      | _ => 0 < y)
  else false

/-- The link into an endpoint and the one out of it (R450). -/
def linkInto (e : Nat) : Nat := e
def linkFrom (e : Nat) : Nat := 64 + e
/-- A router's output in a direction: 0 east, 1 north, 2 west, 3 south (R450). -/
def routerOut (r dir : Nat) : Nat := 128 + 4 * r + dir

/-- The router at the other end of a router's output (R450). -/
def neighbour (v : Variant) (r dir : Nat) : Nat :=
  match dir with
  | 0 => r + 1
  | 1 => r + v.grid.1
  | 2 => r - 1
  | _ => r - v.grid.1

/-- The direction in which a router forwards a flit for another router: along its rank to the file, then along the file (R443);
none at that router. -/
def routeDir (v : Variant) (r dst : Nat) : Option Nat :=
  let w := v.grid.1
  if r % w < dst % w then some 0
  else if dst % w < r % w then some 2
  else if r / w < dst / w then some 1
  else if dst / w < r / w then some 3
  else none

/-- The output that a flit for an endpoint leaves a router by (R443, R450). -/
def outLink (v : Variant) (r : Nat) (e : Endpoint) : Nat :=
  match routeDir v r (routerOf v e) with
  | some d => routerOut r d
  | none => linkInto e.num

/-- Router-to-router links on the route between two endpoints, and the FCLK cycles of an uncontended flit (R443). -/
def meshDistance (v : Variant) (a b : Endpoint) : Nat :=
  let w := v.grid.1
  let x := routerOf v a
  let y := routerOf v b
  ((x % w - y % w) + (y % w - x % w)) + ((x / w - y / w) + (y / w - x / w))
def meshCycles (v : Variant) (a b : Endpoint) : Nat := max (meshDistance v a b) 1

/-! ### Flits (R445, R446) -/

/-- The fields of a flit's header but its channel and its parity (R445). -/
structure MeshMsg where
  kpri : Bool
  dst : Endpoint
  src : Endpoint
  kind : Nat
  len : Bool
  poison : Bool
  trk : Nat
  peer : Nat
  cls : Cls
  line : LineAddr
  opq : Nat
  deriving DecidableEq, Repr

/-- KIND values that may appear on the mesh; every other is reserved (R446). -/
def kindIn (k : Nat) : Bool :=
  k ≤ 0x0B || (0x10 ≤ k && k ≤ 0x19) || k = 0x28 || k = 0x29 || k = 0x2C || k = 0x2D || (0x40 ≤ k && k ≤ 0x5B)

/-- The input that a flit of a KIND with bit 6 clear presents to its slice (R446, R191). -/
def kindInput (k : Nat) : Option Nat := if k < 64 && kindIn k then some k else none

/-- Kinds that carry a response: NDR messages, BIRsp messages, write acknowledgements, agent completions, and the answers, notices
and reports of R446 that none of R30's requests is (DEDUCED). -/
def kindAnswers (k : Nat) : Bool :=
  k ∈ [0x09, 0x0A, 0x0B, 0x28, 0x29, 0x47, 0x48, 0x49, 0x4A, 0x4B, 0x52, 0x53, 0x56, 0x57, 0x58, 0x5B]

/-- The virtual channel of a flit (R30): line data by class, requests and commands on VC0, responses without data on VC1. -/
def vcOf (k : Nat) (len : Bool) (c : Cls) : Nat :=
  if len then (if c == .k then 2 else 3) else if kindAnswers k then 1 else 0

/-- The virtual channel that a message travels on. -/
def MeshMsg.vc (m : MeshMsg) : Nat := vcOf m.kind m.len m.cls

/-- An odd number of the low `n` bits of a word are 1. -/
def oddOnes {w : Nat} (n : Nat) (x : BitVec w) : Bool := (List.range n).foldl (fun p i => p != x.getLsbD i) false

/-- A header with its parity bits: HPAR_HI over [127:64], HPAR_LO over [63:2] (R445). -/
def withParity (h : BitVec 128) : BitVec 128 :=
  (h.extractLsb' 2 126) ++ b1 (oddOnes 64 (h.extractLsb' 64 64)) ++ b1 (oddOnes 62 (h.extractLsb' 2 62))

/-- The header of a flit (R445). -/
def MeshMsg.header (m : MeshMsg) : BitVec 128 :=
  let bits : BitVec 126 :=
    BitVec.ofNat 2 m.vc ++ b1 m.kpri ++ BitVec.ofNat 6 m.dst.num ++ BitVec.ofNat 6 m.src.num ++ BitVec.ofNat 7 m.kind ++
    b1 m.len ++ b1 m.poison ++ BitVec.ofNat 8 m.trk ++ BitVec.ofNat 6 m.peer ++ BitVec.ofNat 2 m.cls.toNat ++ m.line ++
    BitVec.ofNat 44 m.opq
  withParity (bits ++ (0 : BitVec 2))

/-- Fields of a header that a router reads (R445). -/
def hdrVc (h : BitVec 128) : Nat := fieldN h 126 2
def hdrKpri (h : BitVec 128) : Bool := bitAt h 125
def hdrDst (h : BitVec 128) : Nat := fieldN h 119 6
def hdrSrc (h : BitVec 128) : Nat := fieldN h 113 6
def hdrKind (h : BitVec 128) : Nat := fieldN h 106 7

/-- A router's check of a header: both parities, and no reserved DST, SRC or KIND (R442, R446, R447). -/
def hdrGood (v : Variant) (h : BitVec 128) : Bool :=
  withParity h == h && endpointIn v (hdrDst h) && endpointIn v (hdrSrc h) && kindIn (hdrKind h)

/-- A header with another DST and its parity computed anew (R447). -/
def withDst (h : BitVec 128) (e : Nat) : BitVec 128 :=
  withParity (h.extractLsb' 125 3 ++ BitVec.ofNat 6 e ++ h.extractLsb' 0 119)

/-! ### Sending -/

/-- An endpoint offers a flit to its router. -/
def State.meshSend (s : State) (m : MeshMsg) : State :=
  { s with fb := { s.fb with meshOut := s.fb.meshOut ++ [(m.src.num, m.header)] } }

/-- A write's data packet behind its header: the same tag, on VC2 or VC3 (R445). -/
def State.meshData (s : State) (m : MeshMsg) (poison : Bool) : State :=
  (s.meshSend m).meshSend { m with kind := 0x5B, len := true, poison := poison }

/-- A flit of a port's or a slice's message with no line data. -/
def meshMsg (src dst : Endpoint) (kind : Nat) (cls : Cls) (line : LineAddr) (opq : Nat) : MeshMsg :=
  ⟨false, dst, src, kind, false, false, 0xFF, 0, cls, line, opq⟩

/-- The flit of a message between a slice and the director (R446). A doorbell and a page-map entry name no slice: the slice is the
one given. -/
def NMsg.flit (at_ : Nat) : NMsg → MeshMsg
  | .promo p pg => up p pg 0x55 0
  | .dack p pg => up p pg 0x55 1
  | .dnote p pg => up p pg 0x55 2
  | .mark p pg => up p pg 0x55 3
  | .doorbell r => meshMsg (.slice at_) .director 0x55 .p 0 (16 * r + 4)
  | .heat p pg h => up p pg 0x55 (16 * h.toNat + 5)
  | .stamp p pg => up p pg 0x55 6
  | .cleanAck p pg => up p pg 0x55 7
  | .pmRead p pg => up p pg 0x59 0
  | .migStart p pg k => down p pg 0x2C (match k with | .promotion => 0 | .demotion => 1)
  | .migDone p pg => down p pg 0x2D 0
  | .stampAck p pg => down p pg 0x56 6
  | .markAck p pg => down p pg 0x56 3
  | .clean p pg => down p pg 0x54 0
  | .entry pg => down at_ pg 0x59 1
where
  /-- From a slice to the director, and back. -/
  up (p : Nat) (pg : Page) (k o : Nat) : MeshMsg := meshMsg (.slice p) .director k .p (pageLine pg 0) o
  down (p : Nat) (pg : Page) (k o : Nat) : MeshMsg := meshMsg .director (.slice p) k .p (pageLine pg 0) o

/-- Send a message to or from the director. -/
def State.send (s : State) (m : NMsg) : State :=
  let home : Nat := match m with
    | .entry pg => (s.homeSlice pg).getD 0
    | .doorbell r => (match s.hintWindow with | some w => (s.homeSlice (BitVec.ofNat 36 (w.firstPage + r))).getD 0 | none => 0)
    | _ => 0
  { s.meshSend (m.flit home) with net := s.net ++ [m] }

/-! ### Router buffers and arbitration (R444, R447 to R449) -/

/-- A router input holds 4 flits of a virtual channel: a sender has a credit while fewer are there (R448). -/
def hasCredit (held : List MeshAt) (link vc : Nat) : Bool :=
  (held.filter fun f => f.link == link && hdrVc f.hdr == vc).length < 4

/-- The end of a router's output: the router it leads to, none for an endpoint. -/
def linkEndRouter (v : Variant) (link : Nat) : Option Nat :=
  if link < 128 then none else some (neighbour v ((link - 128) / 4) (link % 4))

/-- The flit that a router picks for a lane of an output among those that wait for it with a credit, in order of arrival; `vc0`: the
last alternate pick took VC0 (R449). -/
def lanePick (lane1 vc0 : Bool) (l : List MeshAt) : Option MeshAt :=
  let first (c : BitVec 128 → Bool) : Option MeshAt := l.find? fun f => c f.hdr
  let v2 := first fun h => hdrVc h == 2
  let v1 := first fun h => hdrVc h == 1
  let v0k := first fun h => hdrVc h == 0 && hdrKpri h
  let v0 := first fun h => hdrVc h == 0
  let v3 := first fun h => hdrVc h == 3
  let turn := if vc0 then v3 <|> v0 else v0 <|> v3
  if lane1 then v2 <|> v0k <|> v1 <|> turn else v2 <|> v1 <|> v0k <|> turn

/-- The mesh during one cycle: flits not yet moved, flits that have crossed a link in it, alternation, flits delivered. -/
structure MeshTurn where
  todo : List MeshAt
  moved : List MeshAt
  alt : List (Nat × Bool)
  done : Nat

/-- One lane of one output of a router takes a flit (R449). -/
def MeshTurn.lane (t : MeshTurn) (v : Variant) (r out : Nat) (lane1 : Bool) : MeshTurn :=
  let next := linkEndRouter v out
  let wants (f : MeshAt) : Bool :=
    f.router == r && (match endpointOf v (hdrDst f.hdr) with | some e => outLink v r e == out | none => false) &&
    (next.isNone || hasCredit (t.todo ++ t.moved) out (hdrVc f.hdr))
  let key := 2 * out + (if lane1 then 1 else 0)
  let vc0 := (kget key t.alt).getD false
  match lanePick lane1 vc0 (t.todo.filter wants) with
  | none => t
  | some f =>
    let alt := if hdrVc f.hdr == 3 then kset key false t.alt
      else if hdrVc f.hdr == 0 && !hdrKpri f.hdr then kset key true t.alt else t.alt
    let t1 := { t with todo := eraseFirst (fun x => x == f) t.todo, alt := alt }
    match next with
    | some q => { t1 with moved := t1.moved ++ [⟨q, out, f.hdr⟩] }
    | none => { t1 with done := t1.done + 1 }

/-- The outputs of a router: its directions, and the links into the endpoints that it attaches (R441, R450). -/
def outputsOf (v : Variant) (r : Nat) : List Nat :=
  ((List.range 4).map (routerOut r)).filter (linkIn v) ++
  (List.range 0x33).filter fun e => match endpointOf v e with | some x => routerOf v x == r | none => false

/-- A router serves its outputs: two lanes toward a router, one toward an endpoint (R444). -/
def MeshTurn.router (t : MeshTurn) (v : Variant) (r : Nat) : MeshTurn :=
  if t.todo.all fun f => f.router != r then t
  else (outputsOf v r).foldl (fun t o => if o < 128 then t.lane v r o false else (t.lane v r o false).lane v r o true) t

/-- The router that attaches an isolated slice sends its flits on to the redirection target, and discards those of a lost range
(R414, R428, R447). -/
def State.meshRedirect (s : State) (f : MeshAt) : Option MeshAt :=
  match endpointOf s.variant (hdrDst f.hdr) with
  | some (.slice p) =>
    if f.router != routerOf s.variant (.slice p) then some f
    else match s.cast.redirect.find? fun r => r.1 == p with
      | some r => some { f with hdr := withDst f.hdr r.2 }
      | none => if s.cast.homes.any fun h => h.phys == p && h.lost then none else some f
  | _ => some f

/-- The first flits that endpoints offer, one of each that has a credit at its router (R444, R448). -/
def meshTake (v : Variant) : List (Nat × BitVec 128) → (held : List MeshAt) → (used : List Nat) → List (Nat × BitVec 128) × List MeshAt
  | [], held, _ => ([], held)
  | x :: r, held, used =>
    let ok := !used.contains x.1 && hdrGood v x.2 && hasCredit held (linkFrom x.1) (hdrVc x.2)
    match (if ok then endpointOf v x.1 else none) with
    | some e => meshTake v r (held ++ [⟨routerOf v e, linkFrom x.1, x.2⟩]) (x.1 :: used)
    | none =>
      let y := meshTake v r held used
      (x :: y.1, y.2)

/-- One FCLK cycle of the mesh. -/
def State.meshCycle (s : State) : State :=
  let g := s.variant.grid
  let t0 : MeshTurn := ⟨s.fb.mesh.filterMap s.meshRedirect, [], s.fb.meshAlt, s.fb.meshDone⟩
  let t := (List.range (g.1 * g.2)).foldl (fun t r => t.router s.variant r) t0
  let i := meshTake s.variant s.fb.meshOut (t.todo ++ t.moved) []
  { s with fb := { s.fb with mesh := i.2, meshOut := i.1, meshAlt := t.alt, meshDone := t.done } }

/-- The mesh runs for a number of cycles, or until no flit is left in it. -/
def State.meshRun : (cycles : Nat) → State → State
  | 0, s => s
  | n + 1, s => if s.fb.mesh.isEmpty && s.fb.meshOut.isEmpty then s else State.meshRun n s.meshCycle

/-- The mesh of a move's 1,024 FCLK cycles; a flit that an endpoint should not send stays there, refused (R406, log 61). -/
def State.meshMove (s : State) : State :=
  if s.fb.mesh.isEmpty && s.fb.meshOut.all (fun x => !hdrGood s.variant x.2) then s else s.meshRun 1024

end Sys2Proof.Machine
end

