-- ==== Sys2Proof/Machine/RegMap.lean ====
section
/-! DEFINITION. The register map's stored registers: offsets, the bits of each type that hold a value, reset values,
and the fields in force that the machine reads. -/

namespace Sys2Proof.Machine

/-- A stored register (R509): masks of its RW, RWB and stored GS bits, and the value after reset. -/
structure RegDef where
  rw : W32
  rwb : W32
  gs : W32
  reset : W32
  deriving DecidableEq, Repr

/-- Offset of a slice's register block (R533). -/
def slBase (p : Nat) : Nat := 0x800000 + 0x40000 * p

/-- Stored registers of a slice block, by offset within it (17, 09, 13). -/
def slRegDef (o : Nat) : Option RegDef :=
  if o = 0x008 then some ⟨0x00000003, 0, 0, 0⟩
  else if o = 0x024 then some ⟨0, 0x0000FFFF, 0, 0⟩
  else if 0x040 ≤ o && o < 0x080 && o % 4 = 0 then some ⟨0, 0x00FFFFFF, 0, 0x00040810⟩
  else if 0x080 ≤ o && o < 0x0C0 && o % 4 = 0 then some ⟨0, 0x00000FFF, 0, 0x00000400⟩
  else if o = 0x0C4 then some ⟨0x0000FFFF, 0, 0, 0x00000001⟩
  else if o = 0x100 then some ⟨0, 0x000000F1, 0, 0x000000C1⟩
  else if o = 0x104 then some ⟨0, 0x3FFFFFFF, 0, 0x1C003000⟩
  else if o = 0x108 then some ⟨0, 0x000000FF, 0, 0⟩
  else if o = 0x10C then some ⟨0xFFFFFFFF, 0, 0, 0⟩
  else if o = 0x110 then some ⟨0x0000000F, 0, 0, 0⟩
  else if o = 0x120 then some ⟨0, 0xFFFFFF00, 0, 0x10010800⟩
  else if o = 0x124 then some ⟨0, 0x0000FFFF, 0, 0⟩
  else if o = 0x300 then some ⟨0, 0, 0x780FFFFF, 0⟩
  else if 0x800 ≤ o && o < 0x820 && o % 4 = 0 then some ⟨0, 0xFC0000FF, 0, 0x3C000000⟩
  else none

/-- FILT_K of EG_CALn at reset (R525). -/
def egCalReset (n : Nat) : W32 :=
  if n = 2 then 0 else if n = 3 then 2 else if n = 6 then 6 else if n = 7 then 4 else 1

/-- Stored registers of one probe, by offset within its group (R532, 13). -/
def prbRegDef (o : Nat) : Option RegDef :=
  if o = 0x00 then some ⟨0, 0xFDFFFFE0, 0, 0x01E00800⟩
  else if o = 0x14 || o = 0x1C then some ⟨0, 0x000003FF, 0, 0⟩
  else if o = 0x04 || o = 0x08 || o = 0x0C || o = 0x10 || o = 0x18 || o = 0x20 then some ⟨0, 0xFFFFFFFF, 0, 0⟩
  else none

/-- Bits of GL_INT_MASKk that exist for a variant (R522): sources that can request output k. -/
def intMaskBits (v : Variant) (k : Nat) : W32 :=
  let sl : W32 := BitVec.ofNat 32 ((2 ^ v.phys - 1) * 256)
  if k = 0 then 0x1 else if k = 1 then sl ||| 0x51 else if k = 2 then 0x2 else sl ||| 0x4

/-- Every stored register, by base offset (R521 to R533). -/
def regDef (v : Variant) (o : Nat) : Option RegDef :=
  if o = 0x010 then some ⟨0, 0x200FFF00, 0, 0x20001000⟩
  else if 0x050 ≤ o && o ≤ 0x05C && o % 4 = 0 then some ⟨intMaskBits v (o / 4 - 20), 0, 0, 0⟩
  else if o = 0x10018 || o = 0x1001C || o = 0x10020 then some ⟨0, 0, 0xFFFFFFFF, 0⟩
  else if o = 0x10024 then some ⟨0, 0, 0x40000000, 0⟩
  else if o = 0x20018 then some ⟨0x0000000F, 0, 0, 0x0000000F⟩
  else if 0x20020 ≤ o && o ≤ 0x2003C && o % 4 = 0 then
    let n := o % 0x10000 / 4 - 8
    some ⟨0, if n ≤ 5 then 0xFFFF0007 else 0x00000007, 0, egCalReset n⟩
  else if o = 0x20040 then some ⟨0, 0xFFFFFFFF, 0, 0x2C882A30⟩
  else if o = 0x20044 then some ⟨0, 0x03FF00FF, 0, 0x00640014⟩
  else if o = 0x20048 then some ⟨0, 0xFFFF007F, 0, 0x3E80005A⟩
  else if o = 0x2004C then some ⟨0, 0xFFFFFFFF, 0, 0⟩
  else if o = 0x20050 then some ⟨0, 0x0FFFFFFF, 0, 0x02260BB8⟩
  else if o = 0x20054 then some ⟨0, 0xFFFFFFF0, 0, 0x29FE0140⟩
  else if o = 0x20058 then some ⟨0, 0x07FF07FF, 0, 0x047E03E8⟩
  else if o = 0x2005C then some ⟨0, 0x00000007, 0, 0⟩
  else if o = 0x30010 then some ⟨0, 0x1FFF0FFF, 0, 0x00800040⟩
  else if o = 0x30014 then some ⟨0, 0x01FFFF1F, 0, 0x00400214⟩
  else if o = 0x30018 then some ⟨0, 0xFFFF0FFF, 0, 0xC0400020⟩
  else if o = 0x3001C then some ⟨0, 0x00001FFF, 0, 0x00000040⟩
  else if o = 0x30020 then some ⟨0, 0x3FFF01FF, 0, 0x25B20020⟩
  else if o = 0x30024 then some ⟨0, 0x000007FF, 0, 0x00000040⟩
  else if o = 0x30028 then some ⟨0, 0x7FFF7FFF, 0, 0x00104000⟩
  else if o = 0x3002C then some ⟨0, 0x0000FF00, 0, 0x00000100⟩
  else if o = 0x30040 || o = 0x30044 then some ⟨0, 0, 0xFFFFFFFF, 0⟩
  else if o = 0x30048 then some ⟨0, 0, 0x3FFFFFFF, 0⟩
  else if 0x40000 ≤ o && o < 0x40080 && o % 4 = 0 then
    if o % 0x10000 / 16 < v.agents then some ⟨0, 0xFFFC00FF, 0, 0x01900000⟩ else none
  else if o = 0x40080 then some ⟨0, 0x8000001F, 0, 0⟩
  else if 0x400C0 ≤ o && o < 0x40100 && o % 8 = 0 then some ⟨0, 0x8FFFFFFF, 0, 0⟩
  else if 0x400C0 ≤ o && o < 0x40100 && o % 8 = 4 then some ⟨0, 0x0FFFFFFF, 0, 0⟩
  else if 0x40100 ≤ o && o < 0x40120 && o % 4 = 0 then
    if o % 0x1000 / 4 - 64 < v.agents then some ⟨0, 0x0000FF3F, 0, 0x00001018⟩ else none
  else if o = 0x40120 then some ⟨0, 0x0000FFFF, 0, 0⟩
  else if o = 0x50000 then some ⟨0xC0000000, 0, 0, 0⟩
  else if o = 0x50020 then some ⟨0xC00FFC00, 0, 0, 0x40019000⟩
  else if 0x50100 ≤ o && o < 0x50400 then prbRegDef (o % 0x40)
  else if 0x60010 ≤ o && o ≤ 0x6001C && o % 4 = 0 then some ⟨0, 0xFFFFFFFF, 0, 0⟩
  else if slBase 0 ≤ o && o < slBase v.phys then
    let r := o % 0x40000
    -- Registers indexed by an input that the variant lacks read 0 and ignore writes (R534).
    if 0x040 ≤ r && r < 0x0C0 then
      let i := r % 64 / 4
      if (if i < 8 then i < v.hosts else i - 8 < v.agents) then slRegDef r else none
    else slRegDef r
  else none

/-- The stored or pending word of a register: what was last written, or its reset value (R509, R510). -/
def State.baseReg (s : State) (o : Nat) : W32 :=
  match kget o s.regs.base with
  | some w => w
  | none => match regDef s.variant o with | some d => d.reset | none => 0

/-- The word in force of a register (R79, R514). -/
def State.actReg (s : State) (o : Nat) : W32 :=
  match kget o s.regs.act with
  | some w => w
  | none => match regDef s.variant o with | some d => d.reset | none => 0

/-- A slice register's word in force. -/
def State.slReg (s : State) (p o : Nat) : W32 := s.actReg (slBase p + o)

/-- Tickets of an input for a class (R93). -/
def State.tickets (s : State) (p : Nat) (c : Cand) : Nat :=
  let w := s.slReg p (0x040 + 4 * c.input)
  match c.cls with
  | .p => fieldN w 16 8
  | .n => fieldN w 8 8
  | _ => fieldN w 0 8

/-- Starvation limit of an input (R97). -/
def State.starveLimit (s : State) (p i : Nat) : Nat := fieldN (s.slReg p (0x080 + 4 * i)) 0 12

/-- SL_MSC_CTL enables next-line prefetch for a class (R301). -/
def State.pfEnabled (s : State) (p : Nat) (c : Cls) : Bool := bitAt (s.slReg p 0x100) (4 + c.toNat)

/-- SL_MSC_CTL.ENABLE in force (R317). -/
def State.mscEnable (s : State) (p : Nat) : Bool := bitAt (s.slReg p 0x100) 0

/-- HIGH_MARK of the dirty count (R310). -/
def State.dirtyHigh (s : State) (p : Nat) : Nat := min 16384 (fieldN (s.slReg p 0x104) 15 15)

/-- LOW_MARK (R310). -/
def State.dirtyLow (s : State) (p : Nat) : Nat :=
  let l := fieldN (s.slReg p 0x104) 0 15
  if l < s.dirtyHigh p then l else s.dirtyHigh p - 1

/-- LOCK or PRELOAD of a way in force (R303, R314). -/
def State.wayLocked (s : State) (p w : Nat) : Bool :=
  12 ≤ w && (bitAt (s.slReg p 0x108) (w - 12) || bitAt (s.slReg p 0x108) (w - 12 + 4))

/-- PRELOAD of a way in force: a preload target (R315). -/
def State.wayTarget (s : State) (p w : Nat) : Bool := 12 ≤ w && bitAt (s.slReg p 0x108) (w - 12 + 4)

/-- DIS of a cache way in force (R294). -/
def State.mscDis (s : State) (p w : Nat) : Bool := bitAt (s.slReg p 0x124) w

/-- DIS of a snoop-filter way in force (R540). -/
def State.sfDis (s : State) (p w : Nat) : Bool := bitAt (s.slReg p 0x024) w

/-- Word in force of AP_AGENT_CFG of an agent (R225). -/
def State.agentCfg (s : State) (port agent : Nat) : W32 := s.actReg (0x40000 + 4 * (4 * port + agent))

/-- ENABLE of an agent in force (R225). -/
def State.agentOn (s : State) (port agent : Nat) : Bool := bitAt (s.agentCfg port agent) 31
/-- CACHING of an agent in force. -/
def State.agentCaching (s : State) (port agent : Nat) : Bool := bitAt (s.agentCfg port agent) 30
/-- CREDITS of an agent in force; above 128 counts as 128 (R225). -/
def State.agentCredits (s : State) (port agent : Nat) : Nat := min 128 (fieldN (s.agentCfg port agent) 0 8)
/-- ATOM_POLICY of an agent in force (R227). -/
def State.atomPolicy (s : State) (port agent : Nat) : Nat := fieldN (s.agentCfg port agent) 28 2

/-- The agent is the host atomic agent (R261). -/
def State.isIoAtom (s : State) (port agent : Nat) : Bool :=
  let w := s.actReg 0x40080
  bitAt w 31 && fieldN w 2 3 < s.variant.agents && fieldN w 2 3 == port && fieldN w 0 2 == agent

/-- An address is device-type (R264, R265). -/
def State.isDevice (s : State) (a : Addr) : Bool :=
  (List.range 8).any fun n =>
    let b := s.actReg (0x400C0 + 8 * n)
    let l := s.actReg (0x400C4 + 8 * n)
    let x := fieldN a 20 28
    bitAt b 31 && fieldN b 0 28 ≤ x && x ≤ fieldN l 0 28

/-- Class ceiling of a HID (R86). -/
def State.hidCeil (s : State) (h : Nat) : Cls := Cls.ofBits ((s.actReg (0x60010 + 4 * (h / 16))).extractLsb' (2 * (h % 16)) 2)
/-- Class ceiling of an agent port (R86). -/
def State.apCeil (s : State) (p : Nat) : Cls := Cls.ofBits ((s.actReg 0x40120).extractLsb' (2 * p) 2)

/-- Nearest value in range (R351). -/
def clamp (lo hi n : Nat) : Nat := if n < lo then lo else if hi < n then hi else n

/-- Parameters of the director in force (R351). -/
def State.pdFreeLow (s : State) : Nat := clamp 1 4095 (fieldN (s.actReg 0x30010) 0 12)
def State.pdFreeHigh (s : State) : Nat := clamp (s.pdFreeLow + 1) 4096 (fieldN (s.actReg 0x30010) 16 13)
def State.pdHeatDecay (s : State) : Nat := clamp 10 30 (fieldN (s.actReg 0x30014) 0 5)
def State.pdCold (s : State) : Nat := min 254 (fieldN (s.actReg 0x30014) 8 8)
def State.pdMoves (s : State) : Nat := clamp 1 256 (fieldN (s.actReg 0x30014) 16 9)
def State.pdCompEnable (s : State) : Bool := bitAt (s.actReg 0x30018) 31
def State.pdEffort (s : State) : Nat := fieldN (s.actReg 0x30018) 29 2
def State.pdCFreeLow (s : State) : Nat := clamp 1 4095 (fieldN (s.actReg 0x30018) 0 12)
def State.pdCFreeHigh (s : State) : Nat := clamp (s.pdCFreeLow + 1) 4096 (fieldN (s.actReg 0x30018) 16 13)
def State.pdPinReserve (s : State) : Nat := clamp 1 4096 (fieldN (s.actReg 0x3001C) 0 13)
def State.pdBudgetGib (s : State) : Nat := clamp 1 256 (fieldN (s.actReg 0x30020) 0 9)
def State.pdCleanHigh (s : State) : Nat := clamp 2 99 (fieldN (s.actReg 0x30020) 23 7)
def State.pdCleanLow (s : State) : Nat := clamp 1 (s.pdCleanHigh - 1) (fieldN (s.actReg 0x30020) 16 7)
def State.pdSweepRate (s : State) : Nat := clamp 1 1024 (fieldN (s.actReg 0x30024) 0 11)
def State.pdRings (s : State) : Nat := min 16384 (fieldN (s.actReg 0x30028) 0 15)
def State.pdPrivRings (s : State) : Nat := min 16384 (fieldN (s.actReg 0x30028) 16 15)
def State.pdPoll (s : State) : Nat := fieldN (s.actReg 0x3002C) 8 8

/-! ### Performance counters (R454, R464) -/

/-- Add to a 48-bit counter, saturating (R454). -/
def Ctr48.add (c : Ctr48) (n : Nat) : Ctr48 :=
  if c.value.toNat + n < 2 ^ 48 then { c with value := c.value + BitVec.ofNat 48 n }
  else { c with value := BitVec.allOnes 48, sat := true }

/-- A counter at 0 with SAT clear. -/
def Ctr48.clear (c : Ctr48) : Ctr48 := { c with value := 0, sat := false }

/-- CLASSMASK selects a class; its bits [29:26] are for K, Q, N, P in that order (R464). -/
def classSel (ctl : W32) (c : Option Cls) : Bool :=
  match c with
  | none => true
  | some x => bitAt ctl (29 - x.toNat)

/-- One counter of a slice on an event: it counts when enabled for the event and class (R464). -/
def pmcStep (ctl : W32) (ev : Nat) (c : Option Cls) (n : Nat) (k : Ctr48) : Ctr48 :=
  if bitAt ctl 31 && fieldN ctl 0 8 == ev && classSel ctl c then k.add n else k

/-- Count an event in every counter of the slice that counts it (R464); `c` the class, for events marked C. -/
def State.count (s : State) (p ev : Nat) (c : Option Cls) (n : Nat := 1) : State :=
  let pmc (sl : Slice) := sl.obs.pmc.mapIdx fun i k => pmcStep (s.slReg p (0x800 + 4 * i)) ev c n k
  s.modSlice p fun sl => { sl with obs := { sl.obs with pmc := pmc sl } }

end Sys2Proof.Machine
end

