-- ==== Sys2Proof/Machine/Directory.lean ====
section
/-! DEFINITION. The directory of a slice: holder records, the snoop filter with its pseudo-LRU, the ledger nibble, spill
buckets, bucket reservations (04). -/

namespace Sys2Proof.Machine

/-! ### Pseudo-LRU (R132) -/

/-- Point every node on the path to way w away from w. `lv` levels below `node`, whose ways start at `lo`. -/
def plruTouchAt {n : Nat} : (lv node lo w : Nat) → BitVec n → BitVec n
  | 0, _, _, _, b => b
  | lv + 1, node, lo, w, b =>
    let half := 2 ^ lv
    if w < lo + half then plruTouchAt lv (2 * node + 1) lo w (setBit b node true)
    else plruTouchAt lv (2 * node + 2) (lo + half) w (setBit b node false)

/-- Follow the bits to the least recently used way among the candidates; a half without a candidate is passed by. -/
def plruPickAt {n : Nat} (cand : Nat → Bool) : (lv node lo : Nat) → BitVec n → Nat
  | 0, _, lo, _ => lo
  | lv + 1, node, lo, b =>
    let half := 2 ^ lv
    let any (a : Nat) : Bool := (List.range half).any fun i => cand (a + i)
    let hi := if bitAt b node then any (lo + half) else !any lo
    if hi then plruPickAt cand lv (2 * node + 2) (lo + half) b else plruPickAt cand lv (2 * node + 1) lo b

/-- Touch a way of a set kept in a keyed list of tree states; an unlisted set has every bit 0. -/
def plruTouch {n : Nat} (lv : Nat) (l : List (Nat × BitVec n)) (set w : Nat) : List (Nat × BitVec n) :=
  let b := plruTouchAt lv 0 0 w ((kget set l).getD 0)
  if b = 0 then kdel set l else kset set b l

/-- The least recently used candidate way of a set, if there is a candidate. -/
def plruPick {n : Nat} (lv : Nat) (l : List (Nat × BitVec n)) (set : Nat) (cand : Nat → Bool) : Option Nat :=
  if (List.range (2 ^ lv)).any cand then some (plruPickAt cand lv 0 0 ((kget set l).getD 0)) else none

/-! ### Holder records (R113 to R120) -/

/-- A record of a line that no one holds. -/
def Entry.empty (line : LineAddr) : Entry := ⟨line, .free, [], none, false, 0, false, false⟩

/-- The HIDs a coarse field covers (R117). -/
def coarseHids (b : BitVec 32) : List Nat := (List.range 64).filter fun h => bitAt b (h / 2)

/-- The HIDs a record names; in coarse mode the ones valid in the host-ID table (R118). -/
def Entry.hosts (s : State) (e : Entry) : List Nat :=
  match e.coarse with
  | none => e.ptrs
  | some b => (coarseHids b).filter fun h => s.hidValid h

/-- The record names a holder. -/
def Entry.held (e : Entry) : Bool := !e.ptrs.isEmpty || e.coarse.isSome || e.amh

/-- STATE follows the holders: a record that names no one is free. -/
def Entry.settle (e : Entry) : Entry :=
  if e.held then e else { e with st := .free, fwd := 0 }

/-- Add a host as a sharer; a sixth one makes the record coarse (R116, R117). -/
def Entry.addSharer (e : Entry) (h : Nat) : Entry :=
  match e.coarse with
  | some b => { e with st := .s, coarse := some (setBit b (h / 2) true) }
  | none =>
    if e.ptrs.contains h then { e with st := .s }
    else if e.ptrs.length < 5 then { e with st := .s, ptrs := e.ptrs ++ [h] }
    else
      let b := (e.ptrs ++ [h]).foldl (fun b x => setBit b (x / 2) true) (0 : BitVec 32)
      { e with st := .s, ptrs := [], coarse := some b }

/-- Make a host the E owner; remove all other holders (HOLDER 0x2). -/
def Entry.makeE (e : Entry) (h : Nat) : Entry :=
  { e with st := .e, ptrs := [h], coarse := none, amh := false, fwd := 0 }

/-- Make an agent port the X owner; remove all hosts (HOLDER 0x3). -/
def Entry.makeX (e : Entry) (port : Nat) : Entry :=
  { e with st := .x, ptrs := [], coarse := none, amh := true, fwd := port }

/-- Remove a host: its pointer goes and the higher ones move down; a coarse bit stays (R116, R117). -/
def Entry.removeHost (e : Entry) (h : Nat) : Entry :=
  let e1 := { e with ptrs := e.ptrs.filter fun x => x != h }
  Entry.settle (if e.st = .e && e1.ptrs.isEmpty && e1.amh then { e1 with st := .s } else e1)

/-- Clear agent-may-hold. -/
def Entry.clearAmh (e : Entry) : Entry := Entry.settle { e with amh := false, fwd := 0 }

/-- Set agent-may-hold for a port: state S, hosts kept (HOLDER 0x8). -/
def Entry.setAmh (e : Entry) (port : Nat) : Entry := { e with st := .s, amh := true, fwd := port }

/-- Remove every holder (HOLDER 0x9). -/
def Entry.clear (e : Entry) : Entry := { e with st := .free, ptrs := [], coarse := none, amh := false, fwd := 0 }

/-- The combinations of R114, and a forwarding pointer that names a port of the variant (R115). -/
def Entry.legal (v : Variant) (e : Entry) : Bool :=
  e.fwd < v.agents &&
  match e.st with
  | .free => true
  | .s => match e.coarse with
      | none => e.ptrs.length ≤ 5 && (e.ptrs.length != 0 || e.amh)
      | some b => e.ptrs.isEmpty && b != 0
  | .e => e.coarse.isNone && e.ptrs.length == 1 && !e.amh
  | .x => e.coarse.isNone && e.ptrs.isEmpty && e.amh

/-- STATE in two bits (R114). -/
def HState.bits : HState → BitVec 2
  | .free => 0
  | .s => 1
  | .e => 2
  | .x => 3

/-- STATE from two bits. -/
def HState.ofBits (b : BitVec 2) : HState := if b = 1 then .s else if b = 2 then .e else if b = 3 then .x else .free

/-- The SHARERS field: precise pointers packed six bits each, or the coarse bits (R116, R117). -/
def Entry.sharers (e : Entry) : BitVec 32 :=
  match e.coarse with
  | some b => b
  | none => (e.ptrs.mapIdx fun i h => BitVec.ofNat 32 (h % 64) <<< (6 * i)).foldl (· ||| ·) 0

/-- Pointers from a SHARERS field and HCNT. -/
def ptrsOf (sh : BitVec 32) (hcnt : Nat) : List Nat := (List.range (min hcnt 5)).map fun i => fieldN sh (6 * i) 6

/-- The 72 data bits of a snoop-filter entry (R113). -/
def entryBits (e : Entry) : BitVec 72 :=
  (e.line.extractLsb' 15 27) ++ e.st.bits ++ b1 e.coarse.isSome ++ e.sharers ++ b1 e.amh ++ BitVec.ofNat 3 e.fwd ++
  b1 e.opn ++ b1 e.kpin ++ BitVec.ofNat 3 e.ptrs.length ++ (0 : BitVec 1)

/-! ### The snoop filter (R111, R112, R131 to R133, R540) -/

/-- Set index of a line: A[20:6] XOR A[35:21] (R112). -/
def sfSet (l : LineAddr) : Nat := (l.extractLsb' 0 15 ^^^ l.extractLsb' 15 15).toNat

/-- The way that holds a line, and its entry. -/
def Slice.sfFind (sl : Slice) (l : LineAddr) : Option (Nat × Entry) :=
  sl.dir.sf.find? fun x => x.2.line == l && x.2.st != .free

/-- The entry in a way of a set. -/
def Slice.sfAt (sl : Slice) (set w : Nat) : Option Entry := kget (set * 16 + w) sl.dir.sf

/-- Write a way; a free entry empties it (R114). -/
def Slice.sfPut (sl : Slice) (i : Nat) (e : Entry) : Slice :=
  { sl with dir := { sl.dir with sf := if e.st = .free then kdel i sl.dir.sf else kset i e sl.dir.sf } }

/-- Note a hit on or an allocation of a way (R132). -/
def Slice.sfTouch (sl : Slice) (i : Nat) : Slice :=
  { sl with dir := { sl.dir with plru := plruTouch 4 sl.dir.plru (i / 16) (i % 16) } }

/-- Ways of the snoop filter that are not disabled (R540). -/
def State.sfWays (s : State) (p : Nat) : List Nat := (List.range 16).filter fun w => !s.sfDis p w

/-- The lowest free way of a set. -/
def State.sfFreeWay (s : State) (p : Nat) (sl : Slice) (set : Nat) : Option Nat :=
  (s.sfWays p).find? fun w => (sl.sfAt set w).isNone

/-- The victim of a set under R131: not open, not of a class-K page first. -/
def State.sfVictim (s : State) (p : Nat) (sl : Slice) (set : Nat) : Option Nat :=
  let ok (k : Bool) (w : Nat) : Bool := !s.sfDis p w &&
    match sl.sfAt set w with | some e => !e.opn && (e.kpin == k) | none => false
  match plruPick 4 sl.dir.plru set (ok false) with
  | some w => some w
  | none => plruPick 4 sl.dir.plru set (ok true)

/-- WAY_OK: the snoop filter can allocate the line under R131 and R133. -/
def State.wayOk (s : State) (p : Nat) (sl : Slice) (l : LineAddr) (kpin : Bool) : Bool :=
  if (sl.sfFind l).isSome then true
  else
    let set := sfSet l
    let ways := s.sfWays p
    let notOpen := ways.filter fun w => match sl.sfAt set w with | some e => !e.opn | none => true
    if kpin then !notOpen.isEmpty else 2 ≤ notOpen.length

/-! ### The ledger nibble (R124, R126, R194) -/

/-- DIR of a nibble. -/
def Nib.dir (n : Nib) : BitVec 2 := n.extractLsb' 0 2
/-- GLOW of a nibble. -/
def Nib.glow (n : Nib) : BitVec 2 := n.extractLsb' 2 2
/-- A nibble of the current game with a DIR value. -/
def State.nibNow (s : State) (dir : BitVec 2) : Nib := s.gl.game.extractLsb' 0 2 ++ dir
/-- The nibble is current: its page carries the current game number and GLOW its low bits (R124). -/
def State.nibCurrent (s : State) (pageGame : Game) (n : Nib) : Bool :=
  pageGame == s.gl.game && Nib.glow n == s.gl.game.extractLsb' 0 2

/-- The line lies in a range served in blindfold mode, its page ahead of the sweeper (R422): a class-K page not yet
visited, or another page whose frame the sweeper has not passed (R423). -/
def State.blindLine (s : State) (sl : Slice) (l : LineAddr) (e : PEnt) : Bool :=
  match sl.blind.find? fun b => b.log == s.homeOf (pageOf l) with
  | none => false
  | some b =>
    if e.classPin = 0b100 then b.kpages.contains (pageOf l)
    else b.frame ≤ (s.frameIdx (4096 * e.frame.toNat)).getD 0

/-- Nibble class of R194 for a known nibble: 0 no holder, 1 spill directory, 2 snoop all. -/
def State.nibClass (s : State) (sl : Slice) (l : LineAddr) (e : PEnt) (n : Nib) : Nat :=
  if !s.nibCurrent e.game n then 0
  else if Nib.dir n = 0b10 then 1
  else if Nib.dir n = 0b11 then 2
  else if Nib.dir n = 0b01 && s.blindLine sl l e then 2
  else 0

/-! ### Spill buckets (R136 to R142) -/

/-- The 128 bits of a spill entry (R138). -/
def spillBits (g : Game) (e : Entry) : BitVec 128 :=
  (1 : BitVec 1) ++ g ++ e.line ++ e.st.bits ++ b1 e.coarse.isSome ++ BitVec.ofNat 3 e.ptrs.length ++ e.sharers ++
  b1 e.amh ++ BitVec.ofNat 3 e.fwd ++ (0 : BitVec 35)

/-- Slot k of a bucket. -/
def bktSlot (b : Line) (k : Nat) : BitVec 128 := b.extractLsb' (128 * k) 128

/-- The slot is occupied: VALID and of the current game (R139). -/
def slotOccupied (g : Game) (x : BitVec 128) : Bool := bitAt x 127 && x.extractLsb' 119 8 == g

/-- The line a slot names. -/
def slotLine (x : BitVec 128) : LineAddr := x.extractLsb' 77 42

/-- The record a slot holds (R138); OPEN and KPIN are not stored. -/
def slotEntry (x : BitVec 128) : Entry :=
  { line := slotLine x, st := HState.ofBits (x.extractLsb' 75 2),
    ptrs := if bitAt x 74 then [] else ptrsOf (x.extractLsb' 39 32) (fieldN x 71 3),
    coarse := if bitAt x 74 then some (x.extractLsb' 39 32) else none,
    amh := bitAt x 38, fwd := fieldN x 35 3, opn := false, kpin := false }

/-- The occupied slot of a bucket that names a line. -/
def bktFind (g : Game) (b : Line) (l : LineAddr) : Option Nat :=
  (List.range 4).find? fun k => slotOccupied g (bktSlot b k) && slotLine (bktSlot b k) == l

/-- The lowest-numbered free slot of a bucket. -/
def bktFree (g : Game) (b : Line) : Option Nat := (List.range 4).find? fun k => !slotOccupied g (bktSlot b k)

/-- A bucket from its four slots, slot 0 lowest. -/
def bktOf (f : Nat → BitVec 128) : Line := f 3 ++ f 2 ++ f 1 ++ f 0

/-- A bucket write of an entry into slot k; VALID goes in every other slot that names the same line (R139). -/
def bktPut (g : Game) (b : Line) (k : Nat) (e : Entry) : Line :=
  bktOf fun j => if j = k then spillBits g e
    else if slotLine (bktSlot b j) == e.line then setBit (bktSlot b j) 127 false else bktSlot b j

/-- A bucket write that clears VALID of the slots that name a line (R141). -/
def bktClear (b : Line) (l : LineAddr) : Line :=
  bktOf fun j => if slotLine (bktSlot b j) == l then setBit (bktSlot b j) 127 false else bktSlot b j

/-- The contents of a bucket: an unwritten one reads 0 (log 11). -/
def State.bucket (s : State) (n : Nat) : Line := (kget n s.spill).getD 0

/-- The one form of the spill directory's list: buckets rise, and none that reads as an unwritten one is listed. -/
def spillWf (l : List (Nat × Line)) : Bool := ksorted l && l.all fun x => x.2 != 0

/-- Write a bucket; a bucket of zeros is unlisted. -/
def State.setBucket (s : State) (n : Nat) (b : Line) : State :=
  { s with spill := if b = 0 then kdel n s.spill else kset n b s.spill }

/-- The displacement slot and the counter's step (R143). -/
def Slice.displace (sl : Slice) : Nat × Slice :=
  (sl.dir.disp.toNat, { sl with dir := { sl.dir with disp := sl.dir.disp + 1 } })

/-! ### Reservation monitors (R280 to R284) -/

/-- Set a thread's monitor: rewritten, or a free one, or the least recently set (R280). -/
def setMonitor (ms : List Monitor) (t : ThreadId) (g : LineAddr) : List Monitor :=
  match ms.find? fun m => m.thread == t with
  | some m => ms.filter (fun x => x.thread != t) ++ [{ m with granule := g }]
  | none =>
    match lowestFree (ms.map (·.num)) 128 with
    | some n => ms ++ [⟨n, t, g⟩]
    | none => match ms with
        | [] => [⟨0, t, g⟩]
        | m :: r => r ++ [⟨m.num, t, g⟩]

/-- Clear every monitor on a granule except a thread's (R283). -/
def clearMonitors (ms : List Monitor) (g : LineAddr) (keep : Option ThreadId) : List Monitor :=
  ms.filter fun m => m.granule != g || keep == some m.thread

/-- The thread holds a reservation on the granule (C15). -/
def resOk (ms : List Monitor) (t : ThreadId) (g : LineAddr) : Bool :=
  ms.any fun m => m.thread == t && m.granule == g

/-- The thread of a request, if an agent sent it. -/
def Src.thread : Src → Option ThreadId
  | .agent p a t => some ⟨p, a, t⟩
  | .host .. => none
  | .director => none
  | .prefetch => none
  | .preload => none
  | .wayWalk => none
  | .sweeper => none

end Sys2Proof.Machine
end

