-- ==== Sys2Proof/Machine/Cache.lean ====
section
/-! DEFINITION. The memory-side cache of a slice, its victim buffer, WPQ and mirror (09), and the commands of the memory
ports (18). -/

namespace Sys2Proof.Machine

/-! ### Memory ports (R548 to R550) -/

/-- A new command conflicts with an outstanding one: a meta-only write and a line write of one line are never
outstanding together (R129). -/
def MemCmd.conflicts (a b : MemCmd) : Bool :=
  a.line == b.line && !b.givenUp &&
  ((a.kind == .write && b.kind == .metaWrite) || (a.kind == .metaWrite && b.kind == .write))

/-- Issue one command if a TAG is free and no conflicting command is outstanding; the lowest free TAG is used (log 6). -/
def MemPort.tryIssue (m : MemPort) (c : MemCmd) : Option MemPort :=
  if m.out.any fun o => c.conflicts o then none
  else match lowestFree (m.out.map (·.tag)) 256 with
    | some t => some { m with out := m.out ++ [{ c with tag := t }] }
    | none => none

/-- Issue the commands that wait, in order, as far as they can be. -/
def MemPort.drain (m : MemPort) : MemPort :=
  m.waiting.foldl (fun m c => match m.tryIssue c with
    | some m' => m'
    | none => { m with waiting := m.waiting ++ [c] }) { m with waiting := [] }

/-- A command before its port takes it. -/
def memCmd (kind : MemKind) (k : Bool) (na : Nat) (line : LineAddr) (nib : Nib) (data : Line) (poison : Bool) (owner : MemOwner) : MemCmd :=
  ⟨0, kind, k, na, 0, line, nib, data, poison, owner, false⟩

/-- The slice that ordered a memory-port command. -/
def MemOwner.phys : MemOwner → Option Nat
  | .lineRead p _ _ => some p
  | .bucketRead p _ _ => some p
  | .wpq p _ => some p
  | .metaW p _ _ => some p
  | .bucketW p _ _ => some p
  | .sweepRead p => some p
  | .resend p _ => some p
  | .director => none

/-- The tracker that a command serves; 0xFF for none (R445). -/
def MemOwner.trk : MemOwner → Nat
  | .lineRead _ n _ => n
  | .bucketRead _ n _ => n
  | .metaW _ n _ => n
  | .bucketW _ n _ => n
  | _ => 0xFF

/-- KIND of a command's flit (R446). -/
def MemCmd.meshKind (c : MemCmd) : Nat :=
  match c.kind, c.owner with
  | .metaWrite, _ => 0x43
  | .write, .bucketW .. => 0x45
  | .write, _ => 0x42
  | .read, .bucketRead .. => 0x44
  | .read, .lineRead _ _ keep => if keep then 0x40 else 0x41
  | .read, _ => 0x40

/-- The flit between a command's sender and its port: the near line address, KPRI with the tag of R110 (R445). -/
def MemCmd.flit (c : MemCmd) (port kind : Nat) (back len poison : Bool) : MeshMsg :=
  let own : Endpoint := match c.owner.phys with | some p => .slice p | none => .director
  { kpri := c.ktag, dst := if back then own else .mem port, src := if back then .mem port else own, kind := kind, len := len,
    poison := poison, trk := c.owner.trk, peer := 0, cls := if c.ktag then .k else .p, line := BitVec.ofNat 42 (c.na / 64), opq := c.tag }

/-- Give a command to the port that serves its near address, with the address that the port takes (R75); it waits while the port
cannot issue it. A line that it writes travels behind it (R30, R445). -/
def State.memSubmit (s : State) (c : MemCmd) : State :=
  let q := s.memPortOf c.na
  let f := c.flit q c.meshKind false false false
  let s1 := if c.kind == .write then s.meshData f c.poison else s.meshSend f
  s1.modMemPort q fun m => ({ m with waiting := m.waiting ++ [{ c with pa := s.portAddr c.na }] }).drain

/-- A port's answer to a command travels back: a line, or an acknowledgement (R446). -/
def State.memBack (s : State) (port : Nat) (c : MemCmd) (line poison : Bool) : State :=
  s.meshSend (c.flit port (if line then 0x28 else 0x29) true line poison)

/-- The command outstanding under a TAG. -/
def MemPort.cmd (m : MemPort) (tag : Nat) : Option MemCmd := m.out.find? fun c => c.tag == tag

/-- Free a TAG, then issue what waits. -/
def State.memFree (s : State) (m tag : Nat) : State :=
  s.modMemPort m fun x => ({ x with out := x.out.filter fun c => c.tag != tag }).drain

/-! ### Mirror updates (R313, R413) -/

/-- Send changes of the mirror as one update, unless the slice is unprotected (R420) or nothing changes. -/
def State.mirSend (s : State) (p : Nat) (ops : List MirOp) : State × Option Nat :=
  match s.slice p with
  | none => (s, none)
  | some sl =>
    if sl.ident.unprot then (s, none)
    else
      let u := sl.mir.uidNext
      let m := { sl.mir with link := sl.mir.link ++ [⟨u, ops⟩], uidNext := u + 1 }
      (s.modSlice p fun x => { x with mir := m }, some u)

/-- Apply one change to a mirror. -/
def MirOp.apply (op : MirOp) (d : List MirLine) (w : List (Nat × MirLine)) : List MirLine × List (Nat × MirLine) :=
  match op with
  | .putDirty r => (d.filter (fun x => x.line != r.line) ++ [r], w)
  | .delDirty l => (d.filter (fun x => x.line != l), w)
  | .putWpq i r => (d, kset i r w)
  | .delWpq i => (d, kdel i w)

/-- The mirror record of a cached line. -/
def CLine.mir (c : CLine) : MirLine := ⟨c.line, c.data, c.nib, c.poison⟩

/-! ### Lookup (R294, R297) -/

/-- Set of a line: A[17:6] XOR A[29:18] (R294). -/
def mscSet (l : LineAddr) : Nat := (l.extractLsb' 0 12 ^^^ l.extractLsb' 12 12).toNat

/-- The array's copy of a line. -/
def Slice.mscFind (sl : Slice) (l : LineAddr) : Option (Nat × CLine) := sl.msc.lines.find? fun x => x.2.line == l

/-- The newest victim-buffer entry of a line. -/
def Slice.vbFind (sl : Slice) (l : LineAddr) : Option VbEnt := (sl.msc.vb.filter fun v => v.cl.line == l).getLast?

/-- The newest WPQ entry of a line. -/
def Slice.wpqFind (sl : Slice) (l : LineAddr) : Option WpqEnt := (sl.msc.wpq.filter fun w => w.line == l).getLast?

/-- A present line is a hit (R297). -/
def Slice.present (sl : Slice) (l : LineAddr) : Bool := (sl.mscFind l).isSome || (sl.vbFind l).isSome

/-- The line as the lookup copies it into a line buffer: data, nibble, poison (R298). The array's copy is newest, then
the victim buffer's, then the WPQ's. -/
def Slice.lineData (sl : Slice) (l : LineAddr) : Option (Line × Nib × Bool) :=
  match sl.mscFind l with
  | some (_, c) => some (c.data, c.nib, c.poison)
  | none => match sl.vbFind l with
    | some v => some (v.cl.data, v.cl.nib, v.cl.poison)
    | none => match sl.wpqFind l with
      | some w => some (w.data, w.nib, w.poison)
      | none => none

/-- Dirty lines of the array and the victim buffer: an entry counts until it is freed (R305, R309). -/
def Slice.dirtyCount (sl : Slice) : Nat :=
  (sl.msc.lines.filter fun x => x.2.dirty).length + (sl.msc.vb.filter fun v => v.cl.dirty).length

/-- Free WPQ entries (R5). -/
def Slice.wpqRoom (sl : Slice) : Nat := 512 - sl.msc.wpq.length

/-- Note a hit on or a fill of a way (R303). -/
def Slice.mscTouch (sl : Slice) (i : Nat) : Slice :=
  { sl with msc := { sl.msc with plru := plruTouch 4 sl.msc.plru (i / 16) (i % 16) } }

/-- Write a way of the array. -/
def Slice.mscPut (sl : Slice) (i : Nat) (c : CLine) : Slice :=
  { sl with msc := { sl.msc with lines := kset i c sl.msc.lines } }

/-- Empty a way of the array. -/
def Slice.mscDel (sl : Slice) (i : Nat) : Slice :=
  { sl with msc := { sl.msc with lines := kdel i sl.msc.lines } }

/-- KLINE of every cached line of a page follows the page's pin (R295). -/
def Slice.kFollow (sl : Slice) (pg : Page) (k : Bool) : Slice :=
  let f (c : CLine) : CLine := if pageOf c.line == pg then { c with kline := k } else c
  { sl with msc := { sl.msc with lines := sl.msc.lines.map fun x => (x.1, f x.2), vb := sl.msc.vb.map fun v => { v with cl := f v.cl } } }

/-- Replace the victim buffer. -/
def Slice.setVb (sl : Slice) (v : List VbEnt) : Slice := { sl with msc := { sl.msc with vb := v } }

/-! ### Stored errors (R296, R321, R323, R404; log 9) -/

/-- A stored error met by an access to an array (R404, log 9): counted and removed when correctable. Answers the state and
whether one is beyond correction. -/
def State.meetErr (s : State) (p : Nat) (arr : ErrArr) (ev : Option Nat) (ce : Nat) (hit : Nat → Bool) : State × Bool :=
  match s.slice p with
  | none => (s, false)
  | some sl =>
    let mine := sl.obs.errs.filter fun e => e.arr == arr && hit e.idx
    if mine.isEmpty then (s, false)
    else if mine.any fun e => e.ue then (s, true)
    else
      let f (x : Slice) : Slice :=
        { x with obs := { x.obs with errs := x.obs.errs.filter fun e => !(e.arr == arr && hit e.idx),
                                     ce := x.obs.ce.modify ce fun c => min 0xFFFF (c + mine.length) } }
      let s1 := s.modSlice p f
      (match ev with | some e => s1.count p e none mine.length | none => s1, false)

/-- The errors that an access to an array meets count against their ways (R321). -/
def State.wayCount (s : State) (p : Nat) (arr : ErrArr) (hit : Nat → Bool) : State :=
  s.modSlice p fun sl =>
    let es := sl.obs.errs.filter fun e => e.arr == arr && hit e.idx
    { sl with msc := { sl.msc with wayErr := es.foldl (fun w e => kset (e.idx % 16) ((kget (e.idx % 16) w).getD 0 + 1) w) sl.msc.wayErr } }

/-- An uncorrectable error that an access to line data in a buffer has met (R404): it goes, and is counted (LINE_UE). -/
def State.lineUe (s : State) (p : Nat) (arr : ErrArr) (i : Nat) : State :=
  let f (x : Slice) : Slice :=
    { x with obs := { x.obs with errs := x.obs.errs.filter fun e => !(e.arr == arr && e.idx == i), ue := x.obs.ue.modify 1 fun c => min 0xFFFF (c + 1) } }
  (s.modSlice p f).count p 0x54 none

/-- Read the data of a victim-buffer entry or WPQ entry (R404): a correctable error is corrected and counted; an uncorrectable one
poisons the line. -/
def State.readBuf (s : State) (p : Nat) (arr : ErrArr) (i : Nat) (l : LineAddr) : State × Bool :=
  let d := s.meetErr p arr none 2 fun j => j == i
  if d.2 then ((d.1.lineUe p arr i).logPoison p l 1, true) else (d.1, false)

/-- Read the data of a way of the array (R296): a correctable error is corrected and counted; an uncorrectable one invalidates a
clean line and poisons a dirty one (R323), whose mirror update it answers. -/
def State.readWay (s : State) (p i : Nat) : State × List MirOp :=
  let d := (s.wayCount p .data fun j => j == i).meetErr p .data (some 0x51) 1 fun j => j == i
  if !d.2 then (d.1, [])
  else
    let drop (x : Slice) : Slice :=
      { x with obs := { x.obs with errs := x.obs.errs.filter fun e => !(e.arr == .data && e.idx == i), ue := x.obs.ue.modify 1 fun c => min 0xFFFF (c + 1) } }
    let s1 := d.1.modSlice p drop
    match (s1.slice p).bind fun sl => kget i sl.msc.lines with
    | none => (s1, [])
    | some c =>
      if !c.dirty then (s1.modSlice p fun x => x.mscDel i, [])
      else
        let c' : CLine := { c with poison := true }
        (((s1.modSlice p fun x => x.mscPut i c').logPoison p c.line 1).count p 0x54 none, [.putDirty c'.mir])

/-! ### WPQ (R308) -/

/-- Put a line into the WPQ: it replaces an earlier entry of the line that has not been issued, otherwise it takes a
new entry. The number of the entry is returned. -/
def Slice.wpqPut (sl : Slice) (l : LineAddr) (d : Line) (n : Nib) (po k : Bool) : Slice × Nat :=
  match sl.msc.wpq.find? fun w => w.line == l && !w.issued with
  | some w =>
    let q := sl.msc.wpq.map fun x => if x.wid == w.wid then ⟨w.wid, l, d, n, po, false, k || w.ktag⟩ else x
    ({ sl with msc := { sl.msc with wpq := q } }, w.wid)
  | none =>
    let w := sl.msc.widNext
    ({ sl with msc := { sl.msc with wpq := sl.msc.wpq ++ [⟨w, l, d, n, po, false, k⟩], widNext := w + 1 } }, w)

/-- Whether putting a line into the WPQ needs a free entry. -/
def Slice.wpqFits (sl : Slice) (l : LineAddr) : Bool :=
  (sl.msc.wpq.any fun w => w.line == l && !w.issued) || 0 < sl.wpqRoom

/-- The outcome of a cache operation: state, mirror changes, the WPQ entry it made, and whether the fill is pending
(R306). -/
structure CEff where
  s : State
  ops : List MirOp
  wid : Option Nat
  pend : Bool

/-- Put a line into the WPQ of a slice; its dirty record in the mirror, if any, becomes the WPQ record (R313). A newer dirty copy
in the array keeps its record. -/
def State.toWpq (s : State) (p : Nat) (l : LineAddr) (d : Line) (n : Nib) (po k : Bool) : CEff :=
  match s.slice p with
  | none => ⟨s, [], none, false⟩
  | some sl =>
    let (sl', w) := sl.wpqPut l d n po k
    let newer := match sl.mscFind l with | some (_, c) => c.dirty | none => false
    ⟨s.modSlice p fun _ => sl', (if newer then [] else [.delDirty l]) ++ [.putWpq w ⟨l, d, n, po⟩], some w, false⟩

/-- Drop victim-buffer entries of a line that the WPQ does not hold: a write straight to the WPQ supersedes them (R307). -/
def Slice.supersede (sl : Slice) (l : LineAddr) : Slice :=
  sl.setVb (sl.msc.vb.filter fun v => !(v.cl.line == l && !v.inWpq))

/-- The newest copy of a line goes to the WPQ: older victim-buffer entries of it that the WPQ does not hold are superseded
(R307, R308). -/
def State.newestToWpq (s : State) (p : Nat) (l : LineAddr) (d : Line) (n : Nib) (po k : Bool) : CEff :=
  (s.modSlice p fun x => x.supersede l).toWpq p l d n po k

/-- A line is written: a victim-buffer entry of it that waits only for the buddy's acknowledgement shows the new contents, so
that no lookup finds the old ones (R297, R307). -/
def Slice.vbRefresh (sl : Slice) (l : LineAddr) (d : Line) (n : Nib) (po : Bool) : Slice :=
  sl.setVb (sl.msc.vb.map fun v =>
    if v.cl.line == l && v.inWpq then { v with cl := { v.cl with data := d, nib := n, poison := po } } else v)

/-! ### Ways and victims (R303, R304) -/

/-- A way may take a fill: enabled, not being retired, neither locked nor a preload target. -/
def State.wayFills (s : State) (p : Nat) (sl : Slice) (w : Nat) : Bool :=
  !s.mscDis p w && !bitAt sl.msc.auto w && !(sl.msc.retiring.any fun r => r.1 == w) && !s.wayLocked p w

/-- A hold entry waits for the line. -/
def Slice.holdWaits (sl : Slice) (l : LineAddr) : Bool := sl.hold.any fun h => h.req.line == l

/-- A free victim-buffer entry (R305). -/
def Slice.vbFree (sl : Slice) : Option Nat := lowestFree (sl.msc.vb.map (·.num)) 32

/-- The way a fill takes: the lowest empty eligible way, else the least recently used eligible one (R303). `freed`:
the fill frees a victim-buffer entry (R307). -/
def State.fillWay (s : State) (p : Nat) (sl : Slice) (set : Nat) (freed : Bool) : Option Nat :=
  let room := freed || sl.vbFree.isSome
  let emptyOk (w : Nat) : Bool := s.wayFills p sl w && (kget (set * 16 + w) sl.msc.lines).isNone
  let ok (w : Nat) : Bool := s.wayFills p sl w &&
    match kget (set * 16 + w) sl.msc.lines with
    | none => true
    | some c => !sl.holdWaits c.line && (!c.dirty || room)
  match (List.range 16).find? emptyOk with
  | some w => some w
  | none => plruPick 4 sl.msc.plru set ok

/-- A fill whose victim would be a dirty line finds the victim buffer full, which is counted (R303, R464). -/
def State.noteFull (s : State) (p : Nat) (sl : Slice) (set : Nat) (freed : Bool) : State :=
  if freed || sl.vbFree.isSome then s
  else
    let dirty (w : Nat) : Bool := match kget (set * 16 + w) sl.msc.lines with | some c => c.dirty | none => false
    if (s.fillWay p sl set true).any dirty then s.count p 0x2B none else s

/-- A maintenance tracker of the page is in MG (R304). -/
def Slice.mgPage (sl : Slice) (pg : Page) : Bool :=
  sl.trk.any fun t => t.st == .mg && t.isMaint && pageOf t.req.line == pg

/-- Send a command to the tier engines under the lowest free CTAG (R556, log 6). A number of 256 or more stands for a
command that waits until one of the 256 tags frees. -/
def State.teSend (s : State) (op : TeOp) (use : PerUse) : State × Nat :=
  let used := s.dctl.te.map (·.ctag)
  let t := (lowestFree used (used.length + 1)).getD used.length
  ({ s with dctl := { s.dctl with te := s.dctl.te ++ [⟨t, op, use⟩] } }, t)

/-- Take a way for a new line: a clean victim is discarded, or offered to the migration buffer while its page is being
moved; a dirty one goes to the victim buffer (R304). Answers the mirror changes of an error that reading the victim meets. -/
def State.place (s : State) (p i : Nat) (c : CLine) : State × List MirOp :=
  match s.slice p with
  | none => (s, [])
  | some sl =>
    let put (x : Slice) : Slice := (x.mscPut i c).mscTouch i
    match kget i sl.msc.lines with
    | none => (s.modSlice p put, [])
    | some o0 =>
      if o0.line == c.line then (s.modSlice p put, [])
      else
        let r := if o0.dirty || sl.mgPage (pageOf o0.line) then s.readWay p i else (s, [])
        match (r.1.slice p).bind fun x => kget i x.msc.lines with
        | none => (r.1.modSlice p put, r.2)
        | some o =>
          if o.dirty then
            match sl.vbFree with
            | some v => (r.1.modSlice p fun x => put (x.setVb (x.msc.vb ++ [⟨v, o, false, false, none⟩])), r.2)
            | none => (r.1.modSlice p put, r.2)
          else
            let s1 := r.1.modSlice p put
            (if sl.mgPage (pageOf o.line) then (s1.teSend (.offerVictim o.line o.data) .none).1 else s1, r.2)

/-- The victim-buffer entry a reinstatement uses: the newest of the line not marked by CACHE 0b11 (R307). -/
def Slice.reinst (sl : Slice) (l : LineAddr) : Option VbEnt :=
  (sl.msc.vb.filter fun v => v.cl.line == l && !v.noReinst).getLast?

/-- A fill that finds no eligible way: skipped and counted, or pending for a class-K page (R306). -/
def State.noWay (s : State) (p : Nat) (k : Bool) : CEff :=
  if k then ⟨s, [], none, true⟩
  else
    ⟨(s.modSlice p fun x => { x with msc := { x.msc with fillsSkipped := x.msc.fillsSkipped + 1 } }).count p 0x23 none,
     [], none, false⟩

/-- Place a clean line in a way of its set. -/
def State.placeClean (s : State) (p : Nat) (c : CLine) : CEff :=
  match s.slice p with
  | none => ⟨s, [], none, false⟩
  | some sl =>
    let s0 := s.noteFull p sl (mscSet c.line) false
    match s0.fillWay p sl (mscSet c.line) false with
    | some w => let r := s0.place p (mscSet c.line * 16 + w) c; ⟨r.1, r.2, none, false⟩
    | none => s0.noWay p c.kline

/-- Fill a line clean (CACHE 0b01): R300, R306, R307, R319. `pf`: by prefetch or preload; a prefetch of a line that is present
is discarded (R302). -/
def State.fillClean (s : State) (p : Nat) (l : LineAddr) (d : Line) (n : Nib) (po k pf : Bool) : CEff :=
  match s.slice p with
  | none => ⟨s, [], none, false⟩
  | some sl =>
    if sl.msc.state != .enabled || (sl.mscFind l).isSome || (pf && sl.present l) then ⟨s, [], none, false⟩
    else
      match sl.reinst l with
      | some v =>
        -- R307: the entry comes back with its own marks, clean when the WPQ already carries it.
        let c := { v.cl with dirty := v.cl.dirty && !v.inWpq, pf := false, kline := k }
        let sl' := if v.inWpq then sl else sl.setVb (sl.msc.vb.filter fun x => x.num != v.num)
        let s0 := s.noteFull p sl' (mscSet l) (!v.inWpq)
        match s0.fillWay p sl' (mscSet l) (!v.inWpq) with
        | some w =>
          let put (x : Slice) : Slice := x.setVb sl'.msc.vb
          let r := (s0.modSlice p put).place p (mscSet l * 16 + w) c; ⟨r.1, r.2, none, false⟩
        | none => s0.noWay p k
      | none => s.placeClean p ⟨l, false, n, po, pf, k, d⟩

/-- A free enabled target slot of a set (R315): a way in which the preload walk may place a line. -/
def State.targetSlot (s : State) (p : Nat) (sl : Slice) (set : Nat) : Option Nat :=
  [12, 13, 14, 15].find? fun w => s.wayTarget p w && !s.mscDis p w && !bitAt sl.msc.auto w &&
    !(sl.msc.retiring.any fun r => r.1 == w) && (kget (set * 16 + w) sl.msc.lines).isNone

/-- The fill of a preload (R315): clean, with PF 1, into a free target slot of the set. -/
def State.fillTarget (s : State) (p : Nat) (l : LineAddr) (d : Line) (n : Nib) (po k : Bool) : CEff :=
  match s.slice p with
  | none => ⟨s, [], none, false⟩
  | some sl =>
    if sl.msc.state != .enabled || sl.present l then ⟨s, [], none, false⟩
    else match s.targetSlot p sl (mscSet l) with
      | some w => let r := s.place p (mscSet l * 16 + w) ⟨l, false, n, po, true, k, d⟩; ⟨r.1, r.2, none, false⟩
      | none => ⟨s, [], none, false⟩

/-- Write a line to the WPQ and not to the array (R311, R319, R420): `keep`: a cached copy stays, updated and clean;
otherwise it is invalidated. -/
def State.writeAround (s : State) (p : Nat) (l : LineAddr) (d : Line) (n : Nib) (po k keep : Bool) (ktag : Bool) : CEff :=
  let upd (sl : Slice) : Slice :=
    let sl := sl.vbRefresh l d n po
    match sl.mscFind l with
    | some (i, _) => if keep then sl.mscPut i ⟨l, false, n, po, false, k, d⟩ else sl.mscDel i
    | none => sl
  (s.modSlice p upd).newestToWpq p l d n po ktag

/-- Write a line to the WPQ, and leave it clean in the cache where it was present or its page is pinned as class K (R109, R311). -/
def State.writeThrough (s : State) (p : Nat) (l : LineAddr) (d : Line) (n : Nib) (po k ktag : Bool) : CEff :=
  let was := match s.slice p with | some sl => sl.present l | none => false
  let e := s.writeAround p l d n po k true ktag
  let held := match e.s.slice p with | some sl => (sl.mscFind l).isSome | none => true
  if held || !(was || k) then e
  else
    let f := e.s.placeClean p ⟨l, false, n, po, false, k, d⟩
    ⟨f.s, f.ops ++ e.ops, e.wid, f.pend⟩

/-- A count of dirty lines above HIGH_MARK starts the cleaning of the writeback walk (R310). -/
def State.cleanStart (s : State) (p : Nat) : State :=
  match s.slice p with
  | none => s
  | some sl => if s.dirtyHigh p < sl.dirtyCount then s.modSlice p fun x => { x with msc := { x.msc with walkBusy := true } } else s

/-- Write the line buffer dirty (CACHE 0b10): R300, R306, R307, R311, R319, R420. `around`: the data goes to the WPQ (R160). -/
def State.writeDirty (s : State) (p : Nat) (l : LineAddr) (d : Line) (n : Nib) (po k around ktag : Bool) : CEff :=
  match s.slice p with
  | none => ⟨s, [], none, false⟩
  | some sl =>
    if sl.msc.state != .enabled then s.writeAround p l d n po k false ktag
    else if sl.ident.unprot then
      (if k then s.writeThrough p l d n po k ktag else s.writeAround p l d n po k true ktag)
    else if around then
      (if k then s.writeThrough p l d n po k ktag else s.writeAround p l d n po k true ktag)
    else
      let c : CLine := ⟨l, true, n, po, false, k, d⟩
      let wasDirty := match sl.mscFind l with
        | some (_, o) => o.dirty
        | none => match sl.reinst l with | some v => v.cl.dirty && !v.inWpq | none => false
      -- R311: at the cap the line goes to the WPQ.
      if !wasDirty && 16384 ≤ sl.dirtyCount then (s.count p 0x24 none).writeThrough p l d n po k ktag
      else
        match sl.mscFind l with
        | some (i, _) =>
          let s0 := s.modSlice p fun x => x.vbRefresh l d n po
          ⟨(s0.modSlice p fun x => (x.mscPut i c).mscTouch i).cleanStart p, [.putDirty c.mir], none, false⟩
        | none =>
          let gone := match sl.reinst l with | some v => if v.inWpq then none else some v.num | none => none
          let freed (x : Slice) : Slice := match gone with | some n => x.setVb (x.msc.vb.filter fun y => y.num != n) | none => x
          let s1 := s.noteFull p (freed sl) (mscSet l) gone.isSome
          match s1.fillWay p (freed sl) (mscSet l) gone.isSome with
          | some w =>
            let r := ((s1.modSlice p fun x => x.vbRefresh l d n po).modSlice p freed).place p (mscSet l * 16 + w) c
            ⟨r.1.cleanStart p, r.2 ++ [.putDirty c.mir], none, false⟩
          | none =>
            if k then ⟨s1, [], none, true⟩ else s1.writeAround p l d n po k false ktag

/-- Invalidate a line, writing it back first if dirty (CACHE 0b11, R307, R314); its victim-buffer entries are marked. -/
def State.invalidate (s : State) (p : Nat) (l : LineAddr) : CEff :=
  let mark (x : Slice) : Slice := x.setVb (x.msc.vb.map fun v => if v.cl.line == l then { v with noReinst := true } else v)
  match s.slice p with
  | none => ⟨s, [], none, false⟩
  | some sl =>
    match sl.mscFind l with
    | some (i, c0) =>
      let r := if c0.dirty then s.readWay p i else (s, [])
      let c := match (r.1.slice p).bind fun x => kget i x.msc.lines with | some y => y | none => c0
      let s1 := r.1.modSlice p fun x => mark (x.mscDel i)
      if c.dirty then s1.newestToWpq p l c.data c.nib c.poison false else ⟨s1, [], none, false⟩
    | none => ⟨s.modSlice p mark, [], none, false⟩

/-- The step with CACHE 0b10 of a line may need a WPQ entry (R308): the entry its path takes is not there. -/
def State.writeBlocked (s : State) (p : Nat) (l : LineAddr) (k around : Bool) : Bool :=
  match s.slice p with
  | none => false
  | some sl => (s.writeDirty p l 0 0 false k around false).wid.isSome && !sl.wpqFits l

/-- Record a nibble in the array's tag; it counts as recorded with the data when the line is dirty. -/
def Slice.nibArray (sl : Slice) (l : LineAddr) (n : Nib) : Slice × List MirOp × Bool :=
  match sl.mscFind l with
  | some (i, c) =>
    let c' : CLine := { c with nib := n }
    if c.nib == n then (sl, [], c.dirty)
    else (sl.mscPut i c', if c.dirty then [MirOp.putDirty c'.mir] else [], c.dirty)
  | none => (sl, [], false)

/-- Record a nibble in the victim buffer; an entry that the WPQ does not hold records it with the line's data. -/
def Slice.nibVb (sl : Slice) (l : LineAddr) (n : Nib) : Slice × List MirOp × Bool :=
  let f (x : VbEnt) : VbEnt := if x.cl.line == l then { x with cl := { x.cl with nib := n } } else x
  let sl' := sl.setVb (sl.msc.vb.map f)
  match sl.msc.vb.find? fun v => v.cl.line == l && !v.inWpq with
  | some v => (sl', if v.cl.nib == n then [] else [MirOp.putDirty { v.cl with nib := n }.mir], true)
  | none => (sl', [], false)

/-- Record a nibble in a waiting WPQ entry. -/
def Slice.nibWpq (sl : Slice) (l : LineAddr) (n : Nib) : Slice × List MirOp × Bool :=
  match sl.msc.wpq.find? fun w => w.line == l && !w.issued with
  | some w =>
    let f (x : WpqEnt) : WpqEnt := if x.wid == w.wid then { x with nib := n } else x
    ({ sl with msc := { sl.msc with wpq := sl.msc.wpq.map f } },
     if w.nib == n then [] else [MirOp.putWpq w.wid ⟨l, w.data, n, w.poison⟩], true)
  | none => (sl, [], false)

/-- Record a nibble with a line's data where the line is dirty in the cache or waits in the WPQ (R127): state, mirror
changes, and whether it was recorded so. A clean cached copy takes the nibble too. -/
def State.recordNib (s : State) (p : Nat) (l : LineAddr) (n : Nib) : State × List MirOp × Bool :=
  match s.slice p with
  | none => (s, [], false)
  | some sl =>
    let a := sl.nibArray l n
    let b := a.1.nibVb l n
    let c := b.1.nibWpq l n
    (s.modSlice p fun _ => c.1, a.2.1 ++ b.2.1 ++ c.2.1, a.2.2 || b.2.2 || c.2.2)

/-- The line is dirty in the cache or waits in the WPQ. -/
def Slice.dirtyHere (sl : Slice) (l : LineAddr) : Bool :=
  (match sl.mscFind l with | some (_, c) => c.dirty | none => false) ||
  (sl.msc.vb.any fun v => v.cl.line == l && !v.inWpq) || (sl.msc.wpq.any fun w => w.line == l && !w.issued)

/-! ### Writing back (R310) -/

/-- A walk sends a dirty line to the WPQ, one mirror update for the change (R313); the line stays, clean. -/
def State.writeBack (s : State) (p i : Nat) (c0 : CLine) : State :=
  let s0 := (s.readWay p i).1
  let c := match (s0.slice p).bind fun x => kget i x.msc.lines with | some y => y | none => c0
  let s1 := s0.modSlice p fun x => x.mscPut i { c with dirty := false }
  let e := s1.newestToWpq p c.line c.data c.nib c.poison false
  ((e.s.mirSend p e.ops).1.count p 0x29 none)

end Sys2Proof.Machine
end

