-- ==== Sys2Proof/Machine/Flags.lean ====
section
/-! DEFINITION. Flags and interrupt outputs: what each source requests (R520), the outputs, the masks, the words of the
status registers that are computed from other state. -/

namespace Sys2Proof.Machine

/-- A word from a list of fields, each a low bit and a number. -/
def word32 (l : List (Nat × Nat)) : W32 := BitVec.ofNat 32 (l.foldl (fun a f => a + f.2 * 2 ^ f.1) 0)

/-- A truth value as a number. -/
def n1 (b : Bool) : Nat := if b then 1 else 0

/-- A list of truth values as bits, first lowest. -/
def bitsOf : List Bool → Nat
  | [] => 0
  | b :: r => n1 b + 2 * bitsOf r

/-- A slice that is not isolated, by physical number (R534). -/
def State.sliceIn (s : State) (p : Nat) : Option Slice :=
  match s.slice p with
  | some sl => if sl.ident.isolated then none else some sl
  | none => none

/-- A slice requests INT_EVENT: STARVE_IE and any bit of SL_ARB_STARVED (R98, R520). -/
def State.starveInt (s : State) (p : Nat) : Bool :=
  match s.sliceIn p with
  | some sl => bitAt (s.slReg p 0x008) 0 && sl.arb.starved != 0
  | none => false

/-- A slice requests INT_PLACE: preload DONE with PRELOAD_IE (R316, R520). -/
def State.preloadInt (s : State) (p : Nat) : Bool :=
  match s.sliceIn p with
  | some sl => bitAt (s.slReg p 0x008) 1 && sl.msc.pre.done
  | none => false

/-- The fabric block requests INT_EVENT (R520). -/
def State.fabricInt (s : State) : Bool :=
  let c := s.actReg 0x50020
  (bitAt c 31 && !s.ev.fifo.isEmpty) || (bitAt c 30 && s.ev.stale)

/-- The loader requests INT_EVENT (R486, R520). -/
def State.loaderInt (s : State) : Bool := s.ld.done && bitAt (s.actReg 0x10024) 30

/-- GL_INT_SRCk: the sources that request output k (R520, R522). -/
def State.intSrc (s : State) (k : Nat) : W32 :=
  let sl (f : Nat → Bool) : Nat := 256 * bitsOf ((List.range s.variant.phys).map f)
  BitVec.ofNat 32 <|
    if k = 0 then n1 (s.gl.latchErr || s.gl.setupFail)
    else if k = 1 then n1 s.gl.latchMaint + 64 * n1 s.loaderInt + 16 * n1 s.fabricInt + sl s.starveInt
    else if k = 2 then 2 * n1 ((s.eg.ints &&& (s.actReg 0x20018).setWidth 4) != 0)
    else if k = 3 then 4 * n1 (s.dctl.budgetInt || s.dctl.listInt) + sl s.preloadInt
    else 0

/-- Output k is high: 0 INT_ERR, 1 INT_EVENT, 2 INT_ENDGAME, 3 INT_PLACE (R520). -/
def State.intOut (s : State) (k : Nat) : Bool :=
  (s.intSrc k &&& ~~~ s.actReg (0x050 + 4 * k)) != 0

/-- GL_STATUS (R522). -/
def State.glStatus (s : State) : W32 :=
  word32 [(29, s.gl.phase.toNat), (28, n1 s.gl.anyCommit), (27, n1 s.gl.setupFail), (26, n1 s.pwr.warm), (25, n1 s.root.held)]

/-- GL_HOMEm (R522). -/
def State.glHome (s : State) (m : Nat) : W32 :=
  let ent (j : Nat) : Nat :=
    if s.variant.active ≤ 4 * m + j then 0
    else match s.cast.homes[4 * m + j]? with
      | some h => 128 * n1 h.valid + 64 * n1 h.stalled + 32 * n1 h.lost + h.phys % 32
      | none => 0
  word32 ((List.range 4).map fun j => (8 * j, ent j))

/-- PSTATE in three bits (R375). -/
def PState.code : PState → Nat
  | .off => 0
  | .debounce => 1
  | .start => 2
  | .normal => 3
  | .ride => 4
  | .drain => 5
  | .save => 6
  | .saved => 7

/-- EG_STATUS (R375). -/
def State.egStatus (s : State) : W32 :=
  word32 [(31, n1 s.eg.sensor), (30, n1 s.eg.shrunk), (29, n1 s.eg.calLoaded), (27, s.eg.inp.sel.toNat),
    (26, n1 s.eg.inp.efuseFlt), (25, n1 s.eg.inp.efuseRetry), (24, n1 s.eg.inp.gatePg), (23, n1 s.eg.inp.pwarn),
    (0, s.eg.pstate.code)]

/-- EG_RESTART (R397). -/
def State.egRestart (s : State) : W32 :=
  word32 [(31, n1 s.root.held), (30, n1 s.root.unsaved), (29, n1 s.root.rootBad), (28, n1 s.ld.fallback),
    (26, s.root.last.toNat), (0, s.root.poisoned.toNat)]

/-- LD_STATUS.STATE. -/
def LdState.code : LdState → Nat
  | .reset => 0
  | .sfdp => 1
  | .loading => 2
  | .rot => 3
  | .loaded => 4
  | .noImage => 5
  | .reloading => 6

/-- GL_PWR.PSTATE: P1 while every slice in service is gated (R502). -/
def State.pstate (s : State) : Nat :=
  match s.pwr.phase with
  | .entering => 3
  | .p2 => 2
  | .p0 =>
    let act := s.slices.filter fun x => x.ident.role.serves && !x.ident.isolated
    if !act.isEmpty && act.all (fun x => x.ident.gated) then 1 else 0

/-- The effective dirty budget B in pages: the smaller of DIRTY_BUDGET and the allowance in force (R353, R388). -/
def State.budgetPages (s : State) : Nat := min (262144 * s.pdBudgetGib) (4096 * s.eg.allow)

/-- EG_SAVE_EST in µs: the drain's 50 µs, 2 ms for each 32 GiB of DIRTY_BUDGET begun, and the save at SAVE_RATE (R392,
R384; log 24); 0 until CAL_LOADED (R525). -/
def State.saveEst (s : State) : Nat :=
  if !s.eg.calLoaded then 0
  else
    let rate := clamp 1000 200000 (fieldN (s.actReg 0x20054) 14 18)
    50 + 2000 * ((s.pdBudgetGib + 31) / 32) + (1073741824 * s.pdBudgetGib + rate - 1) / rate

end Sys2Proof.Machine
end

