-- ==== Sys2Proof/Machine/Placement.lean ====
section
/-! DEFINITION. The placement director's operations: page-map entries, frames and slots, moves, dirty marks, cleaning,
the clocks, chunk loads (10). -/

namespace Sys2Proof.Machine

/-! ### Page-map entries (R330 to R337) -/

/-- The 1 MiB chunk of the page map that holds a page's entry (R337). -/
def chunkOf (p : Page) : Nat := p.toNat / 131072

/-- Chunks of the page map (R337, R53). -/
def State.chunkCount (s : State) : Nat := (s.pagesEnd + 131071) / 131072

/-- The page's chunk is loaded. -/
def State.chunkIn (s : State) (p : Page) : Bool := (kget (chunkOf p) s.dir.loaded).isSome

/-- The entry a rebuild writes (R337). -/
def PEnt.fresh (game : Game) (pin : BitVec 3) : PEnt := ⟨0, 0, game, pin, false, false, 0, 0⟩

/-- The entry of a page in a loaded chunk; in a chunk not loaded, what its load would write now. -/
def State.pageEnt (s : State) (p : Page) : PEnt :=
  match kget p.toNat s.dir.pages with
  | some e => e
  | none => PEnt.fresh ((kget (chunkOf p) s.dir.loaded).getD (s.gl.game - 1)) ((kget p.toNat s.dir.classPins).getD 0)

/-- The 64 bits of an entry (R330). -/
def PEnt.bits (e : PEnt) : W64 :=
  e.tier ++ e.frame ++ e.game ++ e.classPin ++ b1 e.dirty ++ b1 e.mig ++ e.cslot ++ e.rsvd

/-- The page is pinned: bit 2 of CLASSPIN (R83). -/
def PEnt.pinned (e : PEnt) : Bool := bitAt e.classPin 2
/-- The page is pinned as class K (R83). -/
def PEnt.kpin (e : PEnt) : Bool := e.classPin == 0b100
/-- The page is in the plain near tier. -/
def PEnt.near (e : PEnt) : Bool := e.tier == 0b01

/-- An entry is corrupt (R332), its read's own error aside. -/
def State.corruptEnt (s : State) (e : PEnt) : Bool :=
  e.tier == 0b11 || ((e.tier == 0b10) != (e.cslot != 0)) || e.rsvd != 0 ||
  (if e.tier = 0b01 then (s.frameIdx (4096 * e.frame.toNat)).isNone
   else if e.tier = 0b10 then (s.slotIdx e.frame e.cslot).isNone else e.frame != 0)

/-- A read of a page's entry finds it corrupt (R332). -/
def State.entBad (s : State) (p : Page) : Bool := s.dir.entErrs.contains p || s.corruptEnt (s.pageEnt p)

/-- Write a page's entry in the page map and send it to the home slice (R335). -/
def State.setEnt (s : State) (p : Page) (e : PEnt) : State :=
  let s1 := { s with dir := { s.dir with pages := kset p.toNat e s.dir.pages, entErrs := s.dir.entErrs.filter (· != p) } }
  if (s1.net.any fun m => m == .entry p) then s1 else s1.send (.entry p)

/-- Change a page's entry. -/
def State.modEnt (s : State) (p : Page) (f : PEnt → PEnt) : State := s.setEnt p (f (s.pageEnt p))

/-- Log and rewrite a corrupt entry as persistent only, CLASSPIN from the persistent copy (R332). -/
def State.rewriteCorrupt (s : State) (p : Page) : State :=
  let s1 := s.logEv 0x12 1 srcDirector 0 (p.setWidth 64)
  let e := PEnt.fresh (s.pageEnt p).game ((kget p.toNat s.dir.classPins).getD 0)
  let c := if s.dir.corrupt.contains p then s.dir.corrupt else s.dir.corrupt ++ [p]
  { s1 with dir := { s1.dir with corrupt := c } }.setEnt p e

/-- The director reads a page's entry: a corrupt one is rewritten first (R332). -/
def State.readEnt (s : State) (p : Page) : State := if s.entBad p then s.rewriteCorrupt p else s

/-! ### Frames and slots (R333, R341, R350) -/

/-- The n-th number not in an ascending list. -/
def nthFree (used : List Nat) (n : Nat) : Nat := used.foldl (fun f u => if u ≤ f then f + 1 else f) n

/-- Free plain frames. -/
def State.freeFrames (s : State) : Nat := s.frameCount - s.dir.frames.length

/-- Take a free frame: which one is open (log 15). -/
def State.takeFrame (s : State) (p : Page) (heat : BitVec 8) : Option (Nat × State) :=
  if s.freeFrames = 0 then none
  else
    let f := nthFree (s.dir.frames.map (·.1)) (Config.freePick s.free % s.freeFrames)
    some (f, { s with free := s.free + 1, dir := { s.dir with frames := kset f ⟨p, heat⟩ s.dir.frames } })

/-- Slots of a pool in use. -/
def State.usedSlots (s : State) (k : Nat) : List (Nat × FrameEnt) :=
  s.dir.slots.filter fun x => s.poolFirst k ≤ x.1 && x.1 < s.poolFirst k + s.poolSlots k

/-- Free slots of a pool. -/
def State.freeSlots (s : State) (k : Nat) : Nat := s.poolSlots k - (s.usedSlots k).length

/-- Take a free slot of a pool: which one is open (log 15). -/
def State.takeSlot (s : State) (k : Nat) (p : Page) : Option (Nat × State) :=
  if s.freeSlots k = 0 then none
  else
    let used := (s.usedSlots k).map fun x => x.1 - s.poolFirst k
    let n := s.poolFirst k + nthFree used (Config.freePick s.free % s.freeSlots k)
    some (n, { s with free := s.free + 1, dir := { s.dir with slots := kset n ⟨p, 0⟩ s.dir.slots } })

/-- Put a number into an ascending list. -/
def insertNat (n : Nat) : List Nat → List Nat
  | [] => [n]
  | a :: r => if n < a then n :: a :: r else if n = a then a :: r else a :: insertNat n r

/-- Free a frame; a dirty bit left set is cleared and D lowered (R332). -/
def State.dropFrame (s : State) (f : Nat) : State :=
  let was := s.dir.dirtyFrames.contains f
  { s with dir := { s.dir with frames := kdel f s.dir.frames, dirtyFrames := s.dir.dirtyFrames.filter (· != f),
                               d := if was then s.dir.d - 1 else s.dir.d } }

/-- Free a slot, likewise. -/
def State.dropSlot (s : State) (n : Nat) : State :=
  let was := s.dir.dirtySlots.contains n
  { s with dir := { s.dir with slots := kdel n s.dir.slots, dirtySlots := s.dir.dirtySlots.filter (· != n),
                               d := if was then s.dir.d - 1 else s.dir.d } }

/-- Count a frame's page as dirty (R353). -/
def State.dirtyFrame (s : State) (f : Nat) : State :=
  if s.dir.dirtyFrames.contains f then s
  else { s with dir := { s.dir with dirtyFrames := insertNat f s.dir.dirtyFrames, d := s.dir.d + 1 } }

/-- Count a slot's page as dirty. -/
def State.dirtySlot (s : State) (n : Nat) : State :=
  if s.dir.dirtySlots.contains n then s
  else { s with dir := { s.dir with dirtySlots := insertNat n s.dir.dirtySlots, d := s.dir.d + 1 } }

/-- The frame number an entry names. -/
def State.entFrame (s : State) (e : PEnt) : Option Nat := if e.near then s.frameIdx (4096 * e.frame.toNat) else none

/-- The slot number an entry names. -/
def State.entSlot (s : State) (e : PEnt) : Option Nat := if e.tier == 0b10 then s.slotIdx e.frame e.cslot else none

/-! ### Moves (R338 to R347) -/

/-- The move of a page. -/
def State.moveOf (s : State) (p : Page) : Option Move := s.dir.moves.find? fun m => m.page == p

/-- Change the move of a page. -/
def State.modMove (s : State) (p : Page) (f : Move → Move) : State :=
  { s with dir := { s.dir with moves := s.dir.moves.map fun m => if m.page == p then f m else m } }

/-- The director may start moves and cleaning: not during a drain (R381), a P2 entry or P2 (R503), nor before the
restart's reconciliation. -/
def State.movesOpen (s : State) : Bool :=
  !s.eg.drainReq && s.pwr.phase == .p0 && !s.pwr.warm && s.gl.phase.toNat == 5

/-- Lines whose snoop-filter entry in the home slice is open (R130). -/
def State.openMarks (s : State) (p : Page) : BitVec 64 :=
  match (s.homeSlice p).bind s.slice with
  | some sl => sl.dir.sf.foldl (fun m x => if x.2.opn && pageOf x.2.line == p then setBit m (lineInPage x.2.line) true else m) 0
  | none => 0

/-- GLOW of a marked nibble: the current game's low bits (R556). -/
def State.glow (s : State) : BitVec 2 := s.gl.game.extractLsb' 0 2

/-- Begin a promotion's copy into its frame (R338, R332): a corrupt entry's page is written poisoned. -/
def State.startCopy (s : State) (m : Move) : State :=
  let e := s.pageEnt m.page
  let poison := m.poisonAll || s.dir.corrupt.contains m.page
  let marks := s.openMarks m.page
  let op := match s.entSlot e with
    | some n => if m.toPersist || poison then TeOp.copyToFrame (s.persistNo m.page) m.frame marks s.glow poison
                else TeOp.decompToFrame n e.cslot m.frame marks s.glow poison
    | none => TeOp.copyToFrame (s.persistNo m.page) m.frame marks s.glow poison
  let (s1, t) := s.teSend op .none
  s1.modMove m.page fun x => { x with stage := .copy, ctag := t, poisonAll := poison }

/-- A new move of a page, a promotion's frame taken: MIG is set (R338). -/
def State.newMove (s : State) (p : Page) (kind : MoveKind) (stage : MoveStage) (askers : List Nat) (frame : Nat) (forced : Bool) :
    State :=
  let m : Move := ⟨p, kind, stage, askers, frame, none, 0, 0, false, false, false, 0, forced, false⟩
  { s with dir := { s.dir with moves := s.dir.moves ++ [m] } }.modEnt p fun e => { e with mig := true }

/-- Start a demotion: MigStart to the home slice (R349, R341, R361). -/
def State.startDemotion (s : State) (p : Page) (forced : Bool) : State :=
  match s.homeSlice p with
  | some h => (s.newMove p .demotion .quiesce [h] 0 forced).send (.migStart h p .demotion)
  | none => s

/-- A frame's table entry and its page's entry point at each other (R332). -/
def State.frameOwned (s : State) (f : Nat) (x : FrameEnt) : Bool :=
  s.entFrame (s.pageEnt x.page) == some f || (s.dir.moves.any fun m => m.page == x.page && m.frame == f)

/-- The demotion clock passes a frame by: its page is pinned, lies in the hint window, is being moved
(R349), or belongs to a lost range (R429). -/
def State.clockSkips (s : State) (x : FrameEnt) : Bool :=
  (s.pageEnt x.page).pinned || s.inHint x.page || (s.moveOf x.page).isSome || (s.homeSlice x.page).isNone ||
  (s.dir.cleaning.any fun c => c.page == x.page)

/-- Used frames from a position on, wrapping. -/
def rotateFrom (l : List (Nat × FrameEnt)) (pos : Nat) : List (Nat × FrameEnt) :=
  l.filter (fun x => pos ≤ x.1) ++ l.filter (fun x => x.1 < pos)

/-- The page R341 demotes when the free stack is empty: among the next 64 frames the clock would visit and not skip, the
first clean one, else the first. -/
def State.demandVictim (s : State) : Option (Nat × Page) :=
  let c := ((rotateFrom s.dir.frames s.dir.demClock).filter fun x => s.frameOwned x.1 x.2 && !s.clockSkips x.2).take 64
  match c.find? fun x => !(s.pageEnt x.2.page).dirty with
  | some x => some (x.1, x.2.page)
  | none => (c.head?).map fun x => (x.1, x.2.page)

/-- A move may start (R338). -/
def State.moveRoom (s : State) : Bool := s.movesOpen && s.dir.moves.length < s.pdMoves

/-- No frame is free for a promotion: one unpinned near page is demoted first, whatever its heat (R341). It is a move of its own,
within MOVES_MAX (R338), and one at a time. -/
def State.makeRoom (s : State) : State :=
  if !s.moveRoom || (s.dir.moves.any fun m => m.kind == .demotion && m.forced) then s
  else match s.demandVictim with
    | some (f, v) => { s with dir := { s.dir with demClock := f + 1 } }.startDemotion v true
    | none => s

/-- Start the promotion of a page that is not plain near (R340): its PROMO waits where no frame is free (R341). -/
def State.startPromotion (s : State) (phys : Nat) (p : Page) : State :=
  match s.takeFrame p 255 with
  | some (f, s1) =>
    let s2 := s1.newMove p .demandPromotion .copy [phys] f false
    (match s2.moveOf p with | some m => s2.startCopy m | none => s2)
  | none => { s with dir := { s.dir with waiting := s.dir.waiting ++ [(phys, p)] } }.makeRoom

/-- A hint promotion takes its frame (R341) and begins with MigStart of kind promotion (R338); it does not begin where no frame is
free. -/
def State.startHintPromotion (s : State) (p : Page) : State :=
  match s.homeSlice p, s.takeFrame p 255 with
  | some h, some (f, s1) => (s1.newMove p .hintPromotion .quiesce [h] f true).send (.migStart h p .promotion)
  | some _, none => s.makeRoom
  | none, _ => s

/-- Take a PROMO (R340): a page already plain near is answered with MigDone at once (R344); a promotion under way takes
the tracker on; otherwise it starts or waits. -/
def State.takePromo (s : State) (phys : Nat) (p : Page) : State :=
  match s.moveOf p with
  | some m =>
    match m.kind with
    | .demandPromotion => s.modMove p fun m => { m with askers := if m.askers.contains phys then m.askers else m.askers ++ [phys] }
    | .hintPromotion => s.modMove p fun m => { m with askers := if m.askers.contains phys then m.askers else m.askers ++ [phys] }
    | .demotion => { s with dir := { s.dir with waiting := s.dir.waiting ++ [(phys, p)] } }
    | .slotEviction => { s with dir := { s.dir with waiting := s.dir.waiting ++ [(phys, p)] } }
  | none =>
    if (s.pageEnt p).near then s.send (.migDone phys p)
    else if s.moveRoom then s.startPromotion phys p
    else { s with dir := { s.dir with waiting := s.dir.waiting ++ [(phys, p)] } }

/-- Take up the PROMOs that wait for a move to end, for room or for a frame. -/
def State.kick (s : State) : State :=
  s.dir.waiting.foldl (fun s x => s.takePromo x.1 x.2) { s with dir := { s.dir with waiting := [] } }

/-- End a move: it is forgotten, MigDone goes to the slices that wait, and what waited goes on (R338, R340, R342). -/
def State.endMove (s : State) (m : Move) : State :=
  let s1 := { s with dir := { s.dir with moves := s.dir.moves.filter fun x => x.page != m.page } }
  (m.askers.foldl (fun s h => s.send (.migDone h m.page)) s1).kick

/-- Abort a move: MIG is cleared, TIER, FRAME and DIRTY stay (R343, R381). A frame or slot taken for it is released. -/
def State.abortMove (s : State) (m : Move) : State :=
  let s1 := s.modEnt m.page fun e => { e with mig := false }
  let s2 := match m.slot with | some (_, n) => s1.dropSlot n | none => s1
  let s3 := match m.kind with
    | .demandPromotion => s2.dropFrame m.frame
    | .hintPromotion => s2.dropFrame m.frame
    | .demotion => s2
    | .slotEviction => s2
  s3.endMove m

/-- The 64 lines of a page newly poisoned by the director, a record each (R434); `row` of R431. -/
def State.poisonPage (s : State) (p : Page) (row : Nat) : State :=
  (List.range 64).foldl (fun s n => s.logPoisonDir (pageLine p n) row) s

/-- The entry update that ends a promotion (R340). -/
def State.finishPromotion (s : State) (m : Move) : State :=
  let e := s.pageEnt m.page
  let wasDirty := e.dirty
  let s1 := if m.poisonAll then s.poisonPage m.page 8 else s
  let s2 := s1.setEnt m.page { e with tier := 0b01, frame := s.frameField m.frame, game := s.gl.game, mig := false, cslot := 0 }
  let s3 := match s.entSlot e with | some n => s2.dropSlot n | none => s2
  let s4 := if wasDirty then s3.dirtyFrame m.frame else s3
  { s4 with dir := { s4.dir with corrupt := s4.dir.corrupt.filter (· != m.page) } }.endMove m

/-- The move whose command a CTAG is. -/
def State.moveByTag (s : State) (t : Nat) (stages : List MoveStage) : Option Move :=
  s.dir.moves.find? fun m => m.ctag == t && stages.contains m.stage

/-- The tier-engine command outstanding under a CTAG. -/
def State.teCmd (s : State) (t : Nat) : Option TeCmd := s.dctl.te.find? fun c => c.ctag == t

/-- Rename a CTAG wherever it is kept. -/
def State.teRename (s : State) (a b : Nat) : State :=
  let r (t : Nat) : Nat := if t = a then b else t
  let fm (m : Move) : Move := if m.stage == .flush then { m with ctag := r m.ctag, len := r m.len } else { m with ctag := r m.ctag }
  let fc (c : Cleaning) : Cleaning := { c with ctag := r c.ctag }
  { s with dctl := { s.dctl with te := s.dctl.te.map fun c => { c with ctag := r c.ctag } },
           dir := { s.dir with moves := s.dir.moves.map fm, cleaning := s.dir.cleaning.map fc } }

/-- The marks of a copy or decompression are those of the time at which it is sent (R130, R556); a restart's copy of a class-K
page marks every line (R106). -/
def State.teMarks (s : State) (c : TeCmd) : TeCmd :=
  let marks (old : BitVec 64) : BitVec 64 :=
    match s.dir.moves.find? fun m => m.ctag == c.ctag && m.stage == .copy with | some m => s.openMarks m.page | none => old
  match c.op, c.use with
  | .copyToFrame p f old _ x, .none => { c with op := .copyToFrame p f (marks old) s.glow x }
  | .copyToFrame p f old _ x, _ => { c with op := .copyToFrame p f old s.glow x }
  | .decompToFrame n k f old _ x, _ => { c with op := .decompToFrame n k f (marks old) s.glow x }
  | _, _ => c

/-- A tier-engine command is answered: its CTAG is free, and the first command that waits for one takes it and is sent (R556). -/
def State.teFree (s : State) (t : Nat) : State :=
  let s1 := { s with dctl := { s.dctl with te := s.dctl.te.filter fun c => c.ctag != t } }
  match s1.dctl.te.find? fun c => 256 ≤ c.ctag with
  | some w =>
    let s2 := s1.teRename w.ctag t
    { s2 with dctl := { s2.dctl with te := s2.dctl.te.map fun c => if c.ctag = t then s2.teMarks c else c } }
  | none => s1

/-- A reserved status: logged, and taken as an error (R557). -/
def State.teStatus (s : State) (st : BitVec 4) : State :=
  if 9 ≤ st.toNat then s.logEv 0x14 1 srcDirector 0 0 else s

/-- The copy or decompression of a promotion has ended (R340, R347, R332). -/
def State.promotionCopied (s : State) (m : Move) (st : BitVec 4) : State :=
  if m.aborted then s.abortMove m
  else if st = 0x3 || st = 0x4 || st = 0x5 then
    let s1 := s.logEv 0x13 1 srcDirector 0 (m.page.setWidth 64)
    let m' := if (s.pageEnt m.page).dirty then { m with poisonAll := true } else { m with toPersist := true }
    s1.startCopy m'
  else s.finishPromotion m

/-- A demotion goes to the persistent tier: a dirty frame is copied first (R338). -/
def State.demoteToPersist (s : State) (m : Move) : State :=
  let e := s.pageEnt m.page
  match s.entFrame e with
  | some f =>
    if e.dirty then
      let (s1, t) := s.teSend (.copyToPersist f (s.persistNo m.page)) .none
      s1.modMove m.page fun x => { x with stage := .persist, ctag := t, toPersist := true }
    else
      (s.setEnt m.page { e with tier := 0, frame := 0, mig := false, cslot := 0 }).dropFrame f |>.endMove m
  | none => s.abortMove m

/-- Expected slot pool of a page: by its last compressed size, 2 KiB if none is known (R350). -/
def State.expectedPool (s : State) (p : Page) : Nat :=
  match s.dir.compSizes.find? fun x => x.1 == p with
  | some (_, n) => if n ≤ 1024 then 0 else if n ≤ 2048 then 1 else 2
  | none => 1

/-- A pool's free space is not below CFREE_LOW (R350). -/
def State.poolOk (s : State) (k : Nat) : Bool := 16777216 * s.pdCFreeLow ≤ s.freeSlots k * poolSlot k

/-- Compress the page's frame with the given code tables (R346). -/
def State.compress (s : State) (m : Move) (tables : BitVec 2) : State :=
  match s.entFrame (s.pageEnt m.page) with
  | some f =>
    let (s1, t) := s.teSend (.compress f tables s.cfg.growth) .none
    s1.modMove m.page fun x => { x with stage := .compress, ctag := t, tables := tables }
  | none => s.abortMove m

/-- Take DACK (R338, R339, R350): a hint promotion copies, a demotion compresses or goes to the persistent tier. -/
def State.takeDack (s : State) (p : Page) : State :=
  match s.moveOf p with
  | none => s
  | some m =>
    if m.stage != .quiesce then s
    else if m.aborted then s.abortMove m
    else
      let m := { m with dacked := true }
      let s := s.modMove p fun x => { x with dacked := true }
      match m.kind with
      | .demandPromotion => s
      | .slotEviction => s
      | .hintPromotion =>
        if (s.pageEnt p).near then s.abortMove m else s.startCopy m
      | .demotion =>
        if s.pdCompEnable && s.poolOk (s.expectedPool p) then
          s.compress m (if s.pdEffort = 1 then 1 else 0)
        else s.demoteToPersist m

/-- Take DNOTE (R343): after DACK it aborts a demotion whose entry update is not made. -/
def State.takeDnote (s : State) (p : Page) : State :=
  match s.moveOf p with
  | none => s
  | some m =>
    if m.kind == .demotion && m.dacked && !m.aborted then
      let s1 := s.modMove p fun x => { x with aborted := true }
      if m.stage == .compress then
        let (s2, t) := s1.teSend (.flush m.ctag) .none
        s2.modMove p fun x => { x with stage := .flush, len := t }
      else s1
    else s

/-- A flush is answered: the staging buffer is discarded and the demotion ends (R343). The flush's CTAG is in `len`. -/
def State.flushDone (s : State) (t : Nat) : State :=
  match s.dir.moves.find? fun m => m.stage == .flush && m.len == t with
  | some m => (s.teSend (.discard m.ctag) .none).1.abortMove { m with slot := none }
  | none => s

/-- The slot size for a compressed length (R345): its pool, if it fits. -/
def slotFor (len : Nat) : Option Nat :=
  if len + 4 ≤ 1024 then some 0 else if len + 4 ≤ 2048 then some 1 else if len + 4 ≤ 3072 then some 2 else none

/-- The compressor has ended (R345, R346). -/
def State.compressed (s : State) (m : Move) (st : BitVec 4) (len : Nat) : State :=
  if m.aborted then (s.teSend (.discard m.ctag) .none).1.abortMove m
  else
    match (if st = 0 then slotFor len else none) with
    | some k =>
      let sizes := (s.dir.compSizes.filter fun x => x.1 != m.page) ++ [(m.page, len + 4)]
      let s1 := { s with dir := { s.dir with compSizes := sizes } }
      match s1.takeSlot k m.page with
      | some (n, s2) =>
        let (s3, t) := s2.teSend (.storeSlot m.ctag n (BitVec.ofNat 2 (k + 1))) .none
        s3.modMove m.page fun x => { x with stage := .store, ctag := t, slot := some (BitVec.ofNat 2 (k + 1), n) }
      | none => (s1.teSend (.discard m.ctag) .none).1.demoteToPersist m
    | none =>
      let s1 := (s.teSend (.discard m.ctag) .none).1
      if m.tables = 0 && s.pdEffort = 2 then s1.compress m 1 else s1.demoteToPersist m

/-- The slot is stored: the demotion's entry update (R342, R345). -/
def State.slotStored (s : State) (m : Move) (st : BitVec 4) : State :=
  let e := s.pageEnt m.page
  match m.slot, s.entFrame e with
  | some (cs, n), some f =>
    if m.aborted || st != 0 then
      (if m.aborted then s else s.logEv 0x14 1 srcDirector 0 (m.page.setWidth 64)).abortMove m
    else
      let s1 := s.setEnt m.page { e with tier := 0b10, frame := s.slotField n, cslot := cs, mig := false }
      let s2 := s1.dropFrame f
      (if e.dirty then s2.dirtySlot n else s2).endMove m
  | _, _ => s.abortMove m

/-- The copy of a demotion to the persistent tier has ended (R342); a write error leaves the page where it is. -/
def State.demotedToPersist (s : State) (m : Move) (st : BitVec 4) : State :=
  let e := s.pageEnt m.page
  match s.entFrame e with
  | some f =>
    if m.aborted || st != 0 then
      (if m.aborted then s else s.logEv 0x14 1 srcDirector 0 (m.page.setWidth 64)).abortMove m
    else (s.setEnt m.page { e with tier := 0, frame := 0, dirty := false, mig := false }).dropFrame f |>.endMove m
  | none => s.abortMove m

/-- Start an eviction from the compressed tier (R338, R350). -/
def State.startEviction (s : State) (n : Nat) (p : Page) : State :=
  let e := s.pageEnt p
  let s1 := s.newMove p .slotEviction .persist [] 0 true
  if e.dirty then
    let (s2, t) := s1.teSend (.decompToPersist n e.cslot (s.persistNo p)) .none
    s2.modMove p fun x => { x with ctag := t }
  else
    let s2 := (s1.setEnt p { e with tier := 0, frame := 0, cslot := 0, mig := false }).dropSlot n
    match s2.moveOf p with | some m => s2.endMove m | none => s2

/-- The decompression of an eviction has ended (R338): the slot is released; on an error the page stays where it is. -/
def State.evicted (s : State) (m : Move) (st : BitVec 4) : State :=
  let e := s.pageEnt m.page
  match s.entSlot e with
  | some n =>
    if m.aborted then s.abortMove { m with slot := none }
    else if st != 0 then
      (s.logEv (if st = 3 || st = 4 || st = 5 then 0x13 else 0x14) 1 srcDirector 0 (m.page.setWidth 64)).abortMove { m with slot := none }
    else (s.setEnt m.page { e with tier := 0, frame := 0, cslot := 0, dirty := false, mig := false }).dropSlot n |>.endMove m
  | none => s.abortMove { m with slot := none }

/-- A home slice declines a demotion and returns the page's heat (R349). -/
def State.declineMove (s : State) (p : Page) (heat : BitVec 8) : State :=
  match s.moveOf p with
  | none => s
  | some m =>
    let s1 := match s.entFrame (s.pageEnt p) with
      | some f => { s with dir := { s.dir with frames := kset f ⟨p, heat⟩ s.dir.frames } }
      | none => s
    (s1.modEnt p fun e => { e with mig := false }).endMove { m with askers := [] }

/-- Write a page's heat into the frame table if it is plain near (R334). -/
def State.putHeat (s : State) (p : Page) (heat : BitVec 8) : State :=
  match s.entFrame (s.pageEnt p) with
  | some f => { s with dir := { s.dir with frames := kset f ⟨p, heat⟩ s.dir.frames } }
  | none => s

/-- Abandon every move whose entry update has not been made (R381): at once where no engine command is outstanding for
it, otherwise when that command is answered. -/
def State.abandonMoves (s : State) : State :=
  s.dir.moves.foldl (fun s m =>
    match m.stage with
    | .quiesce => s.abortMove m
    | _ => s.modMove m.page fun x => { x with aborted := true }) s

/-! ### Clocks (R349, R350) -/

/-- One visit of the demotion clock (R349, R332). -/
def State.demotionClock (s : State) : State :=
  let on := if s.freeFrames < 4096 * s.pdFreeLow then true else if 4096 * s.pdFreeHigh ≤ s.freeFrames then false else s.dir.demOn
  let s := { s with dir := { s.dir with demOn := on } }
  if !on || !s.movesOpen then s
  else
    match (rotateFrom s.dir.frames s.dir.demClock).head? with
    | none => s
    | some (f, x) =>
      let s1 := { s with dir := { s.dir with demClock := f + 1 } }.readEnt x.page
      if !s1.frameOwned f x then s1.dropFrame f
      else if s1.clockSkips x then s1
      else if s.pdCold < x.heat.toNat then { s1 with dir := { s1.dir with frames := kset f ⟨x.page, x.heat >>> 1⟩ s1.dir.frames } }
      else if s.moveRoom then s1.startDemotion x.page false
      else s

/-- A slot's table entry and its page's entry point at each other. -/
def State.slotOwned (s : State) (n : Nat) (x : FrameEnt) : Bool :=
  s.entSlot (s.pageEnt x.page) == some n || (s.dir.moves.any fun m => m.page == x.page && (m.slot.map (·.2)) == some n)

/-- One visit of a pool's eviction clock (R350, R332): ascending from its position, clean slots first (log 25). -/
def State.evictionClock (s : State) (k : Nat) : State :=
  let free := s.freeSlots k * poolSlot k
  let on := if free < 16777216 * s.pdCFreeLow then true
    else if 16777216 * s.pdCFreeHigh ≤ free then false else s.dir.slotOn.getD k false
  let s := { s with dir := { s.dir with slotOn := s.dir.slotOn.set k on } }
  if !on || !s.movesOpen then s
  else
    let l := rotateFrom (s.usedSlots k) (s.dir.slotClocks.getD k 0)
    match l.find? fun x => !s.slotOwned x.1 x.2 with
    | some (n, _) => { s with dir := { s.dir with slotClocks := s.dir.slotClocks.set k (n + 1) } }.dropSlot n
    | none =>
      let c := l.filter fun x => (s.moveOf x.2.page).isNone && (s.homeSlice x.2.page).isSome
      match (match c.find? fun x => !(s.pageEnt x.2.page).dirty with | some x => some x | none => c.head?) with
      | some (n, x) =>
        let s1 := { s with dir := { s.dir with slotClocks := s.dir.slotClocks.set k (n + 1) } }.readEnt x.page
        if !s1.slotOwned n x then s1.dropSlot n else if s.moveRoom then s1.startEviction n x.page else s
      | none => s

/-! ### Dirty marks and cleaning (R352 to R356) -/

/-- Acknowledge a dirty mark (R353). -/
def State.ackMark (s : State) (phys : Nat) (p : Page) : State := s.send (.markAck phys p)

/-- Grant a mark that finds D below B: DIRTY, the bitmap bit and D (R353). -/
def State.grantMark (s : State) (phys : Nat) (p : Page) : State :=
  let e := s.pageEnt p
  let s1 := s.setEnt p { e with dirty := true }
  (match s.entFrame e, s.entSlot e with
    | some f, _ => s1.dirtyFrame f
    | none, some n => s1.dirtySlot n
    | none, none => s1).ackMark phys p

/-- Take a dirty mark (R353): acknowledged at once for a page still counted or already dirty, granted while D is below B
and no earlier mark waits, otherwise kept in order. -/
def State.takeMark (s : State) (phys : Nat) (p : Page) : State :=
  let e := s.pageEnt p
  if e.dirty then s.ackMark phys p
  else if s.dir.cleaning.any fun c => c.page == p then
    let f (c : Cleaning) : Cleaning := if c.page == p then { c with remarked := true } else c
    (({ s with dir := { s.dir with cleaning := s.dir.cleaning.map f } }.setEnt p { e with dirty := true })).ackMark phys p
  else if s.dir.d < s.budgetPages && s.dir.marks.isEmpty then s.grantMark phys p
  else { s with dir := { s.dir with marks := s.dir.marks ++ [(phys, p)] } }

/-- Release the oldest waiting mark once D is below B (R353). A page that has become dirty meanwhile takes no budget. -/
def State.releaseMark (s : State) : State :=
  match s.dir.marks with
  | [] => s
  | (phys, p) :: r =>
    let s1 := { s with dir := { s.dir with marks := r } }
    if (s.pageEnt p).dirty then s1.ackMark phys p
    else if s.dir.d < s.budgetPages then s1.grantMark phys p
    else s

/-- Pages pinned as class K. -/
def State.kpinned (s : State) : Nat :=
  (s.dir.classPins.filter fun x => x.2 == 0b100).length

/-- Cleaning runs from above CLEAN_HIGH percent of B until CLEAN_LOW percent (R354). -/
def State.cleaningWanted (s : State) : Bool :=
  let b := s.budgetPages
  if s.pdCleanHigh * b < 100 * s.dir.d then true
  else if 100 * s.dir.d ≤ s.pdCleanLow * b then false else s.dir.cleaningOn

/-- Step 1 and 2 of R354 for the next dirty plain page: DIRTY 0 in the entry, a clean command to the home slice; a bitmap
position whose frame is not owned is freed (R332). -/
def State.startCleaning (s : State) : State :=
  let on := s.cleaningWanted
  let s := { s with dir := { s.dir with cleaningOn := on } }
  if !on || !s.movesOpen || s.pdMoves ≤ s.dir.cleaning.length then s
  else
    let order := s.dir.dirtyFrames.filter (fun f => s.dir.cleanPos ≤ f) ++ s.dir.dirtyFrames.filter (fun f => f < s.dir.cleanPos)
    let ok (f : Nat) : Bool := match kget f s.dir.frames with
      | some x => !s.frameOwned f x ||
          (!(s.pageEnt x.page).kpin && (s.moveOf x.page).isNone && !(s.dir.cleaning.any fun c => c.page == x.page))
      | none => true
    match order.find? ok with
    | none => s
    | some f =>
      let s1 := { s with dir := { s.dir with cleanPos := f + 1 } }
      match kget f s.dir.frames with
      | none => s1.dropFrame f
      | some x =>
        let s1 := s1.readEnt x.page
        if !s1.frameOwned f x then s1.dropFrame f
        else
          match s.homeSlice x.page with
          | none => s1
          | some h =>
            let c : Cleaning := ⟨x.page, f, false, 0, false⟩
            ({ s1 with dir := { s1.dir with cleaning := s1.dir.cleaning ++ [c] } }.modEnt x.page fun e =>
              { e with dirty := false }).send (.clean h x.page)

/-- The slice has acknowledged the clean command: the frame is copied to the persistent tier (R354 step 4). -/
def State.takeCleanAck (s : State) (p : Page) : State :=
  match s.dir.cleaning.find? fun c => c.page == p && !c.copying with
  | none => s
  | some c =>
    let (s1, t) := s.teSend (.copyToPersist c.frame (s.persistNo p)) .none
    let f (x : Cleaning) : Cleaning := if x.page == p then { x with copying := true, ctag := t } else x
    { s1 with dir := { s1.dir with cleaning := s1.dir.cleaning.map f } }

/-- The copy of a cleaning has ended (R354 step 5, and its error). An entry in which DIRTY is to be set again and that is found corrupt
is rewritten instead (R332), its frame and bit left to the clocks and the walk. -/
def State.cleaned (s : State) (c : Cleaning) (st : BitVec 4) : State :=
  let s1 := { s with dir := { s.dir with cleaning := s.dir.cleaning.filter fun x => x.page != c.page } }
  if st != 0 then
    ((if s1.entBad c.page then s1.rewriteCorrupt c.page
      else s1.modEnt c.page fun e => { e with dirty := true }).logEv 0x14 1 srcDirector 0 (c.page.setWidth 64)).kick
  else if c.remarked then s1.kick
  else
    ({ s1 with dir := { s1.dir with dirtyFrames := s1.dir.dirtyFrames.filter (· != c.frame),
                                    d := s1.dir.d - 1 } }).kick

/-- B has fallen below the class-K pages plus 262,144 (R356): refuse pins, raise INT_PLACE, log; or the opposite. -/
def State.checkBudget (s : State) : State :=
  let low := s.budgetPages < s.kpinned + 262144 && s.gl.phase.toNat == 5
  if low && !s.dctl.pinRefuse then
    { s with dctl := { s.dctl with pinRefuse := true, budgetInt := true } }.logEv 0x31 1 srcDirector 0 0
  else if !low && s.dctl.pinRefuse then { s with dctl := { s.dctl with pinRefuse := false } }
  else s

/-! ### Stamps, the game sweeper, chunks (R147, R149, R150, R337) -/

/-- Stamp a page's entry and the slice's cached copy with the current game number (R147). -/
def State.takeStamp (s : State) (phys : Nat) (p : Page) : State :=
  let s1 := s.modEnt p fun e => { e with game := s.gl.game }
  let f (x : Nat × PmWay) : Nat × PmWay :=
    if x.2.page == p then (x.1, { x.2 with ent := { x.2.ent with game := s.gl.game } }) else x
  (s1.modSlice phys fun sl => { sl with pm := sl.pm.map f }).send (.stampAck phys p)

/-- Visit one entry of the sweep (R149): an entry whose game lags by 64 or more is rewritten; a chunk not loaded is
passed by. -/
def State.sweepOne (s : State) : State :=
  let p : Page := BitVec.ofNat 36 s.dctl.sweepPage
  let s1 := if s.chunkIn p && 64 ≤ (s.gl.game - (s.pageEnt p).game).toNat
    then s.modEnt p fun e => { e with game := s.gl.game - 1 } else s
  let nxt := s.dctl.sweepPage + 1
  if s.pagesEnd ≤ nxt then
    { s1 with dctl := { s1.dctl with sweepPage := 0, sweepGame := s.gl.game, sweepIncs := 0, sweepFast := false } }
  else { s1 with dctl := { s1.dctl with sweepPage := nxt } }

/-- The sweeper's entries of one move (R150), once in each. -/
def State.sweep (s : State) : State :=
  if s.pagesEnd = 0 || !s.dctl.sweepDue then s
  else
    let s := { s with dctl := { s.dctl with sweepDue := false } }
    let n := if s.dctl.sweepFast then 4 * s.pdSweepRate else s.pdSweepRate
    n.rec s fun _ s => s.sweepOne

/-- A game increment counts toward the sweeper's pass (R150). -/
def State.sweepIncrement (s : State) : State :=
  let n := s.dctl.sweepIncs + 1
  let s1 := { s with dctl := { s.dctl with sweepIncs := n } }
  if n = 128 then { s1 with dctl := { s1.dctl with sweepFast := true } }.logEv 0x30 1 srcDirector 0 0 else s1

/-- Pages whose entries a waiting message, hint, list or reconciliation is about to use (R337, R340, R361, R398, R106). -/
def State.pagesWanted (s : State) : List Page :=
  (s.net.filterMap fun m => match m with
    | .promo _ p => some p
    | .mark _ p => some p
    | .stamp _ p => some p
    | .pmRead _ p => some p
    | _ => none) ++
  (s.dctl.ctxs.filterMap fun c => if c.stage == .page then some (c.line.extractLsb' 64 36 + BitVec.ofNat 36 c.idx) else none) ++
  s.dctl.list.cur.toList ++ s.root.poison ++ s.root.repin

/-- The chunk's turn has come (R337): an entry in it is about to be used, or every lower one is loaded. -/
def State.chunkTurn (s : State) (n : Nat) : Bool :=
  (s.pagesWanted.any fun p => chunkOf p == n) || (List.range n).all fun k => (kget k s.dir.loaded).isSome

/-- Load a chunk of the page map (R337): its entries are those of a rebuild, with the CLASSPINs the persistent copy
holds. -/
def State.loadChunk (s : State) (n : Nat) (pins : List (Page × BitVec 3)) : State :=
  if (kget n s.dir.loaded).isSome || s.chunkCount ≤ n then s
  else
    let mine := pins.filter fun x => chunkOf x.1 == n && x.2 != 0
    let cp := mine.foldl (fun l x => kset x.1.toNat x.2 l) (s.dir.classPins.filter fun x => x.1 / 131072 != n)
    { s with dir := { s.dir with loaded := kset n (s.gl.game - 1) s.dir.loaded, classPins := cp,
                                 pages := s.dir.pages.filter fun x => x.1 / 131072 != n
                                 entErrs := s.dir.entErrs.filter fun p => chunkOf p != n } }

/-- Pinned plain frames. -/
def State.pinnedFrames (s : State) : Nat :=
  (s.dir.frames.filter fun x => (s.pageEnt x.2.page).pinned).length

/-- The plain frames that pins may take (R357). -/
def State.pinLimit (s : State) : Nat := s.frameCount - 4096 * s.pdPinReserve

/-- Promote the pinned pages found in a chunk, within the frame limits (R337). -/
def State.promotePinned (s : State) (pins : List (Page × BitVec 3)) : State :=
  pins.foldl (fun s x =>
    if bitAt x.2 2 && !(s.pageEnt x.1).near && (s.moveOf x.1).isNone && s.moveRoom && s.pinnedFrames < s.pinLimit
    then s.startHintPromotion x.1 else s) s

end Sys2Proof.Machine
end

