-- ==== Sys2Proof/Machine/Operands.lean ====
section
/-! DEFINITION. Operand forms: byte enables and operands of partial writes, atomics and WrCond (R159, R230, R260), classes of
requests (R84 to R86), checks of host messages (R48, R52, R153, R158, R163) and of agent headers (R229, R230, R236, R273). -/

namespace Sys2Proof.Machine

open Sys2Proof

/-! ### Bytes of a line -/

/-- The bits of the bytes that byte enables name. -/
def lineMask (be : BitVec 64) : Line :=
  (List.range 64).foldl (fun m i => if bitAt be i then m ||| ((0xFF : Line) <<< (8 * i)) else m) 0

/-- The bytes of `new` under the byte enables, the others of `old` (R159). -/
def mergeBytes (old new : Line) (be : BitVec 64) : Line :=
  let m := lineMask be
  (old &&& ~~~m) ||| (new &&& m)

/-- Operand size in bytes (R228): 4, 8 or 16. -/
def opBytes (size : BitVec 2) : Nat := 4 * 2 ^ size.toNat

/-- Byte enables of an operand at an offset. -/
def opEnables (off : BitVec 6) (size : BitVec 2) : BitVec 64 := BitVec.ofNat 64 ((2 ^ opBytes size - 1) * 2 ^ off.toNat)

/-- Merge an operand, held in the low bytes of its data beat, into a line at its address (R198). -/
def putOperand (old beat : Line) (off : BitVec 6) (size : BitVec 2) : Line :=
  mergeBytes old (beat <<< (8 * off.toNat)) (opEnables off size)

/-! ### Atomic operations (R230, R260) -/

/-- The operand at an offset of a line. -/
def getOperand (l : Line) (off : BitVec 6) (size : BitVec 2) : Nat := fieldN l (8 * off.toNat) (8 * opBytes size)

/-- A number of n bits as a signed one. -/
def signedN (n v : Nat) : Int := if 2 ^ (n - 1) ≤ v then (v : Int) - (2 ^ n : Nat) else v

/-- The new value of an atomic; none: the line is left unchanged (a CAS that does not match). -/
def atomNew (aop : BitVec 4) (bits old opd swap : Nat) : Option Nat :=
  match aop.toNat with
  | 0 => some ((old + opd) % 2 ^ bits)
  | 1 => some opd
  | 2 => if old = opd then some swap else none
  | 3 => some (old &&& opd)
  | 4 => some (old ||| opd)
  | 5 => some (old ^^^ opd)
  | 6 => some (if signedN bits old < signedN bits opd then opd else old)
  | 7 => some (if signedN bits opd < signedN bits old then opd else old)
  | 8 => some (max old opd)
  | _ => some (min old opd)

/-- A near atomic on a line: the line after it, if it writes, and the Result beat with the old value in its low bytes
(R234, R260). A poisoned line is not written (R433). -/
def atomRun (l beat : Line) (poison : Bool) (aop : BitVec 4) (off : BitVec 6) (size : BitVec 2) : Option Line × Line :=
  let n := 8 * opBytes size
  let old := getOperand l off size
  let opd := fieldN beat 0 n
  let swap := fieldN beat n n
  let new := if poison then none else atomNew aop n old opd swap
  (new.map fun v => putOperand l (BitVec.ofNat 512 v) off size, BitVec.ofNat 512 old)

/-! ### Classes (R84 to R86) -/

/-- The class field of an agent request; none: it carries none of its own. -/
def agentClass (f : BitVec 3) : Option Cls := if f.toNat < 4 then some (Cls.ofBits (f.extractLsb' 0 2)) else none

/-- Class of a page by its class/pin field (R83); none: the page has none. -/
def pageClass (pin : BitVec 3) : Option Cls := if pin = 0 then none else some (Cls.ofBits (pin.extractLsb' 0 2))

/-- The lower of two precedences: a class above its ceiling takes the ceiling (R85). -/
def Cls.cap (c ceil : Cls) : Cls := if c.toNat < ceil.toNat then ceil else c

/-- Ceiling of a requester. -/
def State.ceilOf (s : State) (src : Src) : Cls :=
  match src with
  | .host _ h => s.hidCeil h
  | .agent p _ _ => s.apCeil p
  | _ => .k

/-- The class a slice gives a request (R85); `pin` the class/pin field of its page in the page-map cache, none when the
entry is not there. -/
def State.classOf (s : State) (src : Src) (own : Option Cls) (page : Page) (pin : Option (BitVec 3)) : Cls :=
  let dflt : Cls := match s.windowOf page with | some w => Cls.ofBits w.cls | none => .p
  let c := match pin.bind pageClass with
    | some c => c
    | none => own.getD dflt
  c.cap (s.ceilOf src)

/-! ### Addresses and ranges -/

/-- The address keeps R48 and R52: bits [51:48] zero, in a window in use. -/
def State.addrOk (s : State) (a : Addr) : Bool :=
  fieldN a 48 4 == 0 && (s.windowOf (pageOf (lineOf a))).isSome

/-- The address lies in a range that is lost, or the block has failed (R429, R430). -/
def State.lineLost (s : State) (l : LineAddr) : Bool :=
  s.gl.blockFailed || (match s.cast.homes[s.homeOf (pageOf l)]? with | some h => h.lost | none => false)

/-- The range of a line is stalled (R414). -/
def State.lineStalled (s : State) (l : LineAddr) : Bool :=
  match s.cast.homes[s.homeOf (pageOf l)]? with | some h => h.stalled | none => false

/-! ### Host messages (R67, R70, R151 to R163) -/

/-- The HID of a message: by its port, then LD-ID or SPID as the entry's KIND says (R67, R70). A message that matches one entry by its
LD-ID and another by its SPID, which R69 does not prevent, takes the lowest (log 58). -/
def State.hidOf (s : State) (port : Nat) (ldid : BitVec 4) (spid : BitVec 12) : Option Nat :=
  (List.range s.hids.length).find? fun h =>
    match s.hid h with
    | some x => x.valid && bitAt x.portMask port &&
        (if x.kind = 0 then true else if x.kind = 1 then x.value.extractLsb' 0 4 == ldid else x.kind == 2 && x.value == spid)
    | none => false

/-- MetaValue of a message as the block decodes it (R153); none: reserved. -/
def metaOf (f v : BitVec 2) : Option Meta :=
  if f = 3 then some .i
  else if f = 0 then (if v = 0 then some .i else if v = 2 then some .a else if v = 3 then some .s else none)
  else none

/-- The fields of a host request are accepted (R152, R153, R158). -/
def hostFieldsOk (k : Inp) (f v : BitVec 2) : Bool :=
  match k with
  | .memSpecRd => true
  | .memRdData => true
  | .biConflict => true
  | .memInv => metaOf f v == some .i || metaOf f v == some .a
  | .memInvNT => metaOf f v == some .i || metaOf f v == some .a
  | .memClnEvct => metaOf f v == some .i
  | .memWrPtl => metaOf f v == some .i
  | _ => (metaOf f v).isSome

/-- Why a host port refuses a message (R163): the condition in the order of R163, none when it is accepted. In an HDM-H
window MetaField and MetaValue are ignored (R162). -/
def State.hostRefusal (s : State) (k : Inp) (m : HostMsg) : Option Nat :=
  if !s.addrOk m.addr then some 0
  else match s.hidOf m.port m.ldid m.spid with
    | none => some 1
    | some h =>
      if !s.isHdmH (pageOf (lineOf m.addr)) && !hostFieldsOk k m.metaField m.metaValue then some 3
      else match s.hid h with
        | some x =>
          if x.st == .expiring || x.st == .fenced then some 4
          else if s.lineLost (lineOf m.addr) then some 5 else none
        | none => some 1

/-! ### Agent headers (R229, R230, R236, R262, R273) -/

/-- Opcode of an agent request (R229). -/
def opcOf (o : BitVec 6) : Option Inp :=
  [(0x10, Inp.rdShared), (0x11, .rdOwn), (0x12, .rdCur), (0x13, .upgrade), (0x14, .wbDirty), (0x15, .evictClean),
   (0x16, .atomicOp), (0x17, .rdRes), (0x18, .wrCond), (0x19, .fence)].findSome? fun (c, k) => if o.toNat = c then some k else none

/-- SIZE and AOP are defined for the opcode (R228, R230). -/
def operandOk (k : Inp) (size : BitVec 2) (aop : BitVec 4) : Bool :=
  match k with
  | .atomicOp => aop.toNat < 0xA && size != 3 && (size != 2 || aop == 2)
  | .wrCond => size != 3
  | .fence => aop.toNat < 3
  | _ => true

/-- The operand is naturally aligned (R273). -/
def operandAligned (k : Inp) (size : BitVec 2) (a : Addr) : Bool :=
  match k with
  | .atomicOp => fieldN a 0 6 % opBytes size == 0
  | .wrCond => fieldN a 0 6 % opBytes size == 0
  | _ => true

/-- The code of the error response an agent port gives a request (R236), none when it takes it. A disabled agent's every request is
refused under R246 alone; for a request that breaks several conditions R236 gives no order, and the one used here, OPC and operand
fields, then the address, then alignment, is the model's choice (log 60). -/
def State.agentRefusal (s : State) (a : AgentMsg) (silent : Bool) : Option (BitVec 3) :=
  if silent then some 0b110
  else match opcOf a.opc with
  | none => some 0b001
  | some k =>
    let io := s.isIoAtom a.port a.agent.toNat
    if !operandOk k a.size a.aop then some 0b001
    else if io && k != .atomicOp then some 0b001
    else if k == .fence then none
    else if !s.addrOk a.addr then some 0b010
    else if io && !s.inHint (pageOf (lineOf a.addr)) then some 0b010
    else if !operandAligned k a.size a.addr then some 0b100
    else none

end Sys2Proof.Machine
end

