-- ==== Sys2Proof/Machine/Table.lean ====
section
/-! DEFINITION. The coherence transition table: codes of states and inputs, cell and action words, the conditions, and the
reference entries of R203 to R215 (06; log 8, log 22). -/

namespace Sys2Proof.Machine

/-! ### Codes (R190, R191) -/

/-- The five-bit code of a state (R190). -/
def TSt.code : TSt → Nat
  | .i => 0x00
  | .s => 0x01
  | .e => 0x02
  | .x => 0x03
  | .isD => 0x04
  | .ieD => 0x05
  | .eb => 0x06
  | .sb => 0x07
  | .xs => 0x08
  | .xsW => 0x09
  | .wbx => 0x0A
  | .bc => 0x0B
  | .spF => 0x0C
  | .spW => 0x0D
  | .mg => 0x0E
  | .atN => 0x0F
  | .lrW => 0x10
  | .ca => 0x11

/-- Every state, in the order of its code. -/
def TSt.all : List TSt := [.i, .s, .e, .x, .isD, .ieD, .eb, .sb, .xs, .xsW, .wbx, .bc, .spF, .spW, .mg, .atN, .lrW, .ca]

/-- A stable state (R190). -/
def TSt.stable (t : TSt) : Bool := t.code < 4

/-- The six-bit code of an input (R191). -/
def Inp.code : Inp → Nat
  | .memRd => 0x00
  | .memRdData => 0x01
  | .memSpecRd => 0x02
  | .memInv => 0x03
  | .memInvNT => 0x04
  | .memClnEvct => 0x05
  | .memWr => 0x06
  | .memWrPtl => 0x07
  | .biConflict => 0x08
  | .biRspI => 0x09
  | .biRspS => 0x0A
  | .biRspE => 0x0B
  | .rdShared => 0x10
  | .rdOwn => 0x11
  | .rdCur => 0x12
  | .upgrade => 0x13
  | .wbDirty => 0x14
  | .evictClean => 0x15
  | .atomicOp => 0x16
  | .rdRes => 0x17
  | .wrCond => 0x18
  | .fence => 0x19
  | .rspI => 0x20
  | .rspS => 0x21
  | .rspFwd => 0x22
  | .rspWbData => 0x23
  | .rspIW => 0x24
  | .memData => 0x28
  | .memAck => 0x29
  | .spillHit => 0x2A
  | .spillMiss => 0x2B
  | .migStart => 0x2C
  | .migDone => 0x2D
  | .moveTick => 0x2E
  | .castleReplay => 0x2F
  | .selfCheck => 0x30

/-- The state of a snoop-filter entry as the lookup state (R203). -/
def HState.tst : HState → TSt
  | .free => .i
  | .s => .s
  | .e => .e
  | .x => .x

/-! ### Action words (R195, R196, R216 F12) -/

/-- The word holds a reserved value, nonzero reserved bits, or a stable NEXT with REEVAL and RETIRE both 0 (F12). -/
def Word.bad (w : Word) : Bool :=
  0x12 ≤ w.next.toNat || 5 ≤ w.hrsp.toNat || w.bisnp.toNat == 7 || 5 ≤ w.rsnp.toNat || 0xD ≤ w.holder.toNat || w.rsv != 0 ||
  (w.next.toNat < 4 && !w.reeval && !w.retire && !w.fault)

/-- NEXT as a state. -/
def Word.nextSt (w : Word) : TSt := (TSt.all[w.next.toNat]?).getD .i

/-- The 64 bits of a word (R195). -/
def Word.bits (w : Word) : W64 :=
  w.next ++ b1 w.retire ++ b1 w.reeval ++ w.hrsp ++ b1 w.hdata ++ w.bisnp ++ w.rsnp ++ w.arsp ++ w.mem ++ b1 w.nibw ++ w.ndir ++
  w.holder ++ b1 w.sfw ++ w.cache ++ b1 w.take ++ b1 w.mirror ++ b1 w.stamp ++ b1 w.arm ++ b1 w.promo ++ b1 w.dack ++
  b1 w.dnote ++ w.resv ++ b1 w.atom ++ b1 w.pois ++ b1 w.vstart ++ b1 w.sprec ++ b1 w.log ++ b1 w.fault ++ w.pevt ++ w.rsv

/-- A word from its 64 bits (R195). -/
def Word.ofBits (b : W64) : Word where
  next := b.extractLsb' 59 5
  retire := bitAt b 58
  reeval := bitAt b 57
  hrsp := b.extractLsb' 54 3
  hdata := bitAt b 53
  bisnp := b.extractLsb' 50 3
  rsnp := b.extractLsb' 47 3
  arsp := b.extractLsb' 44 3
  mem := b.extractLsb' 41 3
  nibw := bitAt b 40
  ndir := b.extractLsb' 38 2
  holder := b.extractLsb' 34 4
  sfw := bitAt b 33
  cache := b.extractLsb' 31 2
  take := bitAt b 30
  mirror := bitAt b 29
  stamp := bitAt b 28
  arm := bitAt b 27
  promo := bitAt b 26
  dack := bitAt b 25
  dnote := bitAt b 24
  resv := b.extractLsb' 22 2
  atom := bitAt b 21
  pois := bitAt b 20
  vstart := bitAt b 19
  sprec := bitAt b 18
  log := bitAt b 17
  fault := bitAt b 16
  pevt := b.extractLsb' 12 4
  rsv := b.extractLsb' 0 12

/-! ### Conditions (R193) -/

/-- The condition vector C0 to C28 of a step, named as in R193. -/
structure Cond where
  allAns : Bool := true
  ackZero : Bool := true
  mirDone : Bool := true
  dataIn : Bool := false
  others : Bool := false
  reqOwner : Bool := false
  amh : Bool := false
  nibc : Nat := 0
  metaA : Bool := false
  metaS : Bool := false
  kpin : Bool := false
  near : Bool := false
  wayOk : Bool := false
  slotFree : Bool := false
  resOk : Bool := false
  atomNear : Bool := false
  vic : Bool := false
  spillOn : Bool := false
  wbSeen : Bool := false
  wbOwed : Bool := false
  ptlRead : Bool := false
  poison : Bool := false
  illegal : Bool := false
  ownerAns : Bool := false
  maint : Bool := false
  replayEnd : Bool := false
  snooped : Bool := false
  direct : Bool := false

/-- Condition n of the vector; C29 to C31 read 0. -/
def Cond.bit (c : Cond) (n : Nat) : Bool :=
  ([c.allAns, c.ackZero, c.mirDone, c.dataIn, c.others, c.reqOwner, c.amh, c.nibc.testBit 0, c.nibc.testBit 1, c.metaA, c.metaS,
    c.kpin, c.near, c.wayOk, c.slotFree, c.resOk, c.atomNear, c.vic, c.spillOn, c.wbSeen, c.wbOwed, c.ptlRead, c.poison,
    c.illegal, c.ownerAns, c.maint, c.replayEnd, c.snooped, c.direct])[n]?.getD false

/-! ### Cells (R188, R189) -/

/-- The condition value v of a cell. -/
def cellValue (cell : BitVec 40) (c : Cond) : Nat :=
  (List.range (fieldN cell 37 3)).foldl (fun v j => if c.bit (fieldN cell (12 + 5 * j) 5) then v + 2 ^ j else v) 0

/-- The pool index that a cell selects; none where R188 or R189 makes the fetch an error. -/
def cellIndex (cell : BitVec 40) (c : Cond) : Option Nat :=
  let n := fieldN cell 37 3
  if 6 ≤ n || 4096 < fieldN cell 0 12 + 2 ^ n then none else some (fieldN cell 0 12 + cellValue cell c)

/-- Cell address of a state and input (R188). -/
def cellAddr (t : TSt) (i : Inp) : Nat := t.code * 64 + i.code

/-! ### Reference entries: what they look at beside the conditions -/

/-- The requester and the request as the reference entries see them. `reads`: a line read of the tracker is outstanding;
`names h`: the holder register names a holder after HOLDER h; `shr`: the Rook-ring snoop of the line is SnpShr;
`mig`: the kind of a MigStart, and whether a line of its page is recorded. -/
structure RefX where
  kind : Inp
  host : Bool
  reads : Bool
  names : BitVec 4 → Bool
  shr : Bool
  mig : Option MigKind
  recorded : Bool
  /-- The recorded state of a tracker in CA (R215). -/
  was : TSt

/-- HOLDER of a host request that is granted, by its MetaValue (R157). -/
def metaHolder (c : Cond) (a s i : BitVec 4) : BitVec 4 := if c.metaA then a else if c.metaS then s else i

/-- The word that declares an uncorrectable error in control state. -/
def Word.err : Word := { fault := true, retire := true }

/-- G:k for a host (R203). -/
def gHost (x : RefX) (r : BitVec 3) (data : Bool) (h : BitVec 4) : Word :=
  { retire := true, hrsp := r, hdata := data, holder := h, sfw := true, nibw := true, ndir := if x.names h then 0b01 else 0b00,
    cache := 0b01, stamp := true }

/-- G:k for an agent (R203). -/
def gAgent (x : RefX) (r : BitVec 3) (h : BitVec 4) : Word :=
  { retire := true, arsp := r, holder := h, sfw := true, nibw := true, ndir := if x.names h then 0b01 else 0b00,
    cache := 0b01, stamp := true }

/-- W: commit a write (R203). -/
def wCommit (x : RefX) (hrsp arsp : BitVec 3) (h : BitVec 4) : Word :=
  { next := 0x0A, take := true, cache := 0b10, mirror := true, hrsp := hrsp, arsp := arsp, holder := h, sfw := true, nibw := true,
    ndir := if x.names h then 0b01 else 0b00, stamp := true, resv := 0b10 }

/-- EB (R203). -/
def ebWord (c : Cond) : Word := { next := 0x06, bisnp := 0b001, rsnp := if c.amh then 0b001 else 0b000 }
/-- SB:Data and SB:Cur. -/
def sbWord (k : BitVec 3) : Word := { next := 0x07, bisnp := k }
/-- XS:Shr and XS:Cur. -/
def xsWord (k : BitVec 3) : Word := { next := 0x08, rsnp := k }
/-- ARSP Cmp, RETIRE. -/
def cmpRetire : Word := { arsp := 0b101, retire := true }
/-- A WrCond that fails at the slice: Result, RETIRE. -/
def resultRetire : Word := { arsp := 0b110, retire := true }
/-- A refused WbDirty: error response, LOG, RETIRE. -/
def wbRefused : Word := { arsp := 0b111, log := true, retire := true }

/-! ### Entries at lookup (R203 to R206) -/

/-- The request records a holder when it is granted on a line that no one holds (R203 order 1, R157). -/
def recordHolder (k : Inp) (c : Cond) : BitVec 4 :=
  match k with
  | .memRd => metaHolder c 0x2 0x1 0x0
  | .memRdData => 0x2
  | .memInv => metaHolder c 0x2 0x0 0x0
  | .memInvNT => metaHolder c 0x2 0x0 0x0
  | .memWr => metaHolder c 0x2 0xA 0x0
  | .rdShared => 0x8
  | .rdRes => 0x8
  | .rdOwn => 0x3
  | .upgrade => 0x3
  | .atomicOp => if c.atomNear then 0x0 else 0x3
  | _ => 0x0

/-- The request needs no invalidation: IS_D while it reads (R203 order 2). -/
def sharedRead (k : Inp) (c : Cond) : Bool :=
  match k with
  | .memRd => !c.metaA
  | .memRdData => true
  | .memSpecRd => true
  | .memClnEvct => true
  | .biConflict => true
  | .rdShared => true
  | .rdCur => true
  | .rdRes => true
  | _ => false

/-- The state of a read ordered for a request (R203 order 2). -/
def readState (k : Inp) (c : Cond) : BitVec 5 :=
  if k == .atomicOp && c.atomNear then 0x0F else if sharedRead k c then 0x04 else 0x05

/-- The request's line is read for its data, not for its nibble alone (R203 order 2, R125). -/
def needsData (k : Inp) (c : Cond) : Bool :=
  match k with
  | .memRd => true
  | .memRdData => true
  | .memSpecRd => true
  | .rdShared => true
  | .rdOwn => true
  | .rdCur => true
  | .rdRes => true
  | .upgrade => true
  | .atomicOp => true
  | .memWrPtl => c.ptlRead
  | .wrCond => c.resOk && c.ptlRead
  | _ => false

/-- The grant of the request carries data, or it executes near (R203 order 5). -/
def grantsData (k : Inp) : Bool :=
  match k with
  | .memRd => true
  | .memRdData => true
  | .rdShared => true
  | .rdOwn => true
  | .rdCur => true
  | .rdRes => true
  | .upgrade => true
  | .atomicOp => true
  | _ => false

/-- Cells of R204: a host request at lookup state t, nibble class 0b00. -/
def hostCell (t : TSt) (c : Cond) (x : RefX) : Word :=
  match x.kind with
  | .memRd =>
    if c.metaA && c.metaS then Word.err
    else if c.metaA then
      match t with
      | .s => if c.others then ebWord c else gHost x 3 true 0x2
      | .e => if c.reqOwner then gHost x 3 true 0x2 else ebWord c
      | .x => ebWord c
      | _ => gHost x 3 true 0x2
    else if c.metaS then
      match t with
      | .e => if c.reqOwner then gHost x 2 true 0xA else sbWord 0b010
      | .x => xsWord 0b010
      | _ => gHost x 2 true 0x1
    else
      match t with
      | .e => if c.reqOwner || c.snooped then gHost x 1 true 0x0 else sbWord 0b011
      | .x => xsWord 0b011
      | _ => gHost x 1 true 0x0
  | .memRdData =>
    match t with
    | .s => if c.others then gHost x 2 true 0x1 else gHost x 3 true 0x2
    | .e => if c.reqOwner then gHost x 3 true 0x2 else sbWord 0b010
    | .x => xsWord 0b010
    | _ => gHost x 3 true 0x2
  | .memSpecRd =>
    match t with
    | .e => { retire := true }
    | .x => { retire := true }
    | _ => { cache := 0b01, retire := true }
  | .memInv => invCell
  | .memInvNT => invCell
  | .memClnEvct =>
    if c.metaA || c.metaS then Word.err
    else match t with
      | .s => gHost x 1 false 0x4
      | .e => if c.reqOwner then gHost x 1 false 0x4 else gHost x 1 false 0x0
      | _ => gHost x 1 false 0x0
  | .memWr =>
    if c.metaA && c.metaS then Word.err
    else if (t == .s && c.others) || (t == .e && !c.reqOwner) || t == .x then ebWord c
    else wCommit x 1 0 (metaHolder c 0x2 0xA 0x4)
  | .memWrPtl =>
    if c.metaA || c.metaS then Word.err
    else if (t == .s && c.others) || (t == .e && !c.reqOwner) || t == .x then ebWord c
    else if c.ptlRead then { next := 0x05, mem := 0b001 } else wCommit x 1 0 0x4
  | .biConflict => { hrsp := 0b100, retire := true }
  | _ => Word.err
where
  /-- MemInv and MemInvNT. -/
  invCell : Word :=
    let grant := if c.metaA then gHost x 3 false 0x2 else gHost x 1 false 0x9
    if c.metaS then Word.err
    else match t with
      | .s => if c.others then ebWord c else grant
      | .e => if c.reqOwner then grant else ebWord c
      | .x => ebWord c
      | _ => grant

/-- Cells of R205: an agent request at lookup state t, nibble class 0b00. -/
def agentCell (t : TSt) (c : Cond) (x : RefX) : Word :=
  match x.kind with
  | .rdShared => shared
  | .rdRes => let w := shared; if w.retire then { w with resv := 0b01 } else w
  | .rdOwn => own
  | .rdCur =>
    match t with
    | .e => if c.snooped then gAgent x 3 0x0 else sbWord 0b011
    | .x => if c.reqOwner then gAgent x 3 0x0 else xsWord 0b011
    | _ => gAgent x 3 0x0
  | .upgrade =>
    match t with
    | .s => if !c.amh then own else if c.others then ebWord c else gAgent x 4 0x3
    | .x => if c.reqOwner then gAgent x 4 0x3 else ebWord c
    | _ => own
  | .wbDirty => if t == .x && c.reqOwner then wCommit x 0 5 0x7 else wbRefused
  | .evictClean => if t == .x && c.reqOwner then { cmpRetire with holder := 0x9, sfw := true } else cmpRetire
  | .atomicOp =>
    if c.atomNear then
      match t with
      | .s => if c.others then ebWord c else near
      | .e => ebWord c
      | .x => if c.reqOwner && !c.others then near else ebWord c
      | _ => near
    else own
  | .wrCond =>
    if !c.resOk then resultRetire
    else match t with
      | .s => if c.others then ebWord c else cond
      | .e => ebWord c
      | .x => if c.reqOwner then cond else ebWord c
      | _ => cond
  | _ => Word.err
where
  /-- RdShared, RdRes. -/
  shared : Word :=
    match t with
    | .e => sbWord 0b010
    | .x => if c.reqOwner then gAgent x 1 0x8 else xsWord 0b010
    | _ => gAgent x 1 0x8
  /-- RdOwn. -/
  own : Word :=
    match t with
    | .s => if c.others then ebWord c else gAgent x 2 0x3
    | .e => ebWord c
    | .x => if c.reqOwner then gAgent x 2 0x3 else ebWord c
    | _ => gAgent x 2 0x3
  /-- A near atomic: ATOM and W with Result. -/
  near : Word := { wCommit x 0 6 0x0 with atom := true }
  /-- A WrCond that succeeds; with PTL_READ its line is read first (R204). -/
  cond : Word := if c.ptlRead then { next := 0x05, mem := 0b001 } else wCommit x 0 6 0x0

/-- Entries of R206 for a MigStart. -/
def migCell (x : RefX) : Word :=
  match x.mig with
  | some .demotion => { next := 0x0E, bisnp := 0b110, rsnp := 0b001, dack := !x.recorded }
  | some .promotion => { next := 0x0E, dack := true }
  | none => Word.err

/-- The reference entry of a request at lookup: orders 1 to 5 of R203, then its cell. A result-slot read that consumes its
slot is treated as R366 states: as MemRd with MetaValue A until no other holder is left. -/
def refLookup (t : TSt) (c : Cond) (x : RefX) (consume : Bool) : Word :=
  if x.kind == .migStart then migCell x
  else if !c.near then
    match x.kind with
    | .memSpecRd => { retire := true }
    | .biConflict => { hrsp := 0b100, retire := true }
    | .memClnEvct => { hrsp := 0b001, retire := true }
    | k => let h := recordHolder k c
           { next := 0x0E, promo := true, holder := h, sfw := h != 0 }
  else if t == .i && c.nibc == 3 then { next := readState x.kind c, mem := if needsData x.kind c then 0b001 else 0b010 }
  else if t == .i && c.nibc == 1 && x.kind != .biConflict && x.kind != .memSpecRd then { next := 0x0C, mem := 0b101 }
  else if t == .i && c.nibc == 2 && x.kind != .biConflict && x.kind != .memSpecRd then { next := 0x0B, bisnp := 0b100, rsnp := 0b001 }
  else if x.kind == .memSpecRd && c.nibc != 0 then { retire := true }
  else
    let cell := if x.host then hostCell t c x else agentCell t c x
    let w := if consume && c.others then ebWord c else cell
    if c.dataIn then w
    else if w.hdata || w.arsp == 1 || w.arsp == 2 || w.arsp == 3 || w.atom || (x.kind == .memSpecRd && w.cache == 0b01) then
      { next := readState x.kind c, mem := 0b001 }
    else if (w.next == 0x06 || w.next == 0x07 || w.next == 0x08) && grantsData x.kind then { w with mem := 0b001 }
    else w

/-- The grant of a tracker that records its holders directly: as G without SFW and without the NIBW of G (R212). -/
def directGrant (w : Word) : Word := { w with sfw := false, nibw := false, ndir := 0 }

/-! ### Entries in transient states (R207 to R215) -/

/-- Exit of R207: the next state of an answer in state t. The data asked for is that of a read the tracker has outstanding
(log 22). -/
def exitWord (t : TSt) (c : Cond) (x : RefX) (w : Word) : Word :=
  if !c.allAns then { w with next := BitVec.ofNat 5 t.code }
  else if c.wbOwed then { w with next := 0x09 }
  else if c.dataIn || w.take || !x.reads then { w with reeval := true }
  else { w with next := BitVec.ofNat 5 t.code }

/-- R207: MemData in IS_D, IE_D and AT_N. -/
def readWord (ue : Bool) : Word :=
  if ue then { take := true, pois := true, cache := 0b10, nibw := true, ndir := 0b11, log := true }
  else { take := true, cache := 0b01 }

/-- R208, R210, R211: answers and side messages of the snooping states. -/
def snoopWord (t : TSt) (i : Inp) (c : Cond) (x : RefX) : Option Word :=
  let same := BitVec.ofNat 5 t.code
  let exit (w : Word) : Option Word := some (exitWord t c x w)
  let kept : BitVec 4 := if t == .xs || t == .xsW then 0xC else 0x7
  match i with
  | .biRspI => exit { holder := 0x5 }
  | .biRspS => if t == .sb then exit { holder := 0x6 } else none
  | .biRspE => if t == .sb then exit {} else none
  | .memWr => some { take := true, cache := 0b10, mirror := true, hrsp := 0b001, holder := 0x5, next := same }
  | .memWrPtl => some { take := true, cache := 0b10, mirror := true, hrsp := 0b001, holder := 0x5, next := same }
  | .memClnEvct => some { holder := 0x5, hrsp := 0b001, next := same }
  | .rspI => exit { holder := 0x7 }
  | .rspFwd => if x.host then exit { holder := 0x7, log := true } else exit { holder := if t == .xs && x.shr then 0xC else 0x7 }
  | .rspWbData => exit { take := true, cache := 0b10, mirror := true, holder := kept }
  | .rspIW => exit { holder := 0x7 }
  | .rspS => if t == .xs then exit { holder := 0xC } else exit { holder := 0x7, log := true }
  | .wbDirty => exit { take := true, cache := 0b10, mirror := true, arsp := 0b101 }
  | .evictClean => some { arsp := 0b101, next := same }
  | .memData => exit { take := true, cache := 0b01 }
  | _ => none

/-- R211: XS_W. A WbDirty of another port is taken as a side write and the wait goes on (log 22). -/
def xsWWord (i : Inp) (c : Cond) : Option Word :=
  match i with
  | .wbDirty =>
    if c.wbOwed then some { take := true, cache := 0b10, mirror := true, arsp := 0b101, next := 0x09 }
    else some { take := true, cache := 0b10, mirror := true, arsp := 0b101, holder := 0x7, reeval := true }
  | .evictClean =>
    if c.wbOwed then some { arsp := 0b101, next := 0x09 }
    else some { arsp := 0b101, holder := 0x7, log := true, reeval := true }
  | .memData => some { take := true, cache := 0b01, next := 0x09 }
  | .memWr => some { take := true, cache := 0b10, mirror := true, hrsp := 0b001, holder := 0x5, next := 0x09 }
  | .memWrPtl => some { take := true, cache := 0b10, mirror := true, hrsp := 0b001, holder := 0x5, next := 0x09 }
  | .memClnEvct => some { holder := 0x5, hrsp := 0b001, next := 0x09 }
  | _ => none

/-- R212: SP_F. `grant` is the word the request's own cell gives. -/
def spFWord (i : Inp) (c : Cond) (ue : Bool) (grant : Word) : Option Word :=
  match i with
  | .memData => some { readWord ue with next := 0x0C }
  | .spillHit => bucket true
  | .spillMiss => bucket false
  | _ => none
where
  /-- A bucket has come. -/
  bucket (hit : Bool) : Option Word :=
    if c.vic then
      if c.slotFree then some { next := 0x0D, mem := 0b110, nibw := true, ndir := 0b10 }
      else some { next := 0x0B, bisnp := 0b101, rsnp := if c.amh then 0b100 else 0b000 }
    else if c.direct then
      if c.slotFree then
        some { directGrant grant with sprec := true, mem := 0b110, nibw := true, ndir := 0b10, retire := false, next := 0x10 }
      else some { vstart := true, next := 0x0D }
    else if c.nibc == 1 then
      if hit then
        let w : Word := { holder := 0xB, sfw := true, mem := 0b110, nibw := true, ndir := 0b01 }
        some (if c.dataIn then { w with reeval := true } else { w with next := 0x04 })
      else some { next := 0x0B, bisnp := 0b100, rsnp := 0b001 }
    else some { reeval := true }

/-- The word answers the request: the direct record of R135 has a grant to go with. -/
def Word.grants (w : Word) : Bool := w.hrsp != 0 || w.hdata || w.arsp != 0 || w.retire

/-- R212: SP_W. A request whose wait holds back the restore of its spill entry or the record ahead of its promotion has no grant
to make yet, and waits on for a way (log 35). -/
def spWWord (i : Inp) (c : Cond) (grant : Word) : Option Word :=
  match i with
  | .moveTick =>
    if c.vic then none
    else if c.wayOk then some { reeval := true }
    else if c.kpin || !c.spillOn || !grant.grants then some { arm := true, next := 0x0D }
    else some { sprec := true, mem := 0b101, next := 0x0C }
  | .memAck =>
    if !c.vic && c.direct && c.ackZero then some (directGrant grant) else some { next := 0x0D }
  | _ => none

/-- R213: WBX and LR_W. -/
def ackWord (t : TSt) (i : Inp) (c : Cond) : Option Word :=
  match i with
  | .memAck =>
    if t == .wbx && !c.mirDone then some { next := 0x0A }
    else if c.ackZero then some { retire := true } else some { next := 0x10 }
  | _ => none

/-- R214: MG. -/
def mgWord (i : Inp) (c : Cond) : Option Word :=
  let done := c.allAns && !c.wbOwed
  if i == .migDone then if c.maint then some { holder := 0x9, sfw := true, retire := true } else some { reeval := true }
  else if !c.maint then none
  else match i with
    | .biRspI => some { holder := 0x5, dack := done, next := 0x0E }
    | .rspI => some { holder := 0x7, dack := done, next := 0x0E }
    | .rspIW => some { holder := 0x7, dack := done, next := 0x0E }
    | .rspWbData => some { take := true, cache := 0b10, mirror := true, holder := 0x7, dnote := true, dack := done, next := 0x0E }
    | .wbDirty => some { take := true, cache := 0b10, mirror := true, arsp := 0b101, dnote := true, dack := done, next := 0x0E }
    | .evictClean => some { arsp := 0b101, dack := done, next := 0x0E }
    | .memWr => some { take := true, cache := 0b10, mirror := true, hrsp := 0b001, holder := 0x5, dnote := true, next := 0x0E }
    | .memWrPtl => some { take := true, cache := 0b10, mirror := true, hrsp := 0b001, holder := 0x5, dnote := true, next := 0x0E }
    | .memClnEvct => some { holder := 0x5, hrsp := 0b001, next := 0x0E }
    | _ => none

/-- R215: CA. Answers and side messages act as R208, R210 and R211 state for the recorded state, and the tracker stays in
CA. -/
def caWord (i : Inp) (c : Cond) (x : RefX) : Option Word :=
  let stay (w : Word) : Option Word := some { w with next := 0x11, reeval := false }
  if i == .castleReplay then (if c.replayEnd then some { reeval := true } else stay {})
  else if i == .memData || i == .memAck || i == .spillHit || i == .spillMiss || i == .migDone then stay {}
  else match (if x.was == .xsW then xsWWord i c else if x.was == .mg then mgWord i c
      else snoopWord (if x.was == .sb || x.was == .xs then x.was else .eb) i c x) with
    | some w => stay w
    | none => stay {}

/-- The reference entry of an input in a transient state; none where the state does not list it (R217). `st` is the
tracker's or its victim's state; `grant` the word of the request's own cell, for DIRECT. -/
def refTransient (st : TSt) (i : Inp) (c : Cond) (x : RefX) (ue : Bool) (grant : Word) : Option Word :=
  match st with
  | .isD => if i == .memData then some { readWord ue with reeval := true } else none
  | .ieD => if i == .memData then some { readWord ue with reeval := true } else none
  | .atN => if i == .memData then some { readWord ue with reeval := true } else none
  | .eb => snoopWord .eb i c x
  | .sb => snoopWord .sb i c x
  | .xs => snoopWord .xs i c x
  | .bc => snoopWord .bc i c x
  | .xsW => xsWWord i c
  | .spF => spFWord i c ue grant
  | .spW => spWWord i c grant
  | .wbx => ackWord .wbx i c
  | .lrW => ackWord .lrW i c
  | .mg => mgWord i c
  | .ca => caWord i c x
  | .i => none
  | .s => none
  | .e => none
  | .x => none

end Sys2Proof.Machine
end

