-- ==== Sys2Proof/Machine/Messages.lean ====
section
/-! DEFINITION. What a slice sends: S2M messages, agent responses, BISnp and Rook-ring snoops, memory-port commands, stamps,
marks, mirror updates; undelivered messages and the return queue (R23, R165 to R181, R237, R249, R413). -/

namespace Sys2Proof.Machine

open Sys2Proof

/-! ### Page-map cache (R334, R335) -/

/-- Set of a page in the page-map cache (R334). -/
def pmSet (p : Page) : Nat := (p.extractLsb' 0 13 ^^^ p.extractLsb' 13 13).toNat

/-- The way that holds a page's entry. -/
def Slice.pmFind (sl : Slice) (p : Page) : Option (Nat × PmWay) := sl.pm.find? fun x => x.2.page == p

/-- The cached entry of a line's page. -/
def Slice.entOf (sl : Slice) (l : LineAddr) : Option PEnt := (sl.pmFind (pageOf l)).map fun x => x.2.ent

/-- The page-map entry of a line: the slice's copy, else the page map's own. -/
def State.lineEnt (s : State) (sl : Slice) (l : LineAddr) : PEnt := (sl.entOf l).getD (s.pageEnt (pageOf l))

/-- Note a hit on a way of the page-map cache. -/
def Slice.pmTouch (sl : Slice) (i : Nat) : Slice := { sl with pmPlru := plruTouch 3 sl.pmPlru (i / 8) (i % 8) }

/-- Heat of a page the slice has accepted a request to (R348). -/
def Slice.warm (sl : Slice) (p : Page) : Slice :=
  { sl with pm := sl.pm.map fun x => if x.2.page == p then (x.1, { x.2 with heat := satInc x.2.heat }) else x }

/-- Ask for a page's entry unless a read is outstanding (R335). -/
def State.pmRequest (s : State) (p : Nat) (pg : Page) : State :=
  match s.slice p with
  | none => s
  | some sl =>
    if sl.pmOut.any fun x => x.1 == pg then s
    else (s.modSlice p fun x => { x with pmOut := x.pmOut ++ [(pg, false)] }).send (.pmRead p pg)

/-- Class-K entries still to be loaded are asked for in the order of the pin list, with up to MOVES_MAX reads outstanding; what a
slice holds by now, or has no use for, is passed by (R423). -/
def State.kpLoads (s : State) : State :=
  let open_ (x : Nat × Page × Bool) : Bool := match s.slice x.1 with | some sl => sl.live && (sl.pmFind x.2.1).isNone | none => false
  let l := s.dctl.kpLoad.filter open_
  let go := (l.filter fun x => !x.2.2).take (s.pdMoves - (l.filter fun x => x.2.2).length)
  let put (x : Nat × Page × Bool) : Nat × Page × Bool := if go.contains x then (x.1, x.2.1, true) else x
  go.foldl (fun s x => s.pmRequest x.1 x.2.1) { s with dctl := { s.dctl with kpLoad := l.map put } }

/-- An entry read for a slice has come: the next one of the list is asked for. -/
def State.kpLoaded (s : State) (p : Nat) (pg : Page) : State :=
  if s.dctl.kpLoad.isEmpty then s
  else State.kpLoads { s with dctl := { s.dctl with kpLoad := s.dctl.kpLoad.filter fun x => !(x.1 == p && x.2.1 == pg) } }

/-! ### S2M messages (R71, R178 to R181) -/

/-- The port's link is up. -/
def State.hostUp (s : State) (port : Nat) : Bool :=
  match s.hostPort port with | some hp => hp.linkUp && !hp.inReset | none => false

/-- A HID that is being expired or is fenced. -/
def HidSt.leaving : HidSt → Bool
  | .expiring => true
  | .fenced => true
  | .undeclared => false
  | .unbound => false
  | .bound => false
  | .absent => false

/-- A HID is fenced (R167, R168, R180); `cause` as record 0x23 codes it. The sweep of R183 follows in `expireHid`. -/
def State.markFenced (s : State) (h cause : Nat) : State :=
  match s.hid h with
  | some x =>
    if x.st == .bound || x.st == .absent then
      (s.modHid h fun y => { y with st := .fenced, windowLeft := 0 }).logEv 0x23 2 srcHost h (BitVec.ofNat 64 cause)
    else s
  | none => s

/-- Messages of a slice in the order in which it first sent them (R181). -/
def insOrd (m : S2M) : List S2M → List S2M
  | [] => [m]
  | x :: r => if m.ord < x.ord then m :: x :: r else x :: insOrd m r

/-- A message that was not delivered and has no port: its header goes to the slice's return queue, or fences the HID when
the queue is full (R180); a DRS message is kept as its header. One for a HID that is Unbound, or whose entries R183 discards, is
dropped (log 59). -/
def State.queueReturn (s : State) (m : S2M) : State :=
  match s.hid m.hid with
  | none => s
  | some x =>
    if x.st == .expiring || x.st == .fenced || x.st == .unbound then s
    else match m.phys with
      | none => s
      | some p =>
        match s.slice p with
        | none => s
        | some sl =>
          if sl.retq.length < 256 then
            let h : S2M := match m.body with | .data t _ po => { m with body := .data t 0 po } | _ => m
            s.modSlice p fun x => { x with retq := insOrd h x.retq }
          else s.markFenced m.hid 2

/-- Put a message behind the last one that it may not pass: one ahead of which it does not go (R100), or one of its own sender
(R23). -/
def putAhead {α : Type} (stays : α → Bool) (m : α) : List α → List α
  | [] => [m]
  | x :: r => if stays x || r.any stays then x :: putAhead stays m r else m :: x :: r

/-- A port's messages with one more: the messages of a slice keep their order (R23); a class-K message and one of a raised
tracker go ahead of other classes' messages of other slices (R100). Messages of different slices have no order between them
(R23): the list keeps the order in which they were sent, which is the model's choice (log 57). -/
def addS2M (l : List S2M) (m : S2M) : List S2M :=
  if m.k then putAhead (fun x => x.k || x.phys == m.phys) m l else l ++ [m]

/-- MetaField of an S2M message: every NDR and DRS carries No-Op, 0b11 (R154); a BISnp has none. -/
def S2MBody.metaField : S2MBody → Option (BitVec 2)
  | .ndr .. => some 0b11
  | .data .. => some 0b11
  | .snp .. => none

/-- KIND of an S2M message's flit (R446). -/
def S2MBody.meshKind : S2MBody → Nat
  | .ndr .cmp _ => 0x47
  | .ndr .cmpS _ => 0x48
  | .ndr .cmpE _ => 0x49
  | .ndr .biConflictAck _ => 0x4A
  | .data .. => 0x4B
  | .snp k n => (match k with | .inv => 0x4C | .data => 0x4D | .cur => 0x4E) + (if n ≤ 1 then 0 else 3)

/-- A message of a slice travels to a host port: data on VC2 or VC3 (R30, R445). -/
def State.meshS2M (s : State) (port : Nat) (m : S2M) : State :=
  match m.phys with
  | none => s
  | some p =>
    let len : Bool := match m.body with | .data .. => true | _ => false
    let poison : Bool := match m.body with | .data _ _ x => x | _ => false
    let tag : Nat := match m.body with | .ndr _ t => t | .data t _ _ => t | .snp _ n => n
    s.meshSend { kpri := m.k, dst := .host port, src := .slice p, kind := m.body.meshKind, len := len, poison := poison, trk := 0xFF,
                 peer := m.hid, cls := if m.k then .k else .p, line := m.line, opq := tag }

/-- Put an S2M message among those of a port. -/
def State.putS2M (s : State) (port : Nat) (m : S2M) : State :=
  (s.meshS2M port m).modHostPort port fun hp => { hp with egress := addS2M hp.egress m }

/-- Messages that the slice has queued for the HID are still to be sent: a later one waits behind them (R181). -/
def State.queuedFor (s : State) (m : S2M) : Bool :=
  match m.phys.bind s.slice with | some sl => sl.retq.any fun x => x.hid == m.hid | none => false

/-- Send an S2M message on a port, or treat it as undelivered (R179, R180): again on the HID's snoop port, or queued. -/
def State.emitS2M (s : State) (port : Nat) (m : S2M) : State :=
  if s.queuedFor m then s.queueReturn m
  else if s.hostUp port then s.putS2M port m
  else match s.snoopPort m.hid with
    | some q => s.putS2M q m
    | none => s.queueReturn m

/-- A slice sends a message: it takes its place among those the slice has sent (R181). -/
def State.number (s : State) (m : S2M) : S2M × State :=
  match m.phys.bind s.slice, m.phys with
  | some sl, some p => ({ m with ord := sl.sent }, s.modSlice p fun x => { x with sent := x.sent + 1 })
  | _, _ => (m, s)

/-- Send an error response of a host port through the port itself (R163). -/
def State.hostError (s : State) (port hid : Nat) (k : Inp) (tag : Nat) (line : LineAddr) : State :=
  let ndr (op : Ndr) (s : State) : State := s.emitS2M port ⟨hid, line, none, .ndr op tag, false, 0⟩
  match k with
  | .memRd => ndr .cmp (s.emitS2M port ⟨hid, line, none, .data tag 0 true, false, 0⟩)
  | .memRdData => ndr .cmp (s.emitS2M port ⟨hid, line, none, .data tag 0 true, false, 0⟩)
  | .memSpecRd => s
  | .biConflict => ndr .biConflictAck s
  | _ => ndr .cmp s

/-- The setup walk has failed: the ports answer every request with the error response (R61). Without an image they grant no credit
and take none instead (R481). -/
def State.walkFailed (s : State) : Bool := s.gl.setupFail && s.gl.phase == 6 && s.ld.state != .noImage

/-! ### Agent responses (R234, R237, R238) -/

/-- A response of a slice travels to an agent port: a fence's answer has a KIND of its own (R30, R446). -/
def ARsp.flit (r : ARsp) (port : Nat) (fence : Bool) : MeshMsg :=
  { kpri := r.k, dst := .agent port, src := .slice r.phys, kind := if fence then 0x53 else 0x52, len := r.data.isSome, poison := r.poison,
    trk := 0xFF, peer := 4 * port + r.agent, cls := if r.k then .k else .p, line := r.line, opq := r.tag.toNat }

/-- Send a response or a fence's answer to an agent port: the slice's count for the port goes up (R237). -/
def State.putARsp (s : State) (port : Nat) (r : ARsp) (fence : Bool) : State :=
  ((s.meshSend (r.flit port fence)).modSlice r.phys fun sl => { sl with rspCnt := sl.rspCnt.modify port (· + 1) }).modAgentPort port fun a =>
    { a with inbound := if r.k then putAhead (fun x => x.k || x.phys == r.phys) r a.inbound else a.inbound ++ [r] }

/-- Send a response to an agent port. -/
def State.emitARsp (s : State) (port : Nat) (r : ARsp) : State := s.putARsp port r false

/-- Send a message of a slice. -/
def State.emit (s : State) (m : OutMsg) : State :=
  match m with
  | .host port b => let x := s.number b; x.2.emitS2M port x.1
  | .agent port r => s.emitARsp port r
  | .director tag d => { s with dctl := { s.dctl with slotDone := s.dctl.slotDone ++ [(tag, d)] } }

/-- Nothing holds the completion any more (R199, R306, R352, R420). -/
def Held.ready (h : Held) : Bool := h.mirror.isNone && !h.mark && h.write.isNone && !h.fill

/-- Send the held completions of a tracker that nothing holds any more, in order; the others stay held. -/
def releaseHeld : State → List Held → State × List Held
  | s, [] => (s, [])
  | s, h :: r =>
    if h.ready then releaseHeld (s.emit h.msg) r
    else
      let x := releaseHeld s r
      (x.1, h :: x.2)

/-! ### The Rook ring (R248 to R252) -/

/-- Ring stops in the order flits travel: a slice (true) or an agent port, and its number. -/
def ringStops : Variant → List (Bool × Nat)
  | .yzh16 =>
    [(true, 0), (true, 1), (false, 0), (true, 2), (true, 3), (false, 1), (true, 4), (true, 5), (false, 2), (true, 6), (true, 7), (false, 3)] ++
    [(true, 8), (true, 9), (false, 4), (true, 10), (true, 11), (false, 5), (true, 12), (true, 13), (false, 6), (true, 14), (true, 15),
     (false, 7), (true, 16)]
  | .yzh08 =>
    [(true, 0), (true, 1), (false, 0), (true, 2), (true, 3), (false, 1), (true, 4), (true, 5), (false, 2), (true, 6), (true, 7), (false, 3), (true, 8)]
  | .yzh04 => [(true, 0), (true, 1), (false, 0), (true, 2), (true, 3), (false, 1), (true, 4), (false, 2), (false, 3)]

/-- The stop of a slice or an agent port. -/
def stopOf (v : Variant) (isSlice : Bool) (n : Nat) : Nat := (ringStops v).idxOf (isSlice, n)

/-- KIND of a flit (R250). -/
def ASnp.ringKind : ASnp → Nat
  | .inv => 1
  | .shr => 2
  | .cur => 3
def AnsKind.ringKind : AnsKind → Nat
  | .rspI => 4
  | .rspS => 5
  | .rspFwd => 6
  | .rspWbData => 7
  | .rspIW => 8
/-- A KIND that a stop takes; it treats every other as a parity failure (R250). -/
def ringKindIn (k : Nat) : Bool := k ≤ 9

/-- A flit's header with PPAR over its payload and HPAR over the rest (R249). -/
def ringParityBits (h : BitVec 119) (payload : Line) : BitVec 128 :=
  let pp (i : Nat) : BitVec 1 := b1 (oddOnes 64 (payload.extractLsb' (64 * i) 64))
  let x := h ++ pp 7 ++ pp 6 ++ pp 5 ++ pp 4 ++ pp 3 ++ pp 2 ++ pp 1 ++ pp 0
  x ++ b1 (oddOnes 127 x)

/-- The payload of a snoop: byte p is the count for agent port p (R237, R249). -/
def SnpFlit.payload (f : SnpFlit) : Line :=
  (List.range 8).foldl (fun x p => x ||| ((f.counts.getD p 0).setWidth 512 <<< (8 * p))) 0

/-- The header of a snoop (R249): it is for the stop of the slice that sends it. -/
def SnpFlit.header (v : Variant) (f : SnpFlit) : BitVec 128 :=
  let st := BitVec.ofNat 5 (stopOf v true f.phys)
  ringParityBits (BitVec.ofNat 4 f.kind.ringKind ++ st ++ st ++ BitVec.ofNat 6 f.circ ++ b1 f.esc ++ f.dmask ++ BitVec.ofNat 3 f.reqPort ++
    BitVec.ofNat 2 f.reqAgent ++ b1 f.reqag ++ b1 f.fwdOk ++ BitVec.ofNat 3 f.fwdPort ++ BitVec.ofNat 8 f.trk ++ (0 : BitVec 2) ++ f.line ++
    (0 : BitVec 28)) f.payload

/-- The stop that a flit other than a snoop is for, and the one that injects it (R249). -/
def RingFlit.dst (v : Variant) : RingFlit → Nat
  | .answer h .. => stopOf v true h.phys
  | .fwdData _ p .. => stopOf v false p
def RingFlit.src (v : Variant) : RingFlit → Nat
  | .answer _ p .. => stopOf v false p
  | .fwdData p .. => stopOf v false p

/-- The header of a flit other than a snoop (R249). -/
def RingFlit.header (v : Variant) (f : RingFlit) : BitVec 128 :=
  let ends := BitVec.ofNat 5 (f.src v) ++ BitVec.ofNat 5 (f.dst v)
  match f with
  | .answer h _ d po c e =>
    ringParityBits (BitVec.ofNat 4 h.kind.ringKind ++ ends ++ BitVec.ofNat 6 c ++ b1 e ++ (0 : BitVec 8) ++ (0 : BitVec 10) ++
      BitVec.ofNat 8 h.trk ++ b1 (h.kind == .rspWbData) ++ b1 po ++ h.line ++ (0 : BitVec 28)) d
  | .fwdData _ p a l d di po c e =>
    ringParityBits ((9 : BitVec 4) ++ ends ++ BitVec.ofNat 6 c ++ b1 e ++ (0 : BitVec 8) ++ BitVec.ofNat 3 p ++ BitVec.ofNat 2 a ++
      (1 : BitVec 1) ++ (0 : BitVec 12) ++ b1 di ++ b1 po ++ l ++ (0 : BitVec 28)) d

/-- A flit is escalated (R252). -/
def RingFlit.escalate : RingFlit → RingFlit
  | .answer h p d po _ _ => .answer h p d po 32 true
  | .fwdData q p a l d di po _ _ => .fwdData q p a l d di po 32 true
def RingFlit.esc : RingFlit → Bool
  | .answer _ _ _ _ _ e => e
  | .fwdData _ _ _ _ _ _ _ _ e => e

/-- A flit with a bad payload travels on poisoned, its payload zero (R408). -/
def RingFlit.badPayload : RingFlit → RingFlit
  | .answer h p _ po c e => .answer h p 0 (po || h.kind == .rspWbData) c e
  | .fwdData q p a l _ di _ c e => .fwdData q p a l 0 di true c e

/-- The stop at which a flit waits to be injected. -/
def RingWait.stop (v : Variant) : RingWait → Nat
  | .snoop f => stopOf v true f.phys
  | .flit n _ => n

/-- Every slot of the ring, one at each stop, holds a flit (R251). -/
def State.ringFull (s : State) : Bool := (ringStops s.variant).length ≤ s.ringSnoops.length + s.ring.length

/-- A waiting flit enters an empty slot; its stop's claim is used up. -/
def State.ringPut (s : State) (w : RingWait) : State :=
  let n := w.stop s.variant
  let s1 := { s with fb := { s.fb with inject := eraseFirst (fun x => x == w) s.fb.inject, claims := s.fb.claims.filter fun c => c != n } }
  match w with
  | .snoop f => { s1 with ringSnoops := s1.ringSnoops ++ [f] }
  | .flit _ f => { s1 with ring := s1.ring ++ [f] }

/-- Empty slots take waiting flits: those of stops with a claim first, in the order of the claims, else the oldest (R251, log 52). -/
def State.ringFill : (fuel : Nat) → State → State
  | 0, s => s
  | k + 1, s =>
    if s.ringFull then s
    else match s.fb.claims.findSome? fun c => s.fb.inject.find? fun w => w.stop s.variant == c with
      | some w => State.ringFill k (s.ringPut w)
      | none => match s.fb.inject with
        | w :: _ => State.ringFill k (s.ringPut w)
        | [] => s

/-- A stop has a flit to inject: it waits for an empty slot (R251). -/
def State.ringInject (s : State) (w : RingWait) : State :=
  State.ringFill (s.fb.inject.length + 1) { s with fb := { s.fb with inject := s.fb.inject ++ [w] } }

/-- A flit has left the ring, `gone` its ESC and the stop that it was for: the ejection entry kept for an escalated one is free, and
the empty slot may be filled (R251, R252). -/
def State.slotFreed (s : State) (gone : Option (Bool × Nat)) : State :=
  match gone with
  | none => s
  | some (esc, stop) =>
    let s1 := if esc then { s with fb := { s.fb with escKeep := eraseFirst (fun x => x == stop) s.fb.escKeep } } else s
    State.ringFill s1.fb.inject.length s1

/-- The first flit that `hit` names leaves the ring. -/
def State.ringEject (s : State) (hit : RingFlit → Bool) : State :=
  { s with ring := eraseFirst hit s.ring }.slotFreed ((s.ring.find? hit).map fun (f : RingFlit) => (f.esc, f.dst s.variant))

/-! ### Snoops (R165, R169, R239, R249) -/

/-- Send a BISnp to a HID on its snoop port; an Absent HID's waits in the return queue (R179). -/
def State.sendBISnp (s : State) (p hid : Nat) (line : LineAddr) (kind : HSnp) (lines : Nat) (c : Option Cls) (k : Bool) : State :=
  let x := (s.count p 0x30 c).number ⟨hid, line, some p, .snp kind lines, k, 0⟩
  match x.2.snoopPort hid with
  | some q => x.2.emitS2M q x.1
  | none => x.2.queueReturn x.1

/-- DMASK of a snoop at injection: bits of ports the variant lacks are set (R249). -/
def dmask0 (v : Variant) : BitVec 8 := BitVec.ofNat 8 (256 - 2 ^ v.agents)

/-- Send a Rook-ring snoop: an answer of every port of the variant is awaited (R240, R249, R253). -/
def State.sendRSnp (s : State) (p trk : Nat) (kind : ASnp) (line : LineAddr) (vic : Bool) (src : Src) (fwdOk : Bool) (fwd : Nat)
    (retry : Bool) (c : Option Cls) : State :=
  let req : Bool × Nat × Nat := match src with
    | .agent q a _ => if vic then (false, 0, 0) else (true, q, a)
    | _ => (false, 0, 0)
  let counts : List (BitVec 8) := match s.slice p with | some sl => sl.rspCnt | none => []
  let f : SnpFlit := SnpFlit.mk p trk kind line vic (dmask0 s.variant) req.1 req.2.1 req.2.2 fwdOk fwd counts retry 0 false
  (s.count p 0x33 c).ringInject (.snoop f)

/-! ### Memory-port commands (R110, R129, R549) -/

/-- The tracker's actions take class-K precedence (R100, R110); a prefetch tracker's only when it is raised (R302). -/
def Tracker.ktag (t : Tracker) : Bool := (t.req.cls == .k && t.req.src != .prefetch) || t.raised

/-- Order a read of a line for a tracker; `keep` false for a nibble-only read (R125). -/
def State.readLine (s : State) (p : Nat) (t : Tracker) (e : PEnt) (l : LineAddr) (keep : Bool) : State :=
  let c := memCmd .read t.ktag (e.na l) l 0 0 false (.lineRead p t.num keep)
  let s1 := (s.count p 0x40 (some t.req.cls)).memSubmit c
  if t.ktag then s1.count p 0x43 none else s1

/-- Order a meta-only write of a nibble (R123, R129). -/
def State.writeNib (s : State) (p : Nat) (t : Tracker) (vic : Bool) (e : PEnt) (l : LineAddr) (n : Nib) : State :=
  let c := memCmd .metaWrite t.ktag (e.na l) l n 0 false (.metaW p t.num vic)
  let s1 := (s.count p 0x1A none).memSubmit c
  if t.ktag then s1.count p 0x43 none else s1

/-- Order a bucket read (R140). -/
def State.readBucket (s : State) (p : Nat) (t : Tracker) (l : LineAddr) (use : BktUse) : State :=
  let na := s.bucketAddr (s.bucketNo l)
  let c := memCmd .read t.ktag na (BitVec.ofNat 42 (na / 64)) 0 0 false (.bucketRead p t.num use)
  (s.count p 0x44 none).memSubmit c

/-- Order a bucket write; the region holds the new contents from then on. -/
def State.writeBucket (s : State) (p : Nat) (t : Tracker) (vic : Bool) (l : LineAddr) (b : Line) : State :=
  let k := s.bucketNo l
  let na := s.bucketAddr k
  let c := memCmd .write t.ktag na (BitVec.ofNat 42 (na / 64)) 0 b false (.bucketW p t.num vic)
  ((s.count p 0x45 none).setBucket k b).memSubmit c

/-! ### Bucket reservations (R140) -/

/-- The bucket a use of a tracker concerns. -/
def State.bktOf (s : State) (t : Tracker) (use : BktUse) : Nat :=
  match use, t.victim with
  | .victim, some v => s.bucketNo v.line
  | _, _ => s.bucketNo t.req.line

/-- A tracker may take a reservation of a bucket. -/
def Slice.bktRoom (sl : Slice) (b trk : Nat) : Bool :=
  sl.dir.bkt.all (fun x => x.1 != b || x.2 == trk) && ((sl.dir.bkt.any fun x => x == (b, trk)) || sl.dir.bkt.length < 32)

/-- Release a tracker's reservation of a bucket. -/
def Slice.bktRelease (sl : Slice) (b trk : Nat) : Slice :=
  { sl with dir := { sl.dir with bkt := sl.dir.bkt.filter fun x => x != (b, trk) } }

/-- Take a reservation of a bucket for a tracker. -/
def Slice.bktTake (sl : Slice) (b trk : Nat) : Slice :=
  { sl with dir := { sl.dir with bkt := if sl.dir.bkt.contains (b, trk) then sl.dir.bkt else sl.dir.bkt ++ [(b, trk)] } }

/-- The line a tracker's bucket read is for. -/
def Tracker.bktLine (t : Tracker) (use : BktUse) : LineAddr :=
  match use, t.victim with | .victim, some v => v.line | _, _ => t.req.line

/-- Issue a tracker's bucket read, under a reservation if it will write the bucket, or let it wait for one: the tracker as it is
then. A lookup whose bucket does not hold its line only reads (R140). -/
def State.bktIssue (s : State) (p : Nat) (t : Tracker) (use : BktUse) : State × Tracker :=
  match s.slice p with
  | none => (s, t)
  | some sl =>
    let b := s.bktOf t use
    let l := t.bktLine use
    let issued : Tracker := { t with bktOut := some use, bktWait := none }
    if use == .lookup && (bktFind s.gl.game (s.bucket b) l).isNone then (s.readBucket p t l use, issued)
    else if sl.bktRoom b t.num then ((s.modSlice p fun x => x.bktTake b t.num).readBucket p t l use, issued)
    else (s, { t with bktWait := some use })

/-- Trackers that wait for a reservation try again, in the order of their numbers. -/
def State.bktKick (s : State) (p : Nat) : State :=
  match s.slice p with
  | none => s
  | some sl =>
    sl.trk.foldl (fun s t =>
      match t.bktWait with
      | some u => let r := s.bktIssue p t u
                  r.1.modTrk p t.num fun _ => r.2
      | none => s) s

/-! ### Ring slots (R359, R363) -/

/-- The ring is enabled: below the count of rings in use. -/
def State.ringOn (s : State) (r : Nat) : Bool := r < s.pdRings

/-- Send the doorbell of a write committed to a ring slot of an enabled ring (R363). -/
def State.ringDoorbell (s : State) (l : LineAddr) : State :=
  match s.ringOf l with
  | some r => if s.ringOn r then s.send (.doorbell r) else s
  | none => s

end Sys2Proof.Machine
end

