-- ==== Sys2Proof/Machine/DataPath.lean ====
section
/-! DEFINITION. The data path: what each field of an action word does, in the order of R198, with the fixed behaviour of
R199, R201, R202, R284, R339, R352, R363 and R366. -/

namespace Sys2Proof.Machine

open Sys2Proof

/-- A step under way: the state, the slice, the tracker as the step changes it, the input, the word, whether it is a lookup's;
what earlier fields of the step have done: mirror changes, the WPQ entry made, a fill left pending, a dirty mark sent, a nibble
written, the line written, a mark still to be written on a line that no line buffer holds. -/
structure Run where
  s : State
  p : Nat
  t : Tracker
  m : InMsg
  w : Word
  look : Bool
  ops : List MirOp
  wid : Option Nat
  pend : Bool
  mark : Bool
  nibbed : Bool
  wrote : Bool
  marks : Bool

/-- A step that begins. -/
def Run.start (s : State) (p : Nat) (t : Tracker) (m : InMsg) (w : Word) (look : Bool) : Run where
  s := s
  p := p
  t := t
  m := m
  w := w
  look := look
  ops := []
  wid := none
  pend := false
  mark := false
  nibbed := false
  wrote := false
  marks := false

/-- The input is the tracker's own request at a lookup. -/
def Run.own (r : Run) : Bool := r.m.who.isNone && r.m.inp == r.t.req.kind && !r.m.side

/-- The step concerns a line that the tracker's line buffer does not hold: the victim's, or a line of a page being moved
(R198). -/
def Run.away (r : Run) : Bool := r.m.vic || r.t.req.kind == .migStart

/-- The slice. -/
def Run.sl (r : Run) : Slice := (r.s.slice r.p).getD (Slice.blank 0 0)

/-- The page-map entry of the line. -/
def Run.ent (r : Run) : PEnt := r.s.lineEnt r.sl r.m.line

/-- The line's page is pinned as class K. -/
def Run.kpin (r : Run) : Bool := r.ent.kpin

/-- Change the slice. -/
def Run.modSl (r : Run) (f : Slice → Slice) : Run := { r with s := r.s.modSlice r.p f }

/-- Add an outstanding acknowledgement. -/
def Run.ack (r : Run) (k : AckKind) : Run := { r with t := { r.t with acks := r.t.acks ++ [⟨k, r.m.vic⟩] } }

/-- The requester of the tracker, or the sender of a side message. -/
def Run.who (r : Run) : Req := match r.m.req with | some q => q | none => r.t.req

/-- A value the manual does not state (log 7). -/
def State.drawLine (s : State) : Line × State := (Config.freeLine s.free, { s with free := s.free + 1 })

/-! ### TAKE, ATOM, POIS (R198, R258 to R260, R433) -/

/-- The line an own write leaves in the line buffer, and its mark (R198, R200). -/
def mergeOwn (q : Req) (old : Line) (oldPoison : Bool) : Line × Bool :=
  match q.kind with
  | .memWr => (q.data, q.poison)
  | .wbDirty => (q.data, q.poison)
  | .memWrPtl => (mergeBytes old q.data q.be, oldPoison || q.poison)
  | .wrCond => (putOperand old q.data q.off q.size, oldPoison || q.poison)
  | _ => (old, oldPoison)

/-- The line that a message's data gives over what is known of it: a whole line, or the bytes of a partial write over the known
line or the line read for it (R159). -/
def takeData (s : State) (m : InMsg) (old : Option (Line × Bool)) : Line × Bool × State :=
  if m.be = BitVec.allOnes 64 then (m.data, m.poison, s)
  else match (match old with | some x => some x | none => m.under) with
    | some (d, po) => (mergeBytes d m.data m.be, po || m.poison, s)
    | none =>
      let f := s.drawLine
      (mergeBytes f.1 m.data m.be, m.poison, f.2)

/-- TAKE. A line read brings nothing newer than data already written back in the transaction (R159); a nibble-only read
brings no data (R125). -/
def Run.take (r : Run) : Run :=
  if !r.w.take then r
  else if r.own then
    if r.t.req.kind == .atomicOp || r.t.merged then r
    else
      let need := r.t.req.kind == .memWrPtl || r.t.req.kind == .wrCond
      let f := if need && r.t.buf.isNone then r.s.drawLine else ((r.t.buf.getD 0), r.s)
      let x := mergeOwn r.t.req f.1 r.t.poison
      { r with s := f.2, t := { r.t with buf := some x.1, poison := x.2, merged := true, newPoison := r.t.newPoison && x.2 } }
  else if r.away then r
  else if r.m.inp == .memData then
    if r.m.be = 0 || (r.t.wbData && r.t.buf.isSome) then r
    else
      -- R194, R434: a line read with an uncorrectable error is poisoned; a word without POIS records it here.
      let s := if r.m.ue && !r.w.pois then (r.s.logPoison r.p r.m.line 0).count r.p 0x54 none else r.s
      { r with s := s, t := { r.t with buf := some r.m.data, poison := r.t.newPoison || r.m.poison || r.m.ue } }
  else
    let known := match r.t.buf with | some b => some (b, r.t.poison) | none => (r.sl.lineData r.m.line).map fun y => (y.1, y.2.2)
    let x := takeData r.s r.m known
    { r with s := x.2.2, t := { r.t with buf := some x.1, poison := x.2.1, wbData := true, newPoison := r.t.newPoison && x.2.1 } }

/-- ATOM: the operation on the line buffer; one that writes nothing writes no cache and no mirror (R260). -/
def Run.atom (r : Run) : Run :=
  if !r.w.atom then r
  else
    let q := r.t.req
    let x := atomRun (r.t.buf.getD 0) q.data r.t.poison q.aop q.off q.size
    let s := r.s.count r.p 0x38 (some q.cls)
    match x.1 with
    | some d => { r with s := s, t := { r.t with buf := some d, result := some x.2 } }
    | none => { r with s := s, t := { r.t with result := some x.2 },
                       w := { r.w with cache := 0b01, mirror := false, resv := 0b00 } }

/-- Poison a line that no line buffer of the step holds (R183, R431): in the cache, else as a line of the WPQ; data that is not
known is free (log 7). -/
def State.poisonLine (s : State) (p : Nat) (l : LineAddr) (k : Bool) : CEff :=
  match s.slice p with
  | none => ⟨s, [], none, false⟩
  | some sl =>
    let f := s.drawLine
    let d := match sl.lineData l with | some x => (x.1, x.2.1, s) | none => (f.1, s.nibNow 0b01, f.2)
    if sl.present l then
      let e := s.writeDirty p l d.1 d.2.1 true k false false
      if e.pend then s.writeAround p l d.1 d.2.1 true k false false else e
    else d.2.2.newestToWpq p l d.1 d.2.1 true false

/-- POIS: the line is newly poisoned; a record is logged (R434). A line that no line buffer of the step holds takes the mark with
CACHE. -/
def Run.pois (r : Run) : Run :=
  if !r.w.pois then r
  else
    let row := if r.m.inp == .memData then 0 else 6
    let s := (r.s.logPoison r.p r.m.line row).count r.p 0x54 none
    if r.away then { r with s := s, marks := true }
    else if r.t.buf.isNone && !r.t.rdOut then
      let f := s.drawLine
      { r with s := f.2, t := { r.t with buf := some f.1, poison := true, newPoison := true } }
    else { r with s := s, t := { r.t with poison := true, newPoison := true } }

/-! ### HOLDER (R197) -/

/-- The agents' snoop of the line was sharing or current, for a request that is granted shared or keeps no copy. -/
def Tracker.sharingReq (t : Tracker) : Bool :=
  match t.req.kind with
  | .memRd => t.req.mv != .a
  | .memRdData => true
  | .rdShared => true
  | .rdCur => true
  | .rdRes => true
  | _ => false

/-- HOLDER on a register: `last`: no agent answer of the line is outstanding; `inv`: the snoop answered invalidates. The
second part of the answer: the agents are reduced to the requester. -/
def holderOp (h : BitVec 4) (e : Entry) (req : Src) (who : Option Src) (vic last inv : Bool) (hit : Option Entry) : Entry × Bool :=
  match h.toNat with
  | 0x1 => (match req with | .host _ x => e.addSharer x | _ => e, false)
  | 0x2 => (match req with | .host _ x => e.makeE x | _ => e, false)
  | 0x3 => (match req with | .agent p _ _ => e.makeX p | _ => e, false)
  | 0x4 => (match req with | .host _ x => e.removeHost x | _ => e, false)
  | 0x5 => (match who with | some (.host _ x) => e.removeHost x | _ => e, false)
  | 0x6 => (match who with | some (.host _ x) => (if e.st == .e && e.ptrs == [x] then { e with st := .s } else e.addSharer x) | _ => e, false)
  | 0x7 =>
    if !last || (!inv && e.st == .s) then (e, false)
    else match req with
      | .agent p _ _ =>
        if vic then (e.clearAmh, false)
        else ({ e with amh := true, fwd := p, st := if e.st == .free then .s else e.st }, true)
      | _ => (e.clearAmh, false)
  | 0x8 => (match req with | .agent p _ _ => e.setAmh p | _ => e, false)
  | 0x9 => (e.clear, false)
  | 0xA => (match req with | .host _ x => { e with st := .s, ptrs := [x], coarse := none, amh := false, fwd := 0 } | _ => e, false)
  | 0xB => (match hit with | some x => { x with opn := e.opn, kpin := e.kpin } | none => e, false)
  | 0xC => ({ e with st := .s, amh := true }, false)
  | _ => (e, false)

/-- HOLDER on the record of a line of a page being moved: its snoop-filter entry (R206, R214). -/
def Run.holderMig (r : Run) (last inv : Bool) : Run :=
  match r.sl.sfFind r.m.line with
  | some (i, e) => r.modSl fun sl => sl.sfPut i (holderOp r.w.holder e r.t.req.src r.m.who true last inv none).1
  | none => r

/-- HOLDER: on the victim register, on the tracker's holder register, or on the record of a line of a page being moved. -/
def Run.holder (r : Run) : Run :=
  if r.w.holder = 0 then r
  else
    let last := !(r.t.asnp.any fun x => x.line == r.m.line)
    let inv := match r.m.aKind with
      | some k => k == .inv
      | none => !r.t.sharingReq
    if r.t.req.kind == .migStart then (if r.m.inp == .migDone then r else r.holderMig last inv)
    else if r.m.vic then
      match r.t.victim with
      | some v => { r with t := { r.t with victim := some (holderOp r.w.holder v r.t.req.src r.m.who true last inv none).1 } }
      | none => r
    else
      let e := match r.t.holder with
        | some e => e
        | none => { Entry.empty r.t.req.line with opn := true, kpin := r.kpin }
      let x := holderOp r.w.holder e r.t.req.src r.m.who false last inv r.m.hit
      let gone := match r.w.holder.toNat, r.m.who with
        | 5, some (.host _ h) => if r.t.gone.contains h then r.t.gone else r.t.gone ++ [h]
        | _, _ => r.t.gone
      let s := if x.1.coarse.isSome && e.coarse.isNone && r.w.holder == 0x1 then r.s.count r.p 0x1C none else r.s
      { r with s := s, t := { r.t with holder := some { x.1 with opn := true }, reduced := r.t.reduced || x.2, gone := gone } }

/-! ### NIBW and CACHE (R127, R202, R107 to R109, R160, R352) -/

/-- The nibble known of the line; a line the snoop filter tracks counts as current 0b01 where none has been read
(log 22). -/
def Run.nib (r : Run) : Nib :=
  if r.away then (match r.sl.lineData r.m.line with | some x => x.2.1 | none => r.s.nibNow 0b01)
  else r.t.nib.getD (r.s.nibNow 0b01)

/-- The page's game number. -/
def Run.pageGame (r : Run) : Game := r.ent.game

/-- Record a nibble under R127: with the data of a dirty or waiting line, or of this step's write; otherwise as a meta-only
write. `only`: never as a meta-only write. -/
def Run.recordNib (r : Run) (dir : BitVec 2) (only : Bool) : Run :=
  let n := r.s.nibNow dir
  let setT (r : Run) : Run := if r.away then r else { r with t := { r.t with nib := some n } }
  if r.w.cache = 0b10 && !r.away then setT { r with nibbed := true }
  else
    if only && !r.sl.dirtyHere r.m.line then r
    else
      let x := r.s.recordNib r.p r.m.line n
      let r1 := setT { r with s := x.1, ops := r.ops ++ x.2.1, nibbed := true }
      if x.2.2 then r1 else { r1 with s := r1.s.writeNib r1.p r1.t r1.m.vic r1.ent r1.m.line n }.ack .metaWrite

/-- NIBW. -/
def Run.nibw (r : Run) : Run :=
  if !r.w.nibw then r
  else
    let d := if r.kpin && r.w.ndir = 0b00 then 0b01 else r.w.ndir
    let known := if r.away then (r.sl.lineData r.m.line).isSome else r.t.nib.isSome || (r.sl.sfFind r.m.line).isSome
    let cur := known && r.s.nibCurrent r.pageGame r.nib
    if d = 0b01 && cur && Nib.dir r.nib == 0b01 then r
    else if d = 0b00 then r.recordNib 0b00 (!r.t.snoopAll)
    else r.recordNib d false

/-- Send a dirty mark for the line's page, or wait for the one under way (R352). -/
def Run.dirtyMark (r : Run) : Run :=
  let pg := pageOf r.m.line
  if r.ent.dirty || r.mark then r
  else
    let add (sl : Slice) : Slice := { sl with marks := sl.marks ++ [pg] }
    let r1 := if r.sl.marks.contains pg then r
      else { r with s := ((r.s.modSlice r.p add).count r.p 0x48 none).send (.mark r.p pg) }
    { r1.ack .dirtyMark with mark := true }

/-- The effect of a cache operation on the step: what the mirror is told, the WPQ entry the line took. -/
def Run.eff (r : Run) (e : CEff) : Run :=
  { r with s := e.s, ops := r.ops ++ e.ops, wid := match e.wid with | some x => some x | none => r.wid, pend := r.pend || e.pend }

/-- A prefetched or preloaded fill. -/
def Tracker.pfFill (t : Tracker) : Bool := t.req.src == .prefetch || t.req.src == .preload

/-- Write the line dirty: CACHE 0b10. A line written while MemInvNT collects others' data goes around the cache (R160). -/
def Run.writeLine (r : Run) (d : Line) (po : Bool) : Run :=
  let around := r.t.req.kind == .memInvNT
  let e0 := r.s.writeDirty r.p r.m.line d r.nib po r.kpin around r.t.ktag
  -- A victim's data has no line buffer to wait in: it goes to the WPQ.
  let e := if e0.pend && r.away then r.s.writeAround r.p r.m.line d r.nib po false false r.t.ktag else e0
  let r1 := { (r.eff e) with wrote := true }
  let unp := r1.sl.ident.unprot
  let r2 := match e.wid with
    | some w => if unp then r1.ack (.lineWrite w) else r1
    | none => r1
  let r3 := if e.pend then r2.ack (.kFill true) else r2
  let r4 := r3.dirtyMark
  { r4 with s := r4.s.ringDoorbell r4.m.line }

/-- Data written back during MemInvNT is not allocated (R160, R300), but for a class-K line (R109; log 22). -/
def Run.ntData (r : Run) : Bool := r.t.req.kind == .memInvNT && r.t.wbData && !r.kpin

/-- The CACHE field that takes effect: R109 on a class-K line, R160, and a mark still to be written (log 22). -/
def Run.cacheOp (r : Run) : BitVec 2 :=
  if !r.away && r.t.newPoison && r.t.buf.isSome && r.w.cache != 0b11 then 0b10
  else if !r.away && r.w.cache = 0b00 && r.kpin && (r.w.take || r.w.mem == 0b001 || r.w.mem == 0b011) then 0b01
  else if !r.away && r.w.cache = 0b01 && r.ntData then 0b00
  else r.w.cache

/-- The mark of a line that no line buffer holds, where CACHE does not write the line itself. -/
def Run.cacheMark (r : Run) : Run :=
  if r.marks && r.cacheOp != 0b10 then { (r.eff (r.s.poisonLine r.p r.m.line r.kpin)) with wrote := true } else r

/-- CACHE. -/
def Run.cache (r0 : Run) : Run :=
  let r := r0.cacheMark
  match r.cacheOp.toNat with
  | 1 =>
    match r.t.buf with
    | some d => if r.away then r else
      let e := if r.t.req.src == .preload && r.t.req.tag == 1 then r.s.fillTarget r.p r.m.line d r.nib r.t.poison r.kpin
        else r.s.fillClean r.p r.m.line d r.nib r.t.poison r.kpin r.t.pfFill
      let r1 := r.eff e
      if e.pend then r1.ack (.kFill false) else r1
    | none => r
  | 2 =>
    if r.away then
      let old := (r.sl.lineData r.m.line).map fun x => (x.1, x.2.2)
      let x := takeData r.s r.m old
      { r with s := x.2.2 }.writeLine x.1 (x.2.1 || r.marks)
    else match r.t.buf with
      | some d =>
        let r1 := r.writeLine d r.t.poison
        { r1 with t := { r1.t with newPoison := false } }
      | none => r
  | 3 => r.eff (r.s.invalidate r.p r.m.line)
  | _ => r

/-! ### SFW (R121, R131 to R134, R202, R283) -/

/-- Set a victim up: its bucket is read, or its holders are to be back-invalidated, where there is no spill directory and for a
class-K page (R108, R202). -/
def Run.startVictim (r : Run) (v : Entry) (bi : Bool) : Run :=
  let s := (r.s.count r.p 0x12 none).modSlice r.p fun sl =>
    { sl with dir := { sl.dir with monitors := clearMonitors sl.dir.monitors v.line none } }
  if bi then
    let s1 := (s.count r.p 0x14 none).modSlice r.p fun sl => { sl with obs := { sl.obs with backInv := sl.obs.backInv + 1 } }
    { r with s := s1, t := { r.t with victim := some v, vst := some .bc } }
  else
    let x := s.bktIssue r.p { r.t with victim := some v, vst := some .spF } .victim
    { r with s := x.1, t := x.2 }

/-- Free every snoop-filter entry of a page (R214). -/
def Slice.freePage (sl : Slice) (pg : Page) : Slice :=
  { sl with dir := { sl.dir with sf := sl.dir.sf.filter fun x => pageOf x.2.line != pg } }

/-- SFW: write the holder register into the snoop filter, allocating a way where the line has none (R131). The MigDone of a
maintenance tracker frees each entry of the page (R214). -/
def Run.sfw (r : Run) : Run :=
  if !r.w.sfw || r.m.vic then r
  else if r.t.req.kind == .migStart then r.modSl fun sl => sl.freePage (pageOf r.t.req.line)
  else
    let e : Entry := { (r.t.holder.getD (Entry.empty r.t.req.line)) with opn := true, kpin := r.kpin }
    match r.sl.sfFind r.t.req.line with
    | some (i, _) => r.modSl fun sl => (sl.sfPut i e)
    | none =>
      if e.st = .free then r
      else
        let set := sfSet r.t.req.line
        match r.s.sfFreeWay r.p r.sl set with
        | some w => r.modSl fun sl => (sl.sfPut (set * 16 + w) e).sfTouch (set * 16 + w)
        | none =>
          match r.s.sfVictim r.p r.sl set with
          | none => r
          | some w =>
            match r.sl.sfAt set w with
            | none => r
            | some v =>
              let r1 := r.modSl fun sl => (sl.sfPut (set * 16 + w) e).sfTouch (set * 16 + w)
              r1.startVictim v (!r.s.spillOn || v.kpin)

/-! ### RESV (R280, R283, R284) -/

/-- The word grants the line exclusive. -/
def Word.exclusive (w : Word) : Bool := w.hrsp == 0b011 || w.arsp == 0b010 || w.arsp == 0b100

/-- RESV, with the losses that fixed logic applies to a committed write, an exclusive grant and a WrCond. -/
def Run.resv (r : Run) : Run :=
  let th := r.t.req.src.thread
  let g := r.m.line
  let ms := r.sl.dir.monitors
  let r1 : Run :=
    match r.w.resv.toNat, th with
    | 1, some t =>
      let full := !(ms.any fun m => m.thread == t) && 128 ≤ ms.length
      let r0 := r.modSl fun sl => { sl with dir := { sl.dir with monitors := setMonitor ms t g } }
      if full then { r0 with s := r0.s.count r.p 0x3C none } else r0
    | 2, _ => r.modSl fun sl => { sl with dir := { sl.dir with monitors := clearMonitors ms g th } }
    | 3, some t => r.modSl fun sl => { sl with dir := { sl.dir with monitors := ms.filter fun m => m.thread != t } }
    | _, _ => r
  let side := r.w.take && ((r.m.side && (r.m.inp == .memWr || r.m.inp == .memWrPtl || r.m.inp == .wbDirty)) || r.m.inp == .rspWbData)
  let writer := match r.m.req with | some q => q.src.thread | none => none
  let cond := r.own && r.t.req.kind == .wrCond && r.w.take
  let f (sl : Slice) : Slice :=
    let ms1 := if side then clearMonitors sl.dir.monitors g writer else sl.dir.monitors
    let ms2 := if r.w.exclusive && !r.m.vic then clearMonitors ms1 g th else ms1
    let ms3 := if cond then ms2.filter (fun m => !(m.granule == g && some m.thread == th)) else ms2
    { sl with dir := { sl.dir with monitors := ms3 } }
  r1.modSl f

/-! ### MEM (R125, R139, R140, R301) -/

/-- Queue a prefetch of the next line, or drop and count it (R301). -/
def Run.prefetch (r : Run) : Run :=
  let q := r.t.req
  let from_ := match q.src with | .host .. => true | .agent .. => true | _ => false
  let l := q.line + 1
  if !from_ || !r.s.pfEnabled r.p q.cls || lineInPage q.line = 63 then r
  else if 8 ≤ r.sl.msc.pfq.length then
    let drop (sl : Slice) : Slice := { sl with msc := { sl.msc with pfDropped := sl.msc.pfDropped + 1 } }
    { r with s := (r.s.modSlice r.p drop).count r.p 0x26 (some q.cls) }
  else
    let add (sl : Slice) : Slice := { sl with msc := { sl.msc with pfq := sl.msc.pfq ++ [(l, q.cls)] } }
    { r with s := (r.s.modSlice r.p add).count r.p 0x25 (some q.cls) }

/-- Order a line read. -/
def Run.read (r : Run) (keep : Bool) : Run :=
  let s1 := if (r.sl.present r.m.line) then r.s else r.s.count r.p 0x22 (some r.t.req.cls)
  let r1 := { r with s := s1.readLine r.p r.t r.ent r.t.req.line keep, t := { r.t with rdOut := true } }
  if keep then r1.prefetch else r1

/-- Order a bucket read. -/
def Run.bucketRead (r : Run) : Run :=
  let x := r.s.bktIssue r.p r.t (if r.t.direct || r.w.sprec then .direct else .lookup)
  { r with s := x.1, t := x.2 }

/-- Write the bucket of a line with new contents. -/
def Run.putBucket (r : Run) (l : LineAddr) (b : Line) : Run :=
  { r with s := r.s.writeBucket r.p r.t r.m.vic l b }.ack .bucket

/-- Order a bucket write: the victim's entry or the tracker's own into a free slot, or the line's slots cleared (R139,
R141). -/
def Run.bucketWrite (r : Run) : Run :=
  let g := r.s.gl.game
  if r.m.vic then
    match r.t.victim with
    | some v =>
      let b := r.s.bucket (r.s.bucketNo v.line)
      let r1 := r.putBucket v.line (bktPut g b ((bktFree g b).getD 0) v)
      { r1 with s := r1.s.count r.p 0x13 none }
    | none => r
  else
    let l := r.t.req.line
    let b := r.s.bucket (r.s.bucketNo l)
    if r.w.sprec || r.t.direct then
      let e := r.t.holder.getD (Entry.empty l)
      let r1 := r.putBucket l (if e.st = .free then bktClear b l else bktPut g b ((bktFree g b).getD 0) e)
      { r1 with s := r1.s.count r.p 0x19 none }
    else r.putBucket l (bktClear b l)

/-- The line read that a restored entry's request waits for in IS_D (R212), where none is outstanding (log 22). -/
def Run.spillRead (r : Run) : Run :=
  if r.m.inp == .spillHit && !r.m.vic && r.w.next == 0x04 && !r.w.reeval && !r.w.retire && !r.t.rdOut then r.read true else r

/-- MEM. -/
def Run.mem (r : Run) : Run :=
  match r.w.mem.toNat with
  | 1 => r.read true
  | 2 => r.read false
  | 3 =>
    match r.t.buf with
    | some d =>
      let e := r.s.newestToWpq r.p r.m.line d r.nib r.t.poison r.t.ktag
      let r1 := { (r.eff e) with wrote := true }
      match e.wid with | some w => (r1.ack (.lineWrite w)).dirtyMark | none => r1.dirtyMark
    | none => r
  | 4 => r.recordNib (if r.kpin && r.w.ndir = 0 then 0b01 else r.w.ndir) false
  | 5 => r.bucketRead
  | 6 => r.bucketWrite.spillRead
  | 7 => (r.read true).bucketRead
  | _ => r

/-! ### MIRROR and STAMP (R313, R199, R147) -/

/-- Send the step's mirror update, one for all its changes, which MIRROR sends also where nothing changes but the journal
(R195); answers its number. -/
def Run.mirror (r : Run) (send : Bool) : Run × Option Nat :=
  if r.ops.isEmpty && !send then (r, none)
  else
    let x := r.s.mirSend r.p r.ops
    let r1 := { r with s := if x.2.isSome then x.1.count r.p 0x46 none else x.1 }
    match x.2 with
    | some u => (r1.ack (.mirror u), some u)
    | none => (r1, none)

/-- STAMP, and the stamp of R147 for a nibble write: at most one a page at a time. -/
def Run.stamp (r : Run) : Run :=
  if !(r.w.stamp || r.nibbed) || r.ent.game == r.s.gl.game then r
  else
    let pg := pageOf r.m.line
    let r1 := if r.sl.stamps.contains pg then r
      else { r with s := ((r.s.modSlice r.p fun sl => { sl with stamps := sl.stamps ++ [pg] }).count r.p 0x1B none).send (.stamp r.p pg) }
    r1.ack .stamp

/-! ### BISNP and RSNP (R165, R166, R169, R239, R255) -/

/-- The answer that stands for a HID that is not sent a BISnp: BIRspI, with the owner's line poisoned when the HID is being
expired or is fenced (R169, R183). -/
def autoAnswer (h : Hid) (x : HSnpOut) (vic : Bool) : InMsg :=
  let gone := h.st == .expiring || h.st == .fenced
  { inp := .biRspI, vic := vic, line := x.line, who := some (.host 0 x.hid), hKind := some x.kind, ownerAns := x.owner,
    illegal := gone && x.owner }

/-- Hold entries that became side messages when a snoop of their line was sent (R170, R192). -/
def holdSide (l : LineAddr) (hid : Option Nat) (h : HoldEnt) : Bool :=
  h.req.line == l &&
  match hid, h.req.src with
  | some x, .host _ y => x == y && (h.req.kind == .memWr || h.req.kind == .memWrPtl || h.req.kind == .memClnEvct)
  | none, .agent .. => h.req.kind == .wbDirty || h.req.kind == .evictClean
  | _, _ => false

/-- A request as a side message. -/
def sideMsg (q : Req) (vic : Bool) : InMsg :=
  { inp := q.kind, vic := vic, line := q.line, who := some q.src, req := some q, side := true, data := q.data,
    be := if q.kind == .memWrPtl then q.be else BitVec.allOnes 64, poison := q.poison }

/-- Take hold entries out as side messages of the tracker. -/
def Run.takeHeld (r : Run) (l : LineAddr) (hid : Option Nat) : Run :=
  let mine := r.sl.hold.filter (holdSide l hid)
  if mine.isEmpty then r
  else
    let r1 := r.modSl fun sl => { sl with hold := sl.hold.filter fun h => !holdSide l hid h }
    { r1 with t := { r1.t with inq := r1.t.inq ++ mine.map fun h => sideMsg h.req r.m.vic } }

/-- Send a BISnp of one line to a HID, or take its answer as given (R169); none for a line of an HDM-H window (R162). -/
def Run.snoopHost (r : Run) (kind : HSnp) (l : LineAddr) (vic owner : Bool) (h : Nat) : Run :=
  match (if r.s.isHdmH (pageOf l) then none else r.s.hid h) with
  | none => r
  | some x =>
    let o : HSnpOut := ⟨h, l, kind, owner⟩
    let r1 := { r with t := { r.t with hsnp := r.t.hsnp ++ [o] } }
    if x.st == .bound || x.st == .absent then
      { r1 with s := r1.s.sendBISnp r.p h l kind 1 (some r.t.req.cls) r.t.ktag }.takeHeld l (some h)
    else { r1 with t := { r1.t with inq := r1.t.inq ++ [autoAnswer x o vic] } }

/-- The record of a line, in the snoop filter or the spill directory (R206). -/
def State.recordOf (s : State) (sl : Slice) (l : LineAddr) : Option Entry :=
  match sl.sfFind l with
  | some (_, e) => some e
  | none =>
    let b := s.bucket (s.bucketNo l)
    if s.spillOn then (bktFind s.gl.game b l).map fun k => slotEntry (bktSlot b k) else none

/-- The lines of a page that have a record. -/
def State.pageRecords (s : State) (sl : Slice) (pg : Page) : List Entry :=
  (List.range 64).filterMap fun n => s.recordOf sl (pageLine pg n)

/-- Lines of a page for which a HID is recorded. -/
def State.recordedLines (s : State) (sl : Slice) (pg : Page) (h : Nat) : List Nat :=
  (List.range 64).filter fun n => match s.recordOf sl (pageLine pg n) with | some e => (e.hosts s).contains h | none => false

/-- Block forms over recorded lines: four aligned lines, else two, else one (R166). Answers first line and count. -/
def blockForms (ls : List Nat) : List (Nat × Nat) :=
  (List.range 16).flatMap fun g =>
    let b := 4 * g
    let has (n : Nat) : Bool := ls.contains (b + n)
    if has 0 && has 1 && has 2 && has 3 then [(b, 4)]
    else
      let half (n : Nat) : List (Nat × Nat) :=
        if has n && has (n + 1) then [(b + n, 2)] else (if has n then [(b + n, 1)] else []) ++ (if has (n + 1) then [(b + n + 1, 1)] else [])
      half 0 ++ half 2

/-- BISNP 0b110: BISnpInv, in block forms, to every host recorded for a line of the page (R206). -/
def Run.snoopPage (r : Run) (pg : Page) : Run :=
  let sl := r.sl
  (List.range r.s.hids.length).foldl (fun (r : Run) h =>
    let ls := r.s.recordedLines sl pg h
    match (if r.s.isHdmH pg then none else r.s.hid h) with
    | none => r
    | some x =>
      (blockForms ls).foldl (fun (r : Run) (f : Nat × Nat) =>
        let outs : List HSnpOut := (List.range f.2).map fun i =>
          let l := pageLine pg (f.1 + i)
          HSnpOut.mk h l .inv (match r.s.recordOf sl l with | some e => e.st == .e | none => false)
        let r1 := { r with t := { r.t with hsnp := r.t.hsnp ++ outs } }
        if x.st == .bound || x.st == .absent then
          (List.range f.2).foldl (fun (r : Run) i => r.takeHeld (pageLine pg (f.1 + i)) (some h))
            { r1 with s := r1.s.sendBISnp r.p h (pageLine pg f.1) .inv f.2 (some r.t.req.cls) r.t.ktag }
        else { r1 with t := { r1.t with inq := r1.t.inq ++ outs.map fun o => autoAnswer x o false } }) r) r

/-- The HID of the requester, if it is a host. -/
def Req.hid (q : Req) : Option Nat := match q.src with | .host _ h => some h | _ => none

/-- BISNP. A snoop-all leaves out the requester whose own write or clean eviction it serves: that host answers only after
its completion (R172; log 22). -/
def Run.bisnp (r : Run) : Run :=
  let e := r.t.holder.getD (Entry.empty r.t.req.line)
  let me := r.t.req.hid
  match r.w.bisnp.toNat with
  | 1 => ((e.hosts r.s).filter fun h => some h != me && !(e.coarse.isSome && r.t.gone.contains h)).foldl
      (fun r h => r.snoopHost .inv r.t.req.line false (e.st == .e) h) r
  | 2 => (e.ptrs.filter fun _ => e.st == .e).foldl (fun r h => r.snoopHost .data r.t.req.line false true h) r
  | 3 => (e.ptrs.filter fun _ => e.st == .e).foldl (fun r h => r.snoopHost .cur r.t.req.line false true h) r
  | 4 =>
    let skip := r.t.req.kind == .memWr || r.t.req.kind == .memWrPtl || r.t.req.kind == .memClnEvct
    let hs := (List.range r.s.hids.length).filter fun h => r.s.hidValid h && (r.s.snoopPort h).isSome && !(skip && some h == me)
    let r1 := { r with s := r.s.count r.p 0x17 none, t := { r.t with snoopAll := true } }
    hs.foldl (fun r h => r.snoopHost .inv r.t.req.line false false h) r1
  | 5 =>
    match r.t.victim with
    | some v =>
      let r1 := if r.w.vstart || r.t.vst == some .bc then r
        else { r with s := (r.s.count r.p 0x14 none).modSlice r.p fun sl => { sl with obs := { sl.obs with backInv := sl.obs.backInv + 1 } } }
      (v.hosts r.s).foldl (fun r h => r.snoopHost .inv v.line true (v.st == .e) h) r1
    | none => r
  | 6 => r.snoopPage (pageOf r.t.req.line)
  | _ => r

/-- Send a Rook-ring snoop of a line to every agent port. Forwarding is permitted only under an entry whose FWD has a meaning
(R119, R255; log 22). -/
def Run.snoopAgents (r : Run) (kind : ASnp) (l : LineAddr) (vic : Bool) (fwd : Nat) : Run :=
  let k := r.t.req.kind
  let amh := match r.t.holder with | some e => e.amh | none => false
  let fwdOk := !vic && amh && (k == .rdShared || k == .rdOwn || k == .rdCur || k == .rdRes || (k == .atomicOp && r.t.atomNear == some false))
  let outs : List ASnpOut := (List.range r.s.variant.agents).map fun q => ASnpOut.mk q l kind
  let s1 := r.s.sendRSnp r.p r.t.num kind l vic r.t.req.src fwdOk fwd false (some r.t.req.cls)
  { r with s := s1, t := { r.t with asnp := r.t.asnp ++ outs } }.takeHeld l none

/-- RSNP. -/
def Run.rsnp (r : Run) : Run :=
  let e := r.t.holder.getD (Entry.empty r.t.req.line)
  if r.t.req.kind == .migStart then
    if r.w.rsnp = 0 then r
    else
      let pg := pageOf r.t.req.line
      ((r.s.pageRecords r.sl pg).filter fun e => e.amh).foldl (fun r e => r.snoopAgents .inv e.line false e.fwd) r
  else match r.w.rsnp.toNat with
    | 1 => r.snoopAgents .inv r.t.req.line false e.fwd
    | 2 => r.snoopAgents .shr r.t.req.line false e.fwd
    | 3 => r.snoopAgents .cur r.t.req.line false e.fwd
    | 4 => match r.t.victim with | some v => r.snoopAgents .inv v.line true v.fwd | none => r
    | _ => r

/-- The snoops of a victim that is back-invalidated: BISNP 0b101 and, where agents may hold it, RSNP 0b100 (R142, R202). -/
def Run.snoopVictim (r : Run) : Run :=
  match r.t.victim with
  | some v =>
    let r1 := { r with w := { r.w with bisnp := 0b101, rsnp := if v.amh then 0b100 else 0 } }.bisnp.rsnp
    { r1 with w := r.w }
  | none => r

/-! ### HDATA, HRSP, ARSP (R159, R199, R202, R234, R366) -/

/-- The line is a result slot whose VALID is 1, and the request consumes it (R366). -/
def State.consumes (s : State) (t : Tracker) : Bool :=
  s.isResultSlot t.req.line && ((t.req.kind == .memRd && t.req.mv == .i && t.req.hid.isSome) || t.req.kind == .rdCur) &&
  (match t.buf with | some d => bitAt d 0 | none => false)

/-- Send a message, or hold it for the step's mirror, mark, line write or pending fill (R199, R306, R352, R420). -/
def Run.post (r : Run) (m : OutMsg) (uid : Option Nat) : Run :=
  let unp := r.sl.ident.unprot
  let h : Held := ⟨m, uid, r.mark, if unp && r.wrote then r.wid else none, r.pend && r.wrote⟩
  if h.ready then { r with s := r.s.emit m } else { r with t := { r.t with held := r.t.held ++ [h] } }

/-- The line that a grant or MemData carries: the line buffer's, a free one where it holds none. -/
def Run.outLine (r : Run) : Line × State := match r.t.buf with | some d => (d, r.s) | none => r.s.drawLine

/-- HDATA and HRSP. -/
def Run.hostRsp (r : Run) (uid : Option Nat) : Run :=
  let q := r.who
  match q.src with
  | .host port h =>
    let r1 := if r.w.hdata then
        let d := r.outLine
        { r with s := d.2 }.post (.host port ⟨h, q.line, some r.p, .data q.tag d.1 r.t.poison, r.t.ktag, 0⟩) uid
      else r
    let ndr (op : Ndr) (u : Run) : Run := u.post (.host port ⟨h, q.line, some r.p, .ndr op q.tag, r.t.ktag, 0⟩) uid
    match r.w.hrsp.toNat with
    | 1 => ndr .cmp r1
    | 2 => ndr .cmpS r1
    | 3 => ndr .cmpE r1
    | 4 => { r1 with s := r1.s.emit (.host port ⟨h, q.line, some r.p, .ndr .biConflictAck q.tag, r.t.ktag, 0⟩) }
    | _ => r1
  | .director =>
    if r.w.hrsp = 0 then r
    else if r.w.hdata then
      let d := r.outLine
      { r with s := d.2 }.post (.director q.tag (some d.1)) uid
    else r.post (.director q.tag none) uid
  | _ => r

/-- ARSP. A grant that follows RspFwd carries no data (R202, R257). -/
def Run.agentRsp (r : Run) (uid : Option Nat) : Run :=
  let q := r.who
  match q.src with
  | .agent port a th =>
    let d := r.outLine
    let withData : Option Line := if r.t.fwdGot && !r.m.side then none else some d.1
    let rsp (k : ARspKind) (data : Option Line) : ARsp :=
      ARsp.mk r.p k (BitVec.ofNat 7 q.tag) a th q.line data (data.isSome && r.t.poison) false false false
        (r.own && q.kind == .wrCond && r.w.take) (r.t.fwdGot && !r.m.side) r.t.ktag
    match r.w.arsp.toNat with
    | 1 => { r with s := d.2 }.post (.agent port (rsp .gntS withData)) uid
    | 2 =>
      let r1 := if q.kind == .atomicOp then { r with s := d.2.count r.p 0x39 (some q.cls) } else { r with s := d.2 }
      r1.post (.agent port (rsp .gntX withData)) uid
    | 3 => { r with s := d.2 }.post (.agent port (rsp .gntCur withData)) uid
    | 4 => r.post (.agent port (rsp .gntUp none)) uid
    | 5 => r.post (.agent port (rsp .cmp none)) uid
    | 6 =>
      let r1 := if q.kind == .wrCond then { r with s := r.s.count r.p (if r.w.take then 0x3A else 0x3B) none } else r
      r1.post (.agent port (rsp .result (if q.kind == .atomicOp then r.t.result else none))) uid
    | 7 => r.post (.agent port (rsp (.error 0b101) none)) uid
    | _ => r
  | _ => r

/-- The step returns the data of a result slot: a consuming read clears VALID in the home's copy, as a write without a mark
and without a held completion; any other read that leaves VALID set is counted (R366). -/
def Run.resultSlot (r : Run) : Run :=
  let returns := !r.m.side && (r.w.hdata || r.w.arsp == 1 || r.w.arsp == 2 || r.w.arsp == 3)
  if !returns || !r.s.isResultSlot r.t.req.line then r
  else if r.s.consumes r.t then
    let d := setBit (r.t.buf.getD 0) 0 false
    let e := r.s.writeDirty r.p r.t.req.line d r.nib r.t.poison r.kpin false r.t.ktag
    let x := if e.ops.isEmpty then (e.s, none) else e.s.mirSend r.p e.ops
    let r1 := { r with s := x.1 }
    match x.2 with | some u => r1.ack (.mirror u) | none => r1
  else if (match r.t.buf with | some d => bitAt d 0 | none => false) then { r with s := r.s.count r.p 0x4B none }
  else r

/-! ### DACK and the quiesce steps (R339) -/

/-- Move what can be moved of a page's lines out of the cache: dirty lines to the WPQ while it has room, clean ones dropped
and offered to the migration buffer. -/
def State.flushPage (s : State) (p : Nat) (pg : Page) : State :=
  match s.slice p with
  | none => s
  | some sl =>
    let mine := sl.msc.lines.filter fun x => pageOf x.2.line == pg
    mine.foldl (fun s x =>
      match s.slice p with
      | none => s
      | some sl =>
        if x.2.dirty then
          if sl.wpqFits x.2.line then
            let s1 := (s.readWay p x.1).1
            let c := match (s1.slice p).bind fun y => kget x.1 y.msc.lines with | some y => y | none => x.2
            let e := (s1.modSlice p fun y => y.mscDel x.1).newestToWpq p c.line c.data c.nib c.poison false
            (e.s.mirSend p e.ops).1
          else s
        else ((s.modSlice p fun y => y.mscDel x.1).teSend (.offerVictim x.2.line x.2.data) .none).1) s

/-- No line of the page is cached, in the victim buffer or in the WPQ. -/
def Slice.pageClear (sl : Slice) (pg : Page) : Bool :=
  !(sl.msc.lines.any fun x => pageOf x.2.line == pg) && !(sl.msc.vb.any fun v => pageOf v.cl.line == pg) &&
  !(sl.msc.wpq.any fun w => pageOf w.line == pg)

/-- Go on with the pages being quiesced: DACK leaves for a page whose lines have all been written and dropped (R339); the
clean command of a page is acknowledged once the WPQ entries it waits for are gone (R354). -/
def State.quiesceKick (s : State) (p : Nat) : State :=
  match s.slice p with
  | none => s
  | some sl0 =>
    sl0.quiesce.foldl (fun s q =>
      let s1 := if q.2.2 then s else s.flushPage p q.1
      match s1.slice p with
      | none => s1
      | some sl =>
        let done := if q.2.2 then !(sl.msc.wpq.any fun w => q.2.1.contains w.wid) else sl.pageClear q.1
        if done then
          (s1.modSlice p fun x => { x with quiesce := x.quiesce.filter fun y => y != q }).send
            (if q.2.2 then .cleanAck p q.1 else .dack p q.1)
        else s1) s

/-- DACK, DNOTE, PROMO, LOG, PEVT. -/
def Run.notes (r : Run) : Run :=
  let pg := pageOf r.t.req.line
  let r1 := if r.w.dack then
      (if r.t.req.mig == some .promotion then { r with s := r.s.send (.dack r.p pg) }
       else { r with s := (r.s.modSlice r.p fun sl => { sl with quiesce := sl.quiesce ++ [(pg, [], false)] }).quiesceKick r.p })
    else r
  let r2 := if r.w.dnote then { r1 with s := (r1.s.count r.p 0x4A none).send (.dnote r.p pg) } else r1
  let r3 := if r.w.promo then { r2 with s := (r2.s.count r.p 0x49 none).send (.promo r.p pg) } else r2
  let st := match r.m.vic, r.t.vst with | true, some v => v | _, _ => r.t.st
  let det : W64 := r.w.pevt.setWidth 64 ||| (BitVec.ofNat 64 st.code <<< 4) ||| (BitVec.ofNat 64 r.m.inp.code <<< 9)
  let s4 := if r.w.log then r3.s.logEv 0x2A 0 r.p r.t.num det else r3.s
  { r3 with s := s4.count r.p (0x60 + r.w.pevt.toNat) none }

end Sys2Proof.Machine
end

