-- ==== Sys2Proof/Machine/Sequencer.lean ====
section
/-! DEFINITION. The sequencer of a slice: conditions, the word of a step, the safety entries, lookups, re-evaluations,
retirement, and acceptance of a request (01 R24 to R40, 04, 06). -/

namespace Sys2Proof.Machine

open Sys2Proof

/-! ### Conditions (R193, R194) -/

/-- Nibble class of a tracker (R194). -/
def State.nibc (s : State) (sl : Slice) (t : Tracker) : Nat :=
  if t.holder.isSome then 0
  else if t.ue then 2
  else match t.nib with
    | none => 3
    | some n => s.nibClass sl t.req.line (s.lineEnt sl t.req.line) n

/-- OTHERS (R193): a host counted as answered in the transaction no longer counts (log 21). -/
def State.othersOf (s : State) (t : Tracker) (e : Entry) : Bool :=
  let hs := (e.hosts s).filter fun h => !t.gone.contains h
  match t.req.src with
  | .host _ h => (hs.any fun x => x != h) || e.amh
  | .agent .. => !hs.isEmpty || (e.amh && !t.reduced)
  | _ => !hs.isEmpty || e.amh

/-- REQ_OWNER (R193). -/
def ownerOf (e : Entry) (src : Src) : Bool :=
  match src with
  | .host _ h => e.st == .e && e.ptrs == [h]
  | .agent p _ _ => e.st == .x && e.fwd == p
  | _ => false

/-- The requesting thread holds a reservation on the granule (C15). -/
def State.holdsRes (_s : State) (sl : Slice) (t : Tracker) : Bool :=
  match t.req.src.thread with | some th => resOk sl.dir.monitors th t.req.line | none => false

/-- The condition vector of a step (R193). ALL_ANS counts the answers of the line that the input names, the tracker's own or its
victim's, and C2 and C20 likewise (log 22). -/
def State.condOf (s : State) (p : Nat) (sl : Slice) (t : Tracker) (m : InMsg) : Cond :=
  let e := if m.vic then t.victim.getD (Entry.empty m.line) else t.holder.getD (Entry.empty m.line)
  let pe := s.lineEnt sl m.line
  let mig := t.req.kind == .migStart
  let here (l : LineAddr) : Bool := mig || l == m.line
  let data := (t.buf.isSome && !m.vic && !mig) || (sl.lineData m.line).isSome
  { allAns := !(t.hsnp.any fun x => here x.line) && !(t.asnp.any fun x => here x.line),
    ackZero := !(t.acks.any fun a => a.vic == m.vic),
    mirDone := !(t.acks.any fun a => a.vic == m.vic && (match a.kind with | .mirror _ => true | _ => false)),
    dataIn := data,
    others := s.othersOf t e,
    reqOwner := ownerOf e t.req.src,
    amh := e.amh,
    nibc := s.nibc sl t,
    metaA := t.req.mv == .a,
    metaS := t.req.mv == .s,
    kpin := if m.vic then e.kpin else pe.kpin,
    near := pe.near,
    wayOk := s.wayOk p sl t.req.line pe.kpin,
    slotFree := s.spillOn && (bktFree s.gl.game (s.bucket (s.bucketNo m.line))).isSome,
    resOk := t.resOk || s.holdsRes sl t,
    atomNear := t.atomNear == some true,
    vic := m.vic,
    spillOn := s.spillOn,
    wbSeen := t.wbSeen.contains m.line,
    wbOwed := t.wbOwed.any fun x => here x.2,
    ptlRead := (t.req.kind == .memWrPtl || t.req.kind == .wrCond) && !data,
    poison := t.poison || (m.inp == .memData && (m.ue || m.poison)),
    illegal := m.illegal,
    ownerAns := m.ownerAns,
    maint := t.isMaint,
    replayEnd := m.replayEnd,
    snooped := t.snooped,
    direct := t.direct }

/-- What the reference entries see of a tracker. -/
def State.refX (s : State) (sl : Slice) (t : Tracker) (m : InMsg) : RefX :=
  let e := t.holder.getD (Entry.empty t.req.line)
  let last := !(t.asnp.any fun x => x.line == m.line)
  { kind := t.req.kind,
    host := match t.req.src with | .agent .. => false | _ => true,
    reads := t.rdOut,
    names := fun h => (holderOp h e t.req.src m.who false last (!t.sharingReq) m.hit).1.held,
    shr := m.aKind == some .shr,
    mig := t.req.mig,
    recorded := !(s.pageRecords sl (pageOf t.req.line)).isEmpty,
    was := t.was }

/-! ### The word of a step (R188, R203 to R217) -/

/-- The word that the table memories give (R188); none: an uncorrectable error in control state. -/
def tableWord (cells : List (Nat × BitVec 40)) (pool : List (Nat × W64)) (st : TSt) (i : Inp) (c : Cond) : Option Word :=
  (cellIndex ((kget (cellAddr st i) cells).getD 0) c).map fun k => Word.ofBits ((kget k pool).getD 0)

/-- The state whose cell a step reads (R188). -/
def Tracker.cellState (t : Tracker) (m : InMsg) (look : Bool) : TSt :=
  if look then (t.holder.getD (Entry.empty t.req.line)).st.tst else if m.vic then t.vst.getD .i else t.st

/-- The stored errors that the fetch of a step meets in the table memories (R186, R404). Of the reference table the cells' places
are known, the pool words' are not (log 8). -/
def State.fetchErrs (s : State) (p : Nat) (_sl : Slice) (t : Tracker) (m : InMsg) (look : Bool) (c : Cond) : State × Bool :=
  let at_ := cellAddr (t.cellState m look) m.inp
  let a := s.meetErr p .cell (some 0x52) 5 fun i => i == at_
  match s.cfg.table with
  | .reference => a
  | .words cells _ =>
    match cellIndex ((kget at_ cells).getD 0) c with
    | some k => let b := a.1.meetErr p .pool (some 0x52) 5 fun i => i == k; (b.1, a.2 || b.2)
    | none => a

/-- The word of a step before the fixed behaviour of R202: of the table in force for the state and input. -/
def State.rawWord (s : State) (sl : Slice) (t : Tracker) (m : InMsg) (look : Bool) (c : Cond) : Option Word :=
  let e := t.holder.getD (Entry.empty t.req.line)
  let st := t.cellState m look
  match s.cfg.table with
  | .words cells pool => tableWord cells pool st m.inp c
  | .reference =>
    let x := s.refX sl t m
    let cell := refLookup e.st.tst c x (s.consumes t)
    if look then some cell
    else refTransient st m.inp c x m.ue cell

/-- F11: the word grants while an owner or another answer is outstanding (R216, R40). -/
def Tracker.unsafeGrant (t : Tracker) (w : Word) (c : Cond) : Bool :=
  let e := t.holder.getD (Entry.empty t.req.line)
  let ans := !(t.hsnp.any fun x => x.line == t.req.line) && !(t.asnp.any fun x => x.line == t.req.line)
  let owed := t.wbOwed.any fun x => x.2 == t.req.line
  let hostOwner := e.st == .e && !c.reqOwner && (!t.snooped || (t.hsnp.any fun x => x.line == t.req.line))
  let agentOwner := e.st == .x && !c.reqOwner
  (w.exclusive && (!ans || owed)) ||
  ((w.hrsp == 0b010 || w.arsp == 0b001 || w.arsp == 0b011) && (hostOwner || agentOwner))

/-- The fixed behaviour of R202 that replaces the word: the KPIN read and the way wait. -/
def State.fixWord (s : State) (sl : Slice) (t : Tracker) (m : InMsg) (look : Bool) (c : Cond) (w : Word) : Word :=
  let e := t.holder.getD (Entry.empty t.req.line)
  if look && c.kpin && c.near && c.spillOn && e.st == .free && c.nibc == 3 && (w.mem == 1 || w.mem == 2)
  then { w with mem := 0b111, next := 0x0C }
  else if w.sfw && !m.vic && t.req.kind != .migStart && (sl.sfFind t.req.line).isNone && !c.wayOk &&
      (s.refX sl t m).names w.holder then { arm := true, next := 0x0D }
  else w

/-- What remains of a step from CACHE on needs a WPQ entry that is not there (R308). -/
def Run.blocked (r : Run) : Bool :=
  let l := r.m.line
  let around := r.t.req.kind == .memInvNT
  (r.cacheOp == 0b10 && r.s.writeBlocked r.p l r.kpin around) ||
  (r.w.mem == 0b011 && r.t.buf.isSome && !r.sl.wpqFits l) ||
  (r.w.cache == 0b11 && (match r.sl.mscFind l with | some (_, c) => c.dirty | none => false) && !r.sl.wpqFits l) ||
  (r.marks && r.cacheOp != 0b10 && (if r.sl.present l then r.s.writeBlocked r.p l r.kpin false else !r.sl.wpqFits l)) ||
  (r.own && r.s.consumes r.t && r.s.writeBlocked r.p l r.kpin false)

/-! ### Retirement and what it frees (R25, R121, R134, R135, R201) -/

/-- Requests that wait for a way are presented again when the snoop filter can allocate for them (R135, R202). -/
def State.wayKick (s : State) (p : Nat) : State :=
  match s.slice p with
  | none => s
  | some sl =>
    let wake (t : Tracker) : Tracker :=
      if t.st == .spW && t.armed && !t.direct && !t.reevalDue && s.wayOk p sl t.req.line (s.lineEnt sl t.req.line).kpin
      then { t with reevalDue := true, armed := false } else t
    s.modSlice p fun x => { x with trk := x.trk.map wake }

/-- Set OPEN of the line's entry (R121). -/
def Slice.sfOpen (sl : Slice) (l : LineAddr) : Slice :=
  match sl.sfFind l with
  | some (i, e) => sl.sfPut i { e with opn := true }
  | none => sl

/-- Clear OPEN of the line's entry. -/
def Slice.sfClose (sl : Slice) (l : LineAddr) : Slice :=
  match sl.sfFind l with
  | some (i, e) => sl.sfPut i { e with opn := false }
  | none => sl

/-- A line of the preload walk that its tracker did not bring into a target way is counted as skipped (R315). -/
def State.preloadSkip (s : State) (p : Nat) (t : Tracker) (sl : Slice) : Slice :=
  let here := match sl.mscFind t.req.line with | some (i, _) => s.wayTarget p (i % 16) | none => false
  if t.req.src == .preload && t.req.tag == 1 && !here
  then { sl with msc := { sl.msc with pre := { sl.msc.pre with skipped := sl.msc.pre.skipped + 1 } } } else sl

/-- Retire a tracker: its record goes, its entry is no longer open, its reservations are free. -/
def State.retire (s : State) (p n : Nat) : State :=
  match s.tracker p n with
  | none => s
  | some t =>
    let f (sl : Slice) : Slice :=
      { (s.preloadSkip p t sl).sfClose t.req.line with
        trk := sl.trk.filter fun x => x.num != n,
        dir := { (sl.sfClose t.req.line).dir with bkt := sl.dir.bkt.filter fun x => x.2 != n } }
    ((s.modSlice p f).bktKick p).wayKick p

/-- The tracker awaits nothing any more (R201). An own line read still outstanding is awaited too (log 22). -/
def Tracker.spent (t : Tracker) : Bool :=
  (t.st == .lrW || t.st == .wbx) && t.acks.isEmpty && t.held.isEmpty && t.victim.isNone && !t.rdOut && t.bktOut.isNone &&
  t.stall.isNone && !t.reevalDue && t.inq.isEmpty && t.late.isEmpty

/-- Retire a tracker that awaits nothing any more. -/
def State.tryRetire (s : State) (p n : Nat) : State :=
  match s.tracker p n with
  | some t => if t.spent then s.retire p n else s
  | none => s

/-! ### Victims (R134, R142, R143, R209) -/

/-- The victim is resolved. -/
def Tracker.resolved (t : Tracker) : Tracker := { t with victim := none, vst := none }

/-- The entry that a request records directly: its holder register after the holder change of its grant (R135, R143). -/
def Run.directEntry (r : Run) : Entry :=
  let own : InMsg := { inp := r.t.req.kind, line := r.t.req.line }
  let e := r.t.holder.getD (Entry.empty r.t.req.line)
  match r.s.rawWord r.sl r.t own true (r.s.condOf r.p r.sl r.t own) with
  | some w => (holderOp w.holder e r.t.req.src none false true true none).1
  | none => e

/-- Every answer of a back-invalidated victim is in (R209): its nibble is written, except for a class-K line (R108); with
DIRECT the tracker's own entry goes into the displaced slot and its nibble is recorded as spilled (R143). A request that records
no holder leaves the slot empty (R138). -/
def Run.victimDone (r : Run) : Run :=
  match r.t.victim with
  | none => r
  | some v =>
    let rv : Run := { r with m := { r.m with vic := true, line := v.line }, w := { r.w with cache := 0, nibw := true, ndir := 0 } }
    let r1 := if v.kpin then rv else rv.recordNib 0b00 false
    let r2 : Run := { r1 with t := { r1.t with vst := some .spW } }
    if !r2.t.direct then r2
    else
      let l := r2.t.req.line
      let own : Run := { r2 with m := { r2.m with vic := false, line := l } }
      let e := r2.directEntry
      let old := r2.s.bucket (r2.s.bucketNo l)
      let b := if e.st = .free then bktClear old v.line else bktPut r2.s.gl.game old r2.t.dslot e
      let r3 := (own.putBucket l b).recordNib 0b10 false
      { r3 with s := r3.s.count r3.p 0x19 none }

/-- A victim in BC or XS_W goes on as R209 states: it waits, it waits for data still owed, or it is done. -/
def Run.victimStep (r : Run) : Run :=
  match r.t.victim, r.t.vst with
  | some v, some st =>
    if st == .bc || st == .xsW then
      let waits := (r.t.hsnp.any fun x => x.line == v.line) || (r.t.asnp.any fun x => x.line == v.line) ||
        (r.t.late.any fun x => x.line == v.line)
      if waits then r
      else if r.t.wbOwed.any fun x => x.2 == v.line then { r with t := { r.t with vst := some .xsW } }
      else r.victimDone
    else r
  | _, _ => r

/-- VSTART: the displaced slot's entry becomes the victim and its holders are back-invalidated (R143). -/
def Run.vstart (r : Run) : Run :=
  if !r.w.vstart then r
  else
    let k := r.sl.dir.disp.toNat
    let b := r.s.bucket (r.s.bucketNo r.t.req.line)
    let v := slotEntry (bktSlot b k)
    let r1 := r.modSl fun sl => sl.displace.2
    ({ r1 with t := { r1.t with dslot := k } }.startVictim v true).snoopVictim

/-! ### Applying a word (R198, R200, R201) -/

/-- NEXT, REEVAL and RETIRE. -/
def Run.next (r : Run) : Run :=
  let t := r.t
  let done := r.w.hrsp != 0 || r.w.hdata || r.w.arsp != 0
  let t1 := { t with
    armed := t.armed || r.w.arm,
    direct := t.direct || (r.w.sprec && r.w.mem == 0b101),
    committed := t.committed || (done && (r.look || t.direct)) }
  if r.m.vic then
    { r with t := if r.w.reeval || r.w.retire then t1
                  else match t1.victim with | some _ => { t1 with vst := some r.w.nextSt } | none => t1 }
  else if r.w.retire then { r with t := { t1 with st := .lrW } }
  else if r.w.reeval then
    let h := if t.st == .bc then some { Entry.empty t.req.line with opn := true, kpin := r.kpin } else t.holder
    { r with t := { t1 with reevalDue := true, reevals := t.reevals + 1, holder := h, gone := if t.st == .bc then [] else t.gone } }
  else
    { r with t := { t1 with st := r.w.nextSt } }

/-- A snooping state with no snoop sent and nothing owed has nothing to wait for: the request is evaluated again
(log 22). -/
def Run.idleSnoop (r : Run) : Run :=
  let t := r.t
  let snooping := t.st == .eb || t.st == .sb || t.st == .xs || t.st == .bc
  if snooping && !t.reevalDue && !t.rdOut && t.inq.isEmpty && t.late.isEmpty && t.wbOwed.isEmpty &&
     !(t.hsnp.any fun x => x.line == t.req.line) && !(t.asnp.any fun x => x.line == t.req.line) then
    let h := if t.st == .bc then some { Entry.empty t.req.line with opn := true, kpin := r.kpin } else t.holder
    { r with t := { t with reevalDue := true, reevals := t.reevals + 1, holder := h } }
  else r

/-- The fields of a word before CACHE, in the order of R198. -/
def Run.early (r : Run) : Run := r.take.atom.pois.holder.nibw

/-- The fields of a word from CACHE on, and what fixed logic does with the step: a victim chosen by SFW without a spill directory is
snooped, a displaced one is set up, a victim goes on, what this changes is mirrored. -/
def Run.finish (r0 : Run) : State :=
  let p := r0.p
  let r1 := r0.cache.sfw.resv.mem
  let (r2, uid) := r1.mirror r0.w.mirror
  let r3 := r2.stamp.bisnp.rsnp
  let r3v := if r0.t.victim.isNone && r3.t.vst == some .bc then r3.snoopVictim else r3
  let r4 := (((r3v.hostRsp uid).agentRsp uid).resultSlot).notes
  let r5 := r4.next
  let r6 := { { r5 with ops := [] }.vstart with ops := [] }
  let r7 := if r0.t.req.kind == .migStart then r6 else (r6.victimStep).idleSnoop
  let (r8, _) := r7.mirror false
  -- A victim whose resolution leaves nothing to acknowledge is resolved at once.
  let t8 := if r8.t.vst == some .spW && !(r8.t.acks.any fun a => a.vic) then r8.t.resolved else r8.t
  (((r8.s.modTrk p r0.t.num fun _ => t8).tryRetire p r0.t.num).wayKick p).quiesceKick p

/-- All fields of a word, on a tracker of a slice; a step that needs a WPQ entry which is not there is held from CACHE on (R308). -/
def State.applyWord (s : State) (p : Nat) (t : Tracker) (m : InMsg) (w : Word) (look : Bool) : State :=
  let r := (Run.start s p t m w look).early
  if r.blocked then r.s.modTrk p t.num fun _ => { r.t with stall := some ⟨r.w, m, look, r.ops, r.nibbed, r.marks⟩ }
  else r.finish

/-- A held step as it goes on. -/
def Stall.resume (x : Stall) (s : State) (p : Nat) (t : Tracker) : Run :=
  { Run.start s p { t with stall := none } x.msg x.word x.look with ops := x.ops, nibbed := x.nibbed, marks := x.marks }

/-! ### The blindfold sweeper's trackers (R423) -/

/-- The sweeper's line has a nibble that says on-die tracked, or one it could not read, and the snoop filter misses. -/
def State.sweepNeeds (s : State) (sl : Slice) (t : Tracker) : Bool :=
  (t.ue || (match t.nib with | some n => s.nibCurrent (s.lineEnt sl t.req.line).game n && Nib.dir n == 0b01 | none => false)) &&
  (sl.sfFind t.req.line).isNone

/-- What an answer says of the line's holders: a host as a sharer or as E owner, the agents as sharers (R423). -/
def sweepHolder (t : Tracker) (m : InMsg) : Tracker :=
  let e := t.holder.getD { Entry.empty t.req.line with opn := true }
  let put (x : Entry) : Tracker := { t with holder := some x }
  let port : Nat := match m.who with | some (.agent q _ _) => q | _ => 0
  match m.inp, m.who with
  | .biRspS, some (.host _ h) => put (e.addSharer h)
  | .biRspE, some (.host _ h) => put (e.makeE h)
  | .rspS, _ => put (e.setAmh (if e.amh then min e.fwd port else port))
  | .rspWbData, _ => put (e.setAmh (if e.amh then min e.fwd port else port))
  | _, _ => t

/-- The step of an answer or side message at a sweeper's tracker: data is written, completions are sent. -/
def sweepWord (i : Inp) : Word :=
  let w : Word := { next := 0x04 }
  match i with
  | .rspWbData => { w with take := true, cache := 0b10, mirror := true }
  | .wbDirty => { w with take := true, cache := 0b10, mirror := true, arsp := 0b101 }
  | .evictClean => { w with arsp := 0b101 }
  | .memWr => { w with take := true, cache := 0b10, mirror := true, hrsp := 0b001 }
  | .memWrPtl => { w with take := true, cache := 0b10, mirror := true, hrsp := 0b001 }
  | .memClnEvct => { w with hrsp := 0b001 }
  | _ => w

/-- Once every answer of a snooped line is in, its holders are recorded, or its nibble written uncached (R423, R127); while
the snoop filter has no way for it, the line waits. -/
def State.sweepDone (s : State) (p n : Nat) : State :=
  match s.slice p, s.tracker p n with
  | some sl, some t =>
    let idle := t.hsnp.isEmpty && t.asnp.isEmpty && t.wbOwed.isEmpty && !t.rdOut && t.stall.isNone && t.late.isEmpty
    if t.req.src != .sweeper || t.st != .isD || !t.snoopAll || !idle then s
    else
      let held := match t.holder with | some e => e.held | none => false
      let kp := (s.lineEnt sl t.req.line).kpin
      if held && !s.wayOk p sl t.req.line kp then s
      else if !s.sweepNeeds sl t then s.applyWord p t { inp := .memSpecRd, line := t.req.line } { retire := true } false
      else
        let w : Word := if held then { retire := true, sfw := true, mirror := true, nibw := t.ue, ndir := 0b01 }
          else { retire := true, mirror := true, nibw := true, ndir := 0b00 }
        s.applyWord p t { inp := .memSpecRd, line := t.req.line } w false
  | _, _ => s

/-- An input at a sweeper's tracker. -/
def State.sweepInput (s : State) (p : Nat) (sl : Slice) (t : Tracker) (m : InMsg) : State :=
  let t1 := if s.sweepNeeds sl t then sweepHolder t m else t
  (s.applyWord p t1 m (sweepWord m.inp) false).sweepDone p t.num

/-! ### Records of a HID that is leaving (R183, R184) -/

/-- Remove a HID's precise record of a line where it owns or shares it; the coarse bits stay (R184). -/
def Entry.drop (e : Entry) (h : Nat) : Entry := if e.coarse.isSome then e else e.removeHost h

/-- Remove a HID from the records of a line in a slice: the snoop filter, the holder register of its tracker. -/
def Slice.dropHid (sl : Slice) (l : LineAddr) (h : Nat) : Slice :=
  let sl1 := match sl.sfFind l with | some (i, e) => sl.sfPut i (e.drop h) | none => sl
  let reg (o : Option Entry) : Option Entry := o.map fun e => if e.line == l then e.drop h else e
  { sl1 with trk := sl1.trk.map fun t => { t with holder := reg t.holder, victim := reg t.victim } }

/-- The snoops of a line to a HID that never learnt of its E grant ask no owner (R183). -/
def Slice.disown (sl : Slice) (l : LineAddr) (h : Nat) : Slice :=
  { sl with trk := sl.trk.map fun t =>
      { t with hsnp := t.hsnp.map fun x => if x.line == l && x.hid == h then { x with owner := false } else x } }

/-- Poison a line of a slice (R431, `row`): the cached copy, and a tracker's line buffer. -/
def State.poisonHere (s : State) (p : Nat) (l : LineAddr) (row : Nat) : State :=
  let e := s.poisonLine p l (match s.slice p with | some sl => (s.lineEnt sl l).kpin | none => false)
  let s1 := ((e.s.mirSend p e.ops).1.logPoison p l row).count p 0x54 none
  s1.modSlice p fun sl => { sl with trk := sl.trk.map fun t =>
    if t.req.line == l then { t with poison := true, newPoison := t.newPoison || t.buf.isSome } else t }

/-- Poison a line of a slice because its owner is gone (R183). -/
def State.poisonOwned (s : State) (p : Nat) (l : LineAddr) : State := s.poisonHere p l 6

/-- HIDs being expired or fenced that a record names precisely. -/
def State.leavers (s : State) (e : Entry) : List Nat :=
  e.ptrs.filter fun h => match s.hid h with | some x => x.st.leaving | none => false

/-- A lookup that finds a HID being expired or fenced removes its record; an owner's line is poisoned (R183). -/
def State.purge (s : State) (p : Nat) (l : LineAddr) : State :=
  match (s.slice p).bind fun sl => sl.sfFind l with
  | none => s
  | some (_, e) =>
    (s.leavers e).foldl (fun s h =>
      let s1 := s.modSlice p fun sl => sl.dropHid l h
      if e.st == .e then s1.poisonOwned p l else s1) s

/-- A restored spill entry without the HIDs being expired or fenced; an owner's line is poisoned (R183). -/
def State.purgeHit (s : State) (p : Nat) (e : Entry) : State × Entry :=
  let hs := s.leavers e
  if hs.isEmpty then (s, e)
  else (if e.st == .e then s.poisonOwned p e.line else s, hs.foldl (fun e h => e.drop h) e)

/-! ### One step (R188, R216) -/

/-- The sequencer evaluates an input whose effects on the tracker's counts have been made. -/
def State.evaluate (s : State) (p : Nat) (t : Tracker) (m : InMsg) (look : Bool) : State :=
  match s.slice p with
  | none => s
  | some sl =>
    if t.req.src == .sweeper && !m.vic && t.st == .isD then s.sweepInput p sl t m
    -- R29: the words of the two copies differ.
    else if sl.obs.errs.any fun e => e.arr == .seq then s.failSlice p .mismatch
    else
    let c := s.condOf p sl t m
    let (s, bad) := s.fetchErrs p sl t m look c
    match if bad then none else s.rawWord sl t m look c with
    | none => s.failSlice p .control
    | some w0 =>
      -- F4: an illegal answer of the owner poisons the line.
      let w1 := if m.illegal && m.ownerAns then { w0 with pois := true } else w0
      if w1.fault || w1.bad then s.failSlice p .control
      else
        let w2 := s.fixWord sl t m look c w1
        if t.unsafeGrant w2 c then s.failSlice p .control
        else if w2.reeval && 3 ≤ t.reevals && !m.vic then s.failSlice p .control
        else
          (if w2.arm && !w1.arm then s.count p 0x18 none else s).applyWord p t m w2 look

/-! ### Counting an input at its tracker (R193, R194, R199) -/

/-- The tracker's own request is the WbDirty of a port for a line: the data that the port announces has reached it, so WB_OWED stays 0
(R193, C20). -/
def Tracker.isWbOf (t : Tracker) (port : Nat) (l : LineAddr) : Bool :=
  t.req.kind == .wbDirty && t.req.line == l && (match t.req.src with | .agent q _ _ => q == port | _ => false)

/-- Make what an input means for the tracker's outstanding operations. -/
def Tracker.counted (t : Tracker) (m : InMsg) : Tracker :=
  let port : Option Nat := match m.who with | some (.agent q _ _) => some q | _ => none
  let hid : Option Nat := match m.who with | some (.host _ h) => some h | _ => none
  let t := if m.side then t else { t with reevals := 0 }
  match m.inp with
  | .biRspI => bi hid t
  | .biRspS => bi hid t
  | .biRspE => { bi hid t with snooped := t.snooped || m.hKind == some .cur }
  | .rspI => ag port t
  | .rspS => ag port t
  | .rspFwd => { ag port t with fwdGot := t.fwdGot || !m.vic }
  | .rspWbData => ag port t
  | .rspIW =>
    let t1 := ag port t
    match port with
    | some q => if t.wbSeen.contains m.line || t.isWbOf q m.line then t1 else { t1 with wbOwed := t1.wbOwed ++ [(q, m.line)] }
    | none => t1
  | .wbDirty =>
    if m.side then
      { t with wbSeen := if t.wbSeen.contains m.line then t.wbSeen else t.wbSeen ++ [m.line],
               wbOwed := t.wbOwed.filter fun x => !(some x.1 == port && x.2 == m.line) }
    else t
  | .evictClean =>
    -- R211: only where the announced data is awaited does the clean eviction of its port end the wait.
    let awaited := if m.vic then t.vst == some .xsW else t.st == .xsW
    if m.side && awaited then { t with wbOwed := t.wbOwed.filter fun x => !(some x.1 == port && x.2 == m.line) } else t
  | .memWr => gone hid t
  | .memWrPtl => gone hid t
  | .memClnEvct => gone hid t
  | .memData => { t with rdOut := false, nib := some m.nib, ue := t.ue || m.ue }
  | .spillHit => { t with bktOut := none, bktIn := none }
  | .spillMiss => { t with bktOut := none, bktIn := none }
  | .moveTick => { t with armed := false }
  | _ => t
where
  /-- A host that writes back or evicts under R170 owns the line no more (R171). -/
  gone (hid : Option Nat) (t : Tracker) : Tracker :=
    if m.side then { t with hsnp := t.hsnp.map fun x => if some x.hid == hid && x.line == m.line then { x with owner := false } else x }
    else t
  /-- A host's answer. -/
  bi (hid : Option Nat) (t : Tracker) : Tracker := { t with hsnp := eraseFirst (fun x => some x.hid == hid && x.line == m.line) t.hsnp }
  /-- A port's answer. -/
  ag (port : Option Nat) (t : Tracker) : Tracker := { t with asnp := eraseFirst (fun x => some x.port == port && x.line == m.line) t.asnp }

/-- The input brings what the tracker's state awaits; a line read that no listed state takes is older data (log 22). -/
def TSt.takesData : TSt → Bool
  | .isD => true
  | .ieD => true
  | .atN => true
  | .eb => true
  | .sb => true
  | .xs => true
  | .xsW => true
  | .bc => true
  | .spF => true
  | .ca => true
  | _ => false

/-- F14: a MemAck in these states only counts. -/
def TSt.ackCounts : TSt → Bool
  | .isD => true
  | .ieD => true
  | .atN => true
  | .eb => true
  | .sb => true
  | .xs => true
  | .xsW => true
  | .bc => true
  | .spF => true
  | .mg => true
  | .i => true
  | .s => true
  | .e => true
  | .x => true
  | _ => false

/-- The table in force is the reference table. -/
def State.refTable (s : State) : Bool := match s.cfg.table with | .reference => true | .words .. => false

/-- A partial side write onto a line of which nothing is known here: the line is read first (R159, R171). -/
def Slice.unknown (sl : Slice) (t : Tracker) (m : InMsg) : Bool :=
  let own := !m.vic && t.req.kind != .migStart
  m.inp == .memWrPtl && m.side && m.under.isNone && (sl.lineData m.line).isNone && !(own && t.buf.isSome)

/-- Keep a partial side write until its line has been read; order the read where none is outstanding. -/
def State.deferWrite (s : State) (p : Nat) (sl : Slice) (t : Tracker) (m : InMsg) : State :=
  let own := !m.vic && t.req.kind != .migStart
  let out := (own && t.rdOut) || t.late.any fun x => x.line == m.line
  let t1 : Tracker := { t with late := t.late ++ [m], rdOut := t.rdOut || own }
  let s1 := s.modTrk p t.num fun _ => t1
  if out then s1 else s1.readLine p t1 (s.lineEnt sl m.line) m.line true

/-- Process one input of a tracker: the safety entries, the counts, the step. A stored error in the tracker's record is met first
(R404). -/
def State.process (s0 : State) (p n : Nat) (m : InMsg) : State :=
  let (s, bad) := s0.meetErr p .tracker (some 0x53) 3 fun i => i == n
  match s.slice p, s.tracker p n with
  | some sl, some t =>
    let t1 := t.counted m
    let put (t : Tracker) : State := s.modTrk p n fun _ => t
    if bad then s.failSlice p .control
    else if sl.unknown t m then s.deferWrite p sl t m
    else if m.inp == .moveTick && !t.armed then s                                -- F7
    else if m.inp == .moveTick && t.st != .spW && t.st != .ca then put t1        -- F15
    else if m.inp == .memData && !t.st.takesData && s.refTable then (put t1).tryRetire p n
    else if m.inp == .memAck && (if m.vic then (t1.vst.getD .i).ackCounts else t1.st.ackCounts) then (put t1).tryRetire p n      -- F14
    else (put t1).evaluate p t1 m false
  | _, _ => s

/-- Present what waits at a tracker, in order, while it is not stalled: answers given as received, side messages taken from
hold, a bucket read that waited for the line read (R192). -/
def State.pump : (fuel : Nat) → State → (p n : Nat) → State
  | 0, s, _, _ => s
  | k + 1, s, p, n =>
    match s.tracker p n with
    | none => s
    | some t =>
      if t.stall.isSome then s
      else match t.inq with
        | m :: r =>
          -- What follows a partial write that waits for its line waits behind it (R170).
          if !t.late.isEmpty && m.inp != .memData then s
          else State.pump k ((s.modTrk p n fun x => { x with inq := r }).process p n m) p n
        | [] =>
          match (if t.late.isEmpty then t.bktIn else none) with
          | some ue =>
            if t.rdOut then s
            else
              let use := t.bktOut.getD .lookup
              let l := t.bktLine use
              let b := s.bucket (s.bucketNo l)
              let k0 := bktFind s.gl.game b l
              let h : State × Option Entry := match k0 with
                | some i => let r := s.purgeHit p (slotEntry (bktSlot b i)); (r.1, some r.2)
                | none => (s, none)
              let m : InMsg := { inp := if k0.isSome && !ue then .spillHit else .spillMiss, vic := use == .victim, line := l, ue := ue,
                                 hit := h.2 }
              State.pump k ((h.1.modTrk p n fun x => { x with bktIn := none }).process p n m) p n
          | none => s

/-- Inputs that may follow one another at a tracker in one command: its answers and side messages. -/
def pumpFuel (t : Tracker) : Nat := t.inq.length + 256

/-- Deliver an input to a tracker. -/
def State.feed (s : State) (p n : Nat) (m : InMsg) : State :=
  match s.slice p with
  | none => s
  | some sl =>
    if !sl.live then s
    else
      let s1 := s.modSlice p fun y =>
        { y.modTrk n fun x => { x with inq := x.inq ++ [m] } with ident := { y.ident with busyMove := true, gated := false } }
      match s1.tracker p n with
      | some t => State.pump (pumpFuel t) s1 p n
      | none => s1

/-- A WPQ entry has freed: steps that wait for one go on, in ascending tracker number (R308). -/
def State.unstall (s : State) (p : Nat) : State :=
  match s.slice p with
  | none => s
  | some sl =>
    (sl.trk.filter fun t => t.stall.isSome).foldl (fun s t =>
      match s.tracker p t.num with
      | some t1 =>
        match t1.stall with
        | some st =>
          let r := st.resume s p t1
          if r.blocked then s else State.pump (pumpFuel t1) (r.finish.sweepDone p t1.num) p t1.num
        | none => s
      | none => s) s

/-! ### Lookup (R122, R125, R132, R203, R294 to R298, R404) -/

/-- Correctable and other errors that a lookup of a line meets in the snoop filter, the tag words of its set and the data it
reads (R403, R404, R321, R323); true: the slice fails. The third part: the mirror update of a line newly poisoned, which the
requester waits for (R313). -/
def State.lookupErrs (s : State) (p : Nat) (l : LineAddr) : State × Bool × Option Nat :=
  let set := mscSet l
  let a := s.meetErr p .sf (some 0x50) 0 fun i => i / 16 == sfSet l
  let b := (a.1.wayCount p .tag fun i => i / 16 == set).meetErr p .tag (some 0x51) 1 fun i => i / 16 == set
  let found := (b.1.slice p).bind fun sl => sl.mscFind l
  let d : State × List MirOp := match found with | some (i, _) => b.1.readWay p i | none => (b.1, [])
  let m := if d.2.isEmpty then (d.1, none) else d.1.mirSend p d.2
  (m.1, a.2 || b.2, m.2)

/-- The errors that a lookup meets in the victim buffer or the WPQ, where the line's newest copy is there (R404): the copy is
poisoned. -/
def State.bufErrs (s : State) (p : Nat) (l : LineAddr) : State :=
  match s.slice p with
  | none => s
  | some sl =>
    match sl.mscFind l, sl.vbFind l, sl.wpqFind l with
    | some _, _, _ => s
    | none, some v, _ =>
      let r := s.readBuf p .vb v.num l
      if r.2 then r.1.modSlice p fun x => x.setVb (x.msc.vb.map fun y => if y.num == v.num then { y with cl := { y.cl with poison := true } } else y)
      else r.1
    | none, none, some w =>
      let r := s.readBuf p .wpq w.wid l
      if r.2 then r.1.modSlice p fun x =>
        { x with msc := { x.msc with wpq := x.msc.wpq.map fun y => if y.wid == w.wid then { y with poison := true } else y } }
      else r.1
    | none, none, none => s

/-- The snoop-filter part of a lookup: the entry is opened, its KPIN follows the page, its way is touched. -/
def Slice.sfHit (sl : Slice) (l : LineAddr) (kpin : Bool) : Slice × Option Entry :=
  match sl.sfFind l with
  | some (i, e) =>
    let e1 := { e with opn := true, kpin := kpin }
    ((sl.sfPut i e1).sfTouch i, some e1)
  | none => (sl, none)

/-- The cache part of a lookup: a hit is touched, and a prefetched line is used (R295, R303). Answers hit in the array, hit
in the victim buffer, and whether PF was cleared. -/
def Slice.mscHit (sl : Slice) (l : LineAddr) (pf : Bool) : Slice × Bool × Bool × Bool :=
  match sl.mscFind l with
  | some (i, c) =>
    if pf then (sl.mscTouch i, true, false, false)
    else ((sl.mscPut i { c with pf := false }).mscTouch i, true, false, c.pf)
  | none => (sl, false, (sl.vbFind l).isSome, false)

/-- Counter of the contention predictor for a line (R259). -/
def predIdx (l : LineAddr) : Nat := (l.extractLsb' 0 8 ^^^ l.extractLsb' 8 8).toNat

/-- The choice of near or far execution, made and counted once for an AtomicOp (R258, R259). -/
def State.chooseAtom (s : State) (p : Nat) (t : Tracker) : State × Tracker :=
  match t.req.kind, t.req.src, t.atomNear, s.slice p with
  | .atomicOp, .agent q a _, none, some sl =>
    let i := predIdx t.req.line
    let k : BitVec 2 := (kget i sl.dir.pred).getD 0
    let pol := s.atomPolicy q a
    let near := !s.agentCaching q a || s.isIoAtom q a || pol == 1 || ((pol == 0 || pol == 3) && 2 ≤ k.toNat)
    let up := s.othersOf t (t.holder.getD (Entry.empty t.req.line)) || t.waitedHold
    let k1 : BitVec 2 := if up then satInc k else if k = 0 then 0 else k - 1
    let f (x : Slice) : Slice := { x with dir := { x.dir with pred := if k1 = 0 then kdel i x.dir.pred else kset i k1 x.dir.pred } }
    (s.modSlice p f, { t with atomNear := some near })
  | _, _, _, _ => (s, t)

/-- A page's way of the page-map cache that meets an error (R404): corrected and counted, or invalidated, and its entry read
again. -/
def State.pmErrs (s : State) (p : Nat) (pg : Page) : State :=
  match (s.slice p).bind fun sl => sl.pmFind pg with
  | none => s
  | some (i, _) =>
    let a := s.meetErr p .pm (some 0x53) 4 fun j => j == i
    if !a.2 then a.1
    else a.1.modSlice p fun x =>
      { x with pm := kdel i x.pm,
               obs := { x.obs with errs := x.obs.errs.filter fun e => !(e.arr == .pm && e.idx == i), ue := x.obs.ue.modify 0 fun c => min 0xFFFF (c + 1) } }

/-- A tracker as its re-evaluation takes it out of CA: the snoops of its line that were outstanding are issued again, and it looks its
line up again where it has WB_OWED, so that the port whose data it awaited is asked once more (R215; log 40). -/
def Tracker.leaveCA (t : Tracker) : Tracker :=
  if t.st != .ca then t
  else
    let l := t.req.line
    let owed := t.wbOwed.any fun y => y.2 == l
    { t with
      holder := if owed then none else t.holder,
      nib := if owed then none else t.nib,
      hsnp := t.hsnp.filter fun y => y.line != l,
      asnp := t.asnp.filter fun y => y.line != l,
      wbOwed := t.wbOwed.filter fun y => y.2 != l }

/-- Present a tracker's own request: lookups, conditions, step. -/
def State.lookup (sa : State) (p n : Nat) : State :=
  let s := match sa.tracker p n with | some t => sa.pmErrs p (pageOf t.req.line) | none => sa
  match s.slice p, s.tracker p n with
  | some sl, some t0 =>
    let t := t0.leaveCA
    let l := t.req.line
    match sl.pmFind (pageOf l) with
    | none =>
      -- R335: the tracker is held while the entry is read, and the lookup is repeated.
      ((s.modTrk p n fun x => { x with pmWait := true }).count p 0x4D none).pmRequest p (pageOf l)
    | some (w, pw) =>
      let (se, bad, uid) := s.lookupErrs p l
      let s0 := se.bufErrs p l
      if bad then s0.failSlice p .control
      else
        let s1 := ((s0.modSlice p fun x => x.pmTouch w).count p 0x4C none).purge p l
        match s1.slice p with
        | none => s1
        | some sl1 =>
          let (sl2, hit) := sl1.sfHit l pw.ent.kpin
          let (sl3, inArr, inVb, used) := sl2.mscHit l t.pfFill
          let cls := some t.req.cls
          let s2 := (s1.modSlice p fun _ => sl3).count p (if hit.isSome then 0x10 else 0x11) cls
          let s3 := if inArr then s2.count p 0x20 cls else if inVb then s2.count p 0x21 cls else s2
          let s4 := if used then s3.count p 0x28 none else s3
          if (match hit with | some e => !e.legal s.variant | none => false) then s4.failSlice p .control
          else
            let copy := sl3.lineData l
            let t1 := match copy with
              | some (d, nb, po) =>
                if t.merged then { t with nib := some nb } else { t with buf := some d, nib := some nb, poison := po || t.newPoison }
              | none => t
            let t2 := match t1.holder with
              | some _ => t1
              | none => { t1 with holder := hit }
            let t3 := if t2.holder.isNone && s4.nibc sl3 t2 == 0
              then { t2 with holder := some { Entry.empty l with opn := true, kpin := pw.ent.kpin } } else t2
            let t3a : Tracker :=
              { t3 with pmWait := false, reevalDue := false, resOk := t3.resOk || (t3.req.kind == .wrCond && s4.holdsRes sl3 t3),
                        acks := match uid with | some u => t3.acks ++ [⟨.mirror u, false⟩] | none => t3.acks }
            let (s5, t4) := s4.chooseAtom p t3a
            let m : InMsg := { inp := t.req.kind, line := l }
            (s5.modTrk p n fun _ => t4).evaluate p t4 m true
  | _, _ => s

/-- A lookup and the inputs that follow it at once. -/
def State.lookupPump (s : State) (p n : Nat) : State :=
  let s1 := s.lookup p n
  match s1.tracker p n with
  | some t => State.pump (pumpFuel t) s1 p n
  | none => s1

/-! ### Acceptance (R24 to R27, R100, R170, R174, R192, R348) -/

/-- A tracker for a request. -/
def newTracker (n : Nat) (pool : Pool) (q : Req) (waited : Bool) : Tracker where
  num := n
  pool := pool
  raised := false
  req := q
  st := .i
  was := .i
  holder := none
  nib := none
  ue := false
  buf := none
  poison := false
  newPoison := false
  merged := false
  result := none
  wcok := false
  hsnp := []
  asnp := []
  acks := []
  held := []
  wbSeen := []
  wbOwed := []
  rdOut := false
  bktOut := none
  bktIn := none
  bktWait := none
  victim := none
  vst := none
  armed := false
  direct := false
  dslot := 0
  snooped := false
  gone := []
  snoopAll := false
  reduced := false
  fwdGot := false
  wbData := false
  atomNear := none
  waitedHold := waited
  reevalDue := false
  reevals := 0
  pmWait := false
  stall := none
  inq := []
  late := []
  resOk := false
  committed := false
  retiring := false
  moves := 0
  tickDue := false

/-- The tracker that holds a line: its own or its victim's, or a tracker in MG for the line's page (R24, R134, R192). -/
def Slice.holderTrk (sl : Slice) (l : LineAddr) : Option Tracker :=
  sl.trk.find? fun t => t.req.line == l || (match t.victim with | some v => v.line == l | none => false) ||
    ((t.st == .mg || t.req.kind == .migStart) && pageOf t.req.line == pageOf l)

/-- Hold entries wait for the line. -/
def Slice.lineWaits (sl : Slice) (l : LineAddr) : Bool := sl.hold.any fun h => h.req.line == l

/-- The tracker takes a message as a side message: it has a BISnp to the HID, or a Rook-ring snoop or owed data, for
the line (R170, R192). -/
def Tracker.takesSide (t : Tracker) (q : Req) : Bool :=
  match q.src with
  | .host _ h =>
    (q.kind == .memWr || q.kind == .memWrPtl || q.kind == .memClnEvct) && t.hsnp.any fun x => x.hid == h && x.line == q.line
  | .agent p _ _ =>
    (q.kind == .wbDirty || q.kind == .evictClean) &&
      ((t.asnp.any fun x => x.line == q.line) || (t.wbOwed.any fun x => x == (p, q.line)))
  | _ => false

/-- The tracker that takes a message as a side message. -/
def Slice.sideTrk (sl : Slice) (q : Req) : Option Tracker := sl.trk.find? fun t => t.takesSide q

/-- A request that writes (R214). -/
def Inp.writes : Inp → Bool
  | .memWr => true
  | .memWrPtl => true
  | .wbDirty => true
  | .atomicOp => true
  | .wrCond => true
  | _ => false

/-- Work of a slice: its occupancy maxima (R538), and the move is not an idle one (R502). -/
def State.noteOcc (s : State) (p : Nat) : State :=
  s.modSlice p fun sl =>
    { sl with ident := { sl.ident with busyMove := true },
              obs := { sl.obs with occTrk := max sl.obs.occTrk sl.trk.length, occHold := max sl.obs.occHold sl.hold.length,
                                   occWpq := max sl.obs.occWpq sl.msc.wpq.length } }

/-- Raise the tracker a class-K request waits behind (R100, R101). -/
def State.raiseFor (s : State) (p : Nat) (t : Tracker) (q : Req) : State :=
  if q.cls == .k && !t.raised && (t.req.cls != .k || t.isMaint || t.req.src == .prefetch) then
    ((s.modTrk p t.num fun x => { x with raised := true }).modSlice p fun sl =>
      { sl with obs := { sl.obs with raises := sl.obs.raises + 1 } }).count p 0x0B (some t.req.cls)
  else s

/-- A request enters hold behind a tracker, or behind the hold entries of its line (R24, R25). -/
def State.enterHold (s : State) (p : Nat) (q : Req) : State :=
  match s.slice p with
  | none => s
  | some sl =>
    let t := sl.holderTrk q.line
    let n := (lowestFree (sl.hold.map (·.num)) 512).getD sl.hold.length
    let h : HoldEnt := ⟨n, q, sl.holdSeq, match t with | some x => x.num | none => 0⟩
    let s1 := (s.modSlice p fun x => { x with hold := x.hold ++ [h], holdSeq := x.holdSeq + 1 }).count p 0x0A (some q.cls)
    match t with
    | none => s1
    | some x =>
      let s2 := s1.raiseFor p x q
      if x.st == .mg && q.kind.writes then (s2.count p 0x4A none).send (.dnote p (pageOf q.line)) else s2

/-- Allocate a tracker and look the request up. -/
def State.openTracker (s : State) (p : Nat) (q : Req) (pool : Pool) (waited : Bool) : State :=
  match s.slice p with
  | none => s
  | some sl =>
    match lowestFree (sl.trk.map (·.num)) 192 with
    | none => s
    | some n =>
      let put (x : Slice) : Slice :=
        { x with trk := (x.trk.filter fun t => t.num < n) ++ [newTracker n pool q waited] ++ (x.trk.filter fun t => n < t.num) }
      -- R121: the line's entry is open from the moment the tracker takes the line.
      (s.modSlice p fun x => put (x.sfOpen q.line)).lookupPump p n

/-- A slice presents a message it has taken: to the tracker that it is a side message of, a BIConflict to the tracker that
holds its line (F2), to hold, or to a tracker of its own. -/
def State.present (s : State) (p : Nat) (q : Req) (pool : Pool) : State :=
  match s.slice p with
  | none => s
  | some sl =>
    if !sl.live then s
    else
      match sl.sideTrk q with
      | some t =>
        let vic := t.isVic q.line
        (s.feed p t.num (sideMsg q vic)).noteOcc p
      | none =>
        match q.kind, sl.holderTrk q.line, q.src with
        | .biConflict, some _, .host port h => s.emit (.host port ⟨h, q.line, some p, .ndr .biConflictAck q.tag, false, 0⟩)
        | _, some _, _ => (s.enterHold p q).noteOcc p
        | _, none, _ =>
          if sl.lineWaits q.line then (s.enterHold p q).noteOcc p
          else (s.openTracker p q pool false).noteOcc p

end Sys2Proof.Machine
end

