-- ==== Sys2Proof/Machine/Hids.lean ====
section
/-! DEFINITION. Host identities: binding, the return queues, expiry and fencing with the sweep of records (R167 to R185). -/

namespace Sys2Proof.Machine

open Sys2Proof

/-- The slice that takes an answer for a line: the home's, or the redirection target of a stalled one (R414). -/
def State.answerSlice (s : State) (l : LineAddr) : Option Nat :=
  match s.cast.homes[s.homeOf (pageOf l)]? with
  | some h => if !h.valid || h.lost then none else
      (match s.cast.redirect.find? fun r => r.1 == h.phys with | some r => some r.2 | none => some h.phys)
  | none => none

/-! ### Records of a HID (R183, R184) -/

/-- A bucket with a HID's precise records removed from the slots that `hit` names; a slot left without a holder is
cleared (R139). -/
def bktDrop (g : Game) (b : Line) (h : Nat) (hit : LineAddr → Bool) : Line :=
  bktOf fun k =>
    let x := bktSlot b k
    let e := slotEntry x
    if slotOccupied g x && hit e.line && e.ptrs.contains h then
      (if (e.drop h).st = .free then setBit x 127 false else spillBits g (e.drop h))
    else x

/-- An E grant of a HID whose Cmp-E was discarded: its record goes without poison (R183). -/
def State.forgetGrant (s : State) (p : Nat) (l : LineAddr) (h : Nat) : State :=
  let b := s.bucketNo l
  let s1 := s.modSlice p fun sl => (sl.dropHid l h).disown l h
  if s.spillOn then s1.setBucket b (bktDrop s.gl.game (s1.bucket b) h fun x => x == l) else s1

/-- Poison a line at its home, if the home has a slice. -/
def State.poisonHome (s : State) (l : LineAddr) : State :=
  match s.answerSlice l with | some p => s.poisonOwned p l | none => s

/-- Lines that the snoop filter, a holder register or a victim register of a slice records precisely for a HID, and whether it owns
them. -/
def Slice.hidLines (sl : Slice) (h : Nat) : List (LineAddr × Bool) :=
  let es := sl.dir.sf.map (·.2) ++ sl.trk.flatMap fun t =>
    (match t.holder with | some e => [e] | none => []) ++ (match t.victim with | some v => [v] | none => [])
  ((es.filter fun e => e.ptrs.contains h).map fun e => (e.line, e.st == .e)).dedup

/-- The sweep of the snoop filters and the spill directory (R183). -/
def State.sweepHid (s : State) (h : Nat) : State :=
  let slice (s : State) (p : Nat) : State :=
    match s.slice p with
    | none => s
    | some sl => (sl.hidLines h).foldl (fun s x =>
        let s1 := s.modSlice p fun y => y.dropHid x.1 h
        if x.2 then s1.poisonOwned p x.1 else s1) s
  let bucket (s : State) (n : Nat) : State :=
    let b := s.bucket n
    let owned := (List.range 4).filter fun k =>
      let x := bktSlot b k
      slotOccupied s.gl.game x && (slotEntry x).st == .e && (slotEntry x).ptrs == [h]
    owned.foldl (fun s k => s.poisonHome (slotLine (bktSlot b k))) (s.setBucket n (bktDrop s.gl.game b h fun _ => true))
  (s.spill.map (·.1)).foldl bucket ((List.range s.variant.phys).foldl slice s)

/-! ### Waits and queues of a HID that is leaving (R183) -/

/-- Discard a HID's entries of a slice's return queue; lines whose Cmp-E is discarded lose its record. -/
def State.dropQueue (s : State) (h p : Nat) : State :=
  match s.slice p with
  | none => s
  | some sl =>
    let mine := sl.retq.filter fun m => m.hid == h
    let s1 := s.modSlice p fun x => { x with retq := x.retq.filter fun m => m.hid != h }
    mine.foldl (fun s m => match m.body with
      | .ndr .cmpE _ => s.forgetGrant p m.line h
      | _ => s) s1

/-- The waits of a slice's trackers for a HID: tracker, snoop. -/
def Slice.waitsFor (sl : Slice) (h : Nat) : List (Nat × HSnpOut) :=
  sl.trk.flatMap fun t => (t.hsnp.filter fun x => x.hid == h).map fun x => (t.num, x)

/-- Complete every wait of a slice for a BIRsp of the HID as if BIRspI had come. -/
def State.answerFor (s : State) (h p : Nat) : State :=
  match s.hid h, s.slice p with
  | some x, some sl =>
    (sl.waitsFor h).foldl (fun s w =>
      match s.tracker p w.1 with
      | some t =>
        let vic := t.isVic w.2.line
        s.feed p w.1 (autoAnswer x w.2 vic)
      | none => s) s
  | _, _ => s

/-- What R183 does at once when a HID has become Expiring or Fenced. -/
def State.expireHid (s : State) (h : Nat) : State :=
  let ps := List.range s.variant.phys
  ps.foldl (fun s p => s.answerFor h p) (ps.foldl (fun s p => s.dropQueue h p) s)

/-- A HID that is leaving still has waits or queued messages. -/
def State.hidOwes (s : State) (h : Nat) : Bool :=
  s.slices.any fun sl => (sl.retq.any fun m => m.hid == h) || (sl.live && !(sl.waitsFor h).isEmpty)

/-- HIDs that a command has fenced are treated under R183 at its end. -/
def State.fenceSettle (s : State) : State :=
  (List.range s.hids.length).foldl (fun s h =>
    match s.hid h with
    | some x => if x.st.leaving && s.hidOwes h then s.expireHid h else s
    | none => s) s

/-! ### Links (R177 to R181) -/

/-- A port of the HID's PORT_MASK has its link up. -/
def State.hidUp (s : State) (h : Nat) : Bool := (s.snoopPort h).isSome

/-- Send again what a slice has queued for a HID, in order (R180, R181). The data of a DRS message is read again: the line's copy
in the slice, else a read of memory is ordered, and what follows waits for it; `data`: the line that such a read has brought. -/
def State.resendSlice : (fuel : Nat) → State → (p h : Nat) → (data : Option (Line × Bool)) → State
  | 0, s, _, _, _ => s
  | k + 1, s, p, h, data =>
    match s.slice p, s.snoopPort h with
    | some sl, some q =>
      match sl.retq.find? fun m => m.hid == h with
      | none => s
      | some m =>
        let rest := s.modSlice p fun x => { x with retq := eraseFirst (fun y => y.hid == h) x.retq }
        match m.body with
        | .data t _ po =>
          let known : Option (Line × Bool) := match data with | some d => some d | none => (sl.lineData m.line).map fun d => (d.1, d.2.2)
          (match known with
           | some d => State.resendSlice k (rest.putS2M q { m with body := .data t d.1 (po || d.2) }) p h none
           | none =>
             if sl.rereads.contains h then s
             else
               let e := s.lineEnt sl m.line
               let c := memCmd .read m.k (e.na m.line) m.line 0 0 false (.resend p h)
               (s.modSlice p fun x => { x with rereads := x.rereads ++ [h] }).memSubmit c)
        | _ => State.resendSlice k (rest.putS2M q m) p h none
    | _, _ => s

/-- Every slice sends again what it has queued for a HID. -/
def State.resend (s : State) (h : Nat) : State :=
  (List.range s.variant.phys).foldl (fun s p => State.resendSlice 257 s p h none) s

/-- The line of the first message queued for a HID has been read again. -/
def State.resendData (s : State) (p h : Nat) (d : Line) (po : Bool) : State :=
  let s1 := s.modSlice p fun x => { x with rereads := x.rereads.filter fun y => y != h }
  match (s1.slice p).bind fun sl => sl.retq.find? fun m => m.hid == h with
  | some m => (match m.body with | .data .. => State.resendSlice 257 s1 p h (some (d, po)) | _ => s1)
  | none => s1

/-- A declared HID has a port up: Unbound and Absent become Bound, and what was queued is sent (R177, R181). -/
def State.bindHid (s : State) (h : Nat) : State :=
  match s.hid h with
  | some x =>
    if x.valid && s.hidUp h && (x.st == .unbound || x.st == .absent) then
      (s.modHid h fun y => { y with st := .bound, windowLeft := 0 }).resend h
    else s
  | none => s

/-- Every declared HID with a port up is bound, as in the cycle in which the block begins serving (R177). -/
def State.bindHids (s : State) : State := (List.range s.hids.length).foldl State.bindHid s

/-- The return window of a HID in ms: RETURN_WINDOW units of 100 ms, 5 s for 0 (R67). -/
def Hid.windowMs (h : Hid) : Nat := if h.window = 0 then 5000 else 100 * h.window.toNat

/-- A Bound HID whose last port has gone down becomes Absent (R177). -/
def State.unbindHid (s : State) (h : Nat) : State :=
  match s.hid h with
  | some x =>
    if x.st == .bound && !s.hidUp h then s.modHid h fun y => { y with st := .absent, windowLeft := BitVec.ofNat 15 x.windowMs }
    else s
  | none => s

end Sys2Proof.Machine
end

