-- ==== Sys2Proof/Machine/Bytes.lean ====
section
/-! DEFINITION. Byte strings: little-endian fields, lines, CRC-32C (R473), SHA-384 (R477). -/

namespace Sys2Proof.Machine

abbrev Byte := BitVec 8

/-- The number that bytes hold, lowest first. -/
def leNat : List Byte → Nat
  | [] => 0
  | b :: r => b.toNat + 256 * leNat r

/-- A number as n bytes, lowest first. -/
def leBytes : (n v : Nat) → List Byte
  | 0, _ => []
  | n + 1, v => BitVec.ofNat 8 v :: leBytes n (v / 256)

/-- Field of `n` bytes at an offset; bytes past the end read 0. -/
def fieldAt (bs : List Byte) (off n : Nat) : Nat := leNat ((bs.drop off).take n)

/-- Bytes of a range. -/
def bytesAt (bs : List Byte) (off n : Nat) : List Byte := (bs.drop off).take n

/-- Every byte of a range is 0. -/
def zeroAt (bs : List Byte) (off n : Nat) : Bool := (bytesAt bs off n).all fun b => b == 0

/-- The 64 bytes of a line (R550). -/
def lineBytes (l : Line) : List Byte := leBytes 64 l.toNat

/-- Bytes of lines, in order. -/
def linesBytes (ls : List Line) : List Byte := ls.flatMap lineBytes

/-- Lines of a byte string; the last one is filled with 0. `n` lines. -/
def bytesLines : (n : Nat) → List Byte → List Line
  | 0, _ => []
  | n + 1, bs => BitVec.ofNat 512 (leNat (bs.take 64)) :: bytesLines n (bs.drop 64)

/-! ### CRC-32C (R473) -/

/-- One bit of the reflected CRC: the polynomial 0x1EDC6F41 reflected is 0x82F63B78. -/
def crcBit (c : W32) : W32 := if c.getLsbD 0 then (c >>> 1) ^^^ 0x82F63B78 else c >>> 1

/-- One byte of the CRC. -/
def crcByte (c : W32) (b : Byte) : W32 :=
  crcBit (crcBit (crcBit (crcBit (crcBit (crcBit (crcBit (crcBit (c ^^^ b.setWidth 32))))))))

/-- CRC-32C over bytes in ascending address order. -/
def crc32c (bs : List Byte) : W32 := bs.foldl crcByte 0xFFFFFFFF ^^^ 0xFFFFFFFF

/-! ### SHA-384 (R477; FIPS 180-4, PRESUMED as the standard's definition, log 23)

The constants are computed from what the standard says they are: the first 64 bits of the fraction of a root of a prime. A block
is taken in 80 turns over one record that holds the sixteen schedule words still needed beside the eight working words. -/

/-- The first eighty primes. -/
def shaPrimes : List Nat := (List.range 410).filter fun n => 2 ≤ n && (List.range 21).all fun d => d < 2 || n ≤ d || n % d != 0

/-- Largest number whose power `e` is at most `x`, found from bit `n - 1` down over the bits already found. -/
def rootFloor (e x : Nat) : (n found : Nat) → Nat
  | 0, found => found
  | n + 1, found => rootFloor e x n (if (found + 2 ^ n) ^ e ≤ x then found + 2 ^ n else found)

/-- The first 64 bits of the fraction of the root of order `e` of a number below 512. -/
def rootFraction (e p : Nat) : W64 := BitVec.ofNat 64 (rootFloor e (p * 2 ^ (64 * e)) 69 0)

/-- The constant of each round: cube roots of the first eighty primes. -/
def shaConsts : List W64 := shaPrimes.map (rootFraction 3)

/-- The eight words a block works on, oldest role first: `a` to `h`. -/
structure ShaVars where
  a : W64
  b : W64
  c : W64
  d : W64
  e : W64
  f : W64
  g : W64
  h : W64
  deriving DecidableEq, Repr

/-- The words of the record in order. -/
def ShaVars.words (v : ShaVars) : List W64 := [v.a, v.b, v.c, v.d, v.e, v.f, v.g, v.h]

/-- The record over a list of words; a missing word is 0. -/
def ShaVars.ofWords (l : List W64) : ShaVars :=
  let at_ (i : Nat) : W64 := l.getD i 0
  ⟨at_ 0, at_ 1, at_ 2, at_ 3, at_ 4, at_ 5, at_ 6, at_ 7⟩

/-- Where a digest of 384 bits starts: square roots of the ninth to the sixteenth prime. -/
def shaStart : ShaVars := ShaVars.ofWords (((shaPrimes.drop 8).take 8).map (rootFraction 2))

/-- The exclusive or of a word turned right by each count. -/
def turned (x : W64) (counts : List Nat) : W64 := counts.foldl (fun acc n => acc ^^^ x.rotateRight n) 0

/-- One turn: the window's front word goes into the working words, and the word sixteen places on joins the window's end. -/
def shaTurn (st : List W64 × ShaVars) (const : W64) : List W64 × ShaVars :=
  let (win, v) := st
  let choice := v.g ^^^ (v.e &&& (v.f ^^^ v.g))
  let most := (v.a &&& v.b) ||| (v.c &&& (v.a ||| v.b))
  let mix := win.headD 0 + const + v.h + turned v.e [14, 18, 41] + choice
  let next := win.headD 0 + win.getD 9 0 + (turned (win.getD 1 0) [1, 8] ^^^ (win.getD 1 0).ushiftRight 7) +
    (turned (win.getD 14 0) [19, 61] ^^^ (win.getD 14 0).ushiftRight 6)
  (win.tail ++ [next],
   { v with a := mix + turned v.a [28, 34, 39] + most, b := v.a, c := v.b, d := v.c, e := v.d + mix, f := v.e, g := v.f, h := v.g })

/-- The 64-bit words of a byte string, highest byte first; `n` words. -/
def highFirst (n : Nat) (bs : List Byte) : List W64 :=
  (List.range n).map fun i => BitVec.ofNat 64 (leNat (bytesAt bs (8 * i) 8).reverse)

/-- One block of 128 bytes over what the blocks before it left. -/
def shaBlock (v : ShaVars) (block : List Byte) : ShaVars :=
  let last := shaConsts.foldl shaTurn (highFirst 16 block, v)
  ShaVars.ofWords (List.zipWith BitVec.add v.words last.2.words)

/-- `n` blocks in order. -/
def shaBlocks : (n : Nat) → ShaVars → List Byte → ShaVars
  | 0, v, _ => v
  | n + 1, v, bs => shaBlocks n (shaBlock v (bs.take 128)) (bs.drop 128)

/-- SHA-384 of a byte string: 48 bytes. The message is followed by 0x80, by zeros up to the end of a block, and by its length in
bits in the block's last 16 bytes. -/
def sha384 (bs : List Byte) : List Byte :=
  let blocks := (bs.length + 144) / 128
  let body := bs ++ 0x80 :: List.replicate (128 * blocks - bs.length - 17) 0
  let v := shaBlocks blocks shaStart (body ++ (leBytes 16 (8 * bs.length)).reverse)
  [v.a, v.b, v.c, v.d, v.e, v.f].flatMap fun w => (leBytes 8 w.toNat).reverse

/-- LD_DIGEST0 to LD_DIGEST11: byte 4n of the digest in bits [7:0] of word n (R477). -/
def digestWords (bs : List Byte) : List W32 :=
  let d := sha384 bs
  (List.range 12).map fun n => BitVec.ofNat 32 (fieldAt d (4 * n) 4)

end Sys2Proof.Machine
end

