-- ==== Sys2Proof/Machine/Image.lean ====
section
/-! DEFINITION. The Parrel image: header, directory, sections, the checks of R476, and what the sections hold (14). -/

namespace Sys2Proof.Machine

/-! ### Header and directory (R468 to R470) -/

/-- LENGTH of a header. -/
def imgLen (b : List Byte) : Nat := fieldAt b 8 4
/-- SEQ of a header. -/
def imgSeq (b : List Byte) : W32 := BitVec.ofNat 32 (fieldAt b 0xC 4)

/-- The header of a slot is usable (R475). -/
def headerUsable (v : Variant) (b : List Byte) : Bool :=
  fieldAt b 0 4 == 0x3E8A51C7 && fieldAt b 4 2 == 3 && fieldAt b 6 1 == v.active && fieldAt b 7 1 == 0 &&
  imgLen b % 64 == 0 && 0xCA00 ≤ imgLen b && imgLen b ≤ 0x80000 && fieldAt b 0x10 2 == 10 && fieldAt b 0x12 2 == 0 &&
  zeroAt b 0x18 36 && fieldAt b 0x3C 4 == (crc32c (bytesAt b 0 0x3C)).toNat

/-- SLEN of section ID n (R470). -/
def secLen (n : Nat) : Nat :=
  if n = 1 || n = 2 then 0x140 else if n = 3 then 0x180 else if n = 4 then 0xC0 else if n = 5 then 0xC040
  else if n = 6 || n = 9 then 0x40 else if n = 7 || n = 8 then 0x80 else 0x280

/-- OFFSET of section ID n, 1 to 10. -/
def secOff (b : List Byte) (n : Nat) : Nat := fieldAt b (0x40 + 16 * (n - 1) + 4) 4

/-- The bytes of section ID n. -/
def secBytes (b : List Byte) (n : Nat) : List Byte := bytesAt b (secOff b n) (secLen n)

/-- The section IDs. -/
def secIds : List Nat := [1, 2, 3, 4, 5, 6, 7, 8, 9, 10]

/-- One directory entry (R469, R470). -/
def dirEntryOk (b : List Byte) (n : Nat) : Bool :=
  let e := 0x40 + 16 * (n - 1)
  fieldAt b e 2 == n && fieldAt b (e + 2) 2 == 0 && secOff b n % 64 == 0 && 0x100 ≤ secOff b n &&
  fieldAt b (e + 8) 4 == secLen n && secOff b n + secLen n ≤ imgLen b

/-- Two ranges do not overlap. -/
def apart (a al b bl : Nat) : Bool := a + al ≤ b || b + bl ≤ a || al == 0 || bl == 0

/-- Check 1: the directory (R469, R470). -/
def checkDir (b : List Byte) : Bool :=
  secIds.all (dirEntryOk b) && zeroAt b 0xE0 0x20 &&
  secIds.all fun n => secIds.all fun k => n == k || apart (secOff b n) (secLen n) (secOff b k) (secLen k)

/-- Check 2: SCRC of a section. -/
def checkCrc (b : List Byte) (n : Nat) : Bool :=
  fieldAt b (0x40 + 16 * (n - 1) + 0xC) 4 == (crc32c (secBytes b n)).toNat

/-! ### Contents -/

/-- A region of ADDRESS_MAP: BASE [19:0], SIZE [39:20] (R471). -/
def regionAt (s : List Byte) (o : Nat) : Region :=
  let x := fieldAt s o 8
  ⟨x % 1048576, x / 1048576 % 1048576⟩

/-- Window w of ADDRESS_MAP (R471). -/
def windowAt (s : List Byte) (w : Nat) : Window :=
  let x : W64 := BitVec.ofNat 64 (fieldAt s (0x40 + 8 * w) 8)
  ⟨x.extractLsb' 0 21, x.extractLsb' 21 22, x.extractLsb' 43 2, x.extractLsb' 45 2⟩

/-- A host-ID table entry (R470); a declared one is Unbound (R176). -/
def hidAt (s : List Byte) (n : Nat) : Hid :=
  let x : W32 := BitVec.ofNat 32 (fieldAt s (0x40 + 4 * n) 4)
  ⟨bitAt x 31, x.extractLsb' 23 8, x.extractLsb' 21 2, x.extractLsb' 9 12, x.extractLsb' 1 8, if bitAt x 31 then .unbound else .undeclared, 0⟩

/-- Nearest value in a range, and whether it differs. -/
def nearest (lo hi n : Nat) : Nat × Bool := (clamp lo hi n, clamp lo hi n != n)

/-- Image-only parameters of PLACEMENT (R351): growth, POOL1, POOL2, PMAP_PBASE, ROOT_PADDR as put in force, and how many
were out of range. An address that is not 4 KiB aligned is taken down to the page it lies in (log 28). -/
def placementAt (s : List Byte) : (Nat × Nat × Nat) × (Nat × Nat) × Nat :=
  let g := nearest 0 256 (fieldAt s 0x18 2)
  let p1 := nearest 0 100 (fieldAt s 0x1A 1)
  let p2 := nearest 0 (100 - p1.1) (fieldAt s 0x1B 1)
  let a := fieldAt s 0x08 8
  let r := fieldAt s 0x10 8
  let bad := [g.2, p1.2, p2.2, a % 4096 != 0, r % 4096 != 0]
  ((g.1, p1.1, p2.1), (a - a % 4096, r - r % 4096), (bad.filter id).length)

/-- The address map, the memory-port map and the image-only placement parameters of an image over a configuration
(R471, R482). -/
def mapOf (c : Cfg) (b : List Byte) : Cfg :=
  let s := secBytes b 1
  let p := secBytes b 7
  let q := placementAt p
  let x := fieldAt s 8 8
  { c with
    hashKey := BitVec.ofNat 36 (fieldAt s 0 8)
    portCap := x % 4096
    granule := BitVec.ofNat 2 (x / 4096)
    pageMap := regionAt s 0x10
    spill := regionAt s 0x18
    near := regionAt s 0x20
    comp := regionAt s 0x28
    windows := (List.range 32).map (windowAt s)
    persistSize := fieldAt p 0 4
    growth := q.1.1
    pool1 := q.1.2.1
    pool2 := q.1.2.2
    pmapPbase := q.2.1.1
    rootPaddr := q.2.1.2
    excl := BitVec.ofNat 17 (fieldAt (secBytes b 9) 0 4) }

/-- Nonzero items of a range, in order: the form of a keyed list whose unlisted items are 0. -/
def nonzero {w : Nat} (n : Nat) (f : Nat → BitVec w) : List (Nat × BitVec w) :=
  (List.range n).filterMap fun i => if f i = 0 then none else some (i, f i)

/-- The table of an image (R472): the Ranvos reference table under its own identifier (log 8). -/
def tableOf (b : List Byte) : TableMem :=
  let s := secBytes b 5
  if BitVec.ofNat 64 (fieldAt s 0 8) = Config.refTableId then .reference
  else .words (nonzero 2048 fun i => BitVec.ofNat 40 (fieldAt s (0x40 + 8 * i) 8))
              (nonzero 4096 fun i => BitVec.ofNat 64 (fieldAt s (0x4040 + 8 * i) 8))

/-- The contents that only a power-on puts in force (R482). -/
def powerOnOf (b : List Byte) : List Byte :=
  secBytes b 1 ++ secBytes b 9 ++ bytesAt (secBytes b 7) 0 0x1C

/-! ### Check 3: ADDRESS_MAP (R51, R53, R73, R74, R136, R333) -/

/-- Near-tier maximum in GiB (R4). -/
def nearMax : Variant → Nat
  | .yzh04 => 4096
  | .yzh08 => 8192
  | .yzh16 => 16384

/-- The windows' rules (R51). -/
def windowsOk (c : Cfg) : Bool :=
  let u := c.windows.filter Window.used
  let hints := u.filter fun w => w.type == 0b11
  (u.all fun w => 1 ≤ w.size.toNat && w.size.toNat ≤ 2097152 && w.base.toNat + w.size.toNat ≤ 2097152) &&
  hints.length == 1 && (hints.all fun w => w.size == 1) &&
  (u.foldl (fun n w => n + w.size.toNat) 0 ≤ c.persistSize) &&
  ((List.range 32).all fun i => (List.range 32).all fun j =>
    match c.windows[i]?, c.windows[j]? with
    | some a, some b => i == j || !a.used || !b.used || apart a.base.toNat a.size.toNat b.base.toNat b.size.toNat
    | _, _ => true)

/-- The regions' rules (R74), and the size of the spill region (R136). -/
def regionsOk (v : Variant) (c : Cfg) : Bool :=
  let rs := [c.pageMap, c.spill, c.near, c.comp]
  1 ≤ c.portCap && c.portCap ≤ 2048 && c.granule != 0b11 &&
  (rs.all fun r => r.base + r.size ≤ v.mems * c.portCap) &&
  ((List.range 4).all fun i => (List.range 4).all fun j =>
    match rs[i]?, rs[j]? with
    | some a, some b => i == j || apart a.base a.size b.base b.size
    | _, _ => true) &&
  c.near.size + c.comp.size ≤ nearMax v && (c.spill.size == 0 || (c.spill.size ≤ 64 && 2 ^ Nat.log2 c.spill.size == c.spill.size))

/-- Bytes of the placement work area (R333, R53). -/
def State.workBytes (s : State) : Nat :=
  let n := s.frameCount + s.slotCount
  8 * s.pagesEnd + 8 * n + 4 * n + (n + 7) / 8

/-- Check 3 of R476; the counts are those of the map in the image. -/
def State.checkMap (s : State) (b : List Byte) : Bool :=
  let c := mapOf s.cfg b
  windowsOk c && regionsOk s.variant c && { s with cfg := c }.workBytes ≤ gib * c.pageMap.size

/-! ### Check 4: HOSTS (R68, R69) -/

/-- Two entries that share a port break R69; all 12 bits of MATCH_VALUE are compared, whatever the kind (log 58). -/
def hidsClash (a b : Hid) : Bool :=
  a.portMask &&& b.portMask != 0 && (a.kind == 0 || b.kind == 0 || (a.kind == b.kind && a.value == b.value))

/-- PORT_MASK names ports of the variant (R69). -/
def hidOk (v : Variant) (h : Hid) : Bool := h.portMask.toNat < 2 ^ v.hosts

/-- Check 4 of R476: no entry holds the reserved MATCH_KIND (R68); the rules of R69 bind the valid entries (log 58). -/
def checkHosts (v : Variant) (b : List Byte) : Bool :=
  let all := (List.range 64).map (hidAt (secBytes b 2))
  let hs := all.filter fun h => h.valid
  (all.all fun h => h.kind != 0b11) && hs.all (hidOk v) &&
  (List.range hs.length).all fun i => (List.range hs.length).all fun j =>
    match hs[i]?, hs[j]? with
    | some a, some c => i == j || !hidsClash a c
    | _, _ => true

/-! ### Check 5: TABLE (R219, R189) -/

/-- A cell word's structure. -/
def cellOk (c : BitVec 40) : Bool :=
  let n := fieldN c 37 3
  n ≤ 5 && fieldN c 0 12 + 2 ^ n ≤ 4096

/-- Check 5 of R476. -/
def checkTable (b : List Byte) : Bool :=
  let s := secBytes b 5
  ((List.range 2048).all fun i => cellOk (BitVec.ofNat 40 (fieldAt s (0x40 + 8 * i) 8))) &&
  fieldAt s 4 4 == (crc32c (bytesAt s 0x40 0x4000)).toNat && fieldAt s 0 4 == (crc32c (bytesAt s 0x4040 0x8000)).toNat

/-! ### Check 6: reserved bits and bytes (R474) -/

/-- Bits of a register that an image may set: its RW, RWB and stored GS bits (R470). -/
def imgMask (o : Nat) : Nat :=
  match regDef .yzh16 o with | some d => (d.rw ||| d.rwb ||| d.gs).toNat | none => 0

/-- Register words in a section: offset in the section and register offset. -/
def secRegs (n : Nat) : List (Nat × Nat) :=
  let run (k a r step : Nat) : List (Nat × Nat) := (List.range k).map fun i => (a + step * i, r + 4 * i)
  if n = 3 then run 32 0x80 0x40000 4 ++ [(0x100, 0x40080)] ++ run 16 0x140 0x400C0 4
  else if n = 7 then [(0x20, 0x30010), (0x24, 0x30014), (0x28, 0x30018), (0x2C, 0x3001C), (0x30, 0x30020), (0x34, 0x30024),
    (0x38, 0x30028), (0x3C, 0x3002C)]
  else if n = 8 then run 8 0 0x20020 4 ++ run 8 0x20 0x20040 4
  else if n = 10 then [(0, 0x50000), (4, 0x50020)] ++
    (List.range 12).flatMap fun p => run 9 (0x40 + 48 * p) (0x50100 + 0x40 * p) 4
  else []

/-- Registers of every slice in a section: offset in the section, bytes, offset within a slice's block. -/
def secSlRegs (n : Nat) : List (Nat × Nat × Nat) :=
  if n = 4 then (List.range 16).map (fun i => (4 * i, 4, 0x040 + 4 * i)) ++ (List.range 16).map fun i => (0x40 + 2 * i, 2, 0x080 + 4 * i)
  else if n = 6 then [(0, 4, 0x100), (4, 4, 0x104), (8, 4, 0x120), (12, 4, 0x124)]
  else []

/-- The fields of a section, each an offset, a length in bytes and the bits that are not reserved. -/
def secFields (n : Nat) : List (Nat × Nat × Nat) :=
  let regs := (secRegs n).map fun x => (x.1, 4, imgMask x.2)
  let sl := (secSlRegs n).map fun x => (x.1, x.2.1, imgMask (slBase 0 + x.2.2))
  let run (k a len step m : Nat) : List (Nat × Nat × Nat) := (List.range k).map fun i => (a + step * i, len, m)
  regs ++ sl ++
  if n = 1 then [(0, 8, 2 ^ 36 - 1), (8, 8, 2 ^ 14 - 1)] ++ run 4 0x10 8 8 (2 ^ 40 - 1) ++ run 32 0x40 8 8 (2 ^ 47 - 1)
  else if n = 2 then (0, 2, 65535) :: run 64 0x40 4 4 0xFFFFFFFE
  else if n = 3 then run 64 0 1 1 3 ++ run 8 0x40 1 1 3
  else if n = 4 then run 17 0x60 2 2 65535
  else if n = 5 then [(0, 8, 2 ^ 64 - 1), (8, 1, 1)] ++ run 2048 0x40 8 8 (2 ^ 40 - 1) ++ run 4096 0x4040 8 8 (2 ^ 64 - 1)
  else if n = 7 then [(0, 4, 2 ^ 32 - 1), (8, 8, 2 ^ 64 - 1), (0x10, 8, 2 ^ 64 - 1), (0x18, 2, 65535), (0x1A, 1, 255), (0x1B, 1, 255)]
  else if n = 9 then [(0, 4, 2 ^ 17 - 1)]
  else []

/-- The bits of byte i of a section that are not reserved. -/
def secByteMask (n i : Nat) : Nat :=
  match (secFields n).find? fun f => f.1 ≤ i && i < f.1 + f.2.1 with
  | some f => f.2.2 / 256 ^ (i - f.1) % 256
  | none => 0

/-- Check 6 for one section. -/
def checkReserved (b : List Byte) (n : Nat) : Bool :=
  let s := secBytes b n
  (List.range (secLen n)).all fun i => (fieldAt s i 1) &&& secByteMask n i == fieldAt s i 1

/-- Checks 1 to 6 of R476: the section code of the first that does not pass. -/
def State.checkSlot (s : State) (b : List Byte) : Option Nat :=
  if !checkDir b then some 0
  else match secIds.find? fun n => !checkCrc b n with
    | some n => some n
    | none =>
      if !s.checkMap b then some 1
      else if !checkHosts s.variant b then some 2
      else if !checkTable b then some 5
      else secIds.find? fun n => !checkReserved b n

end Sys2Proof.Machine
end

