-- ==== Sys2Proof/Machine/Root.lean ====
section
/-! DEFINITION. The root record, the restart and the save (R384, R393 to R399). -/

namespace Sys2Proof.Machine

/-- A is later than B in serial order modulo 2^32 (R394, R475). -/
def serialLater (a b : W32) : Bool := a != b && (a - b).toNat < 2147483648

/-! ### Copies (R393, R394) -/

/-- The 4 KiB header of a root copy (R393). -/
def RootCopy.bytes (c : RootCopy) : List Byte :=
  let h := leBytes 4 0x79710C3E ++ leBytes 2 1 ++ [c.state] ++ [c.game] ++ leBytes 4 c.seq.toNat ++ leBytes 4 c.pinCount ++
    leBytes 8 c.sweepPos.toNat ++ [c.sweepGame] ++ leBytes 3 0 ++ leBytes 4 c.manifest ++ leBytes 4 c.progress ++
    leBytes 4 c.pinCrc.toNat ++ List.replicate 4052 0
  h ++ leBytes 4 (crc32c h).toNat

/-- The fields of a header. -/
def RootCopy.parse (b : List Byte) : RootCopy where
  state := BitVec.ofNat 8 (fieldAt b 6 1)
  game := BitVec.ofNat 8 (fieldAt b 7 1)
  seq := BitVec.ofNat 32 (fieldAt b 8 4)
  pinCount := fieldAt b 0xC 4
  sweepPos := BitVec.ofNat 36 (fieldAt b 0x10 8)
  sweepGame := BitVec.ofNat 8 (fieldAt b 0x18 1)
  manifest := fieldAt b 0x1C 4
  progress := fieldAt b 0x20 4
  pinCrc := BitVec.ofNat 32 (fieldAt b 0x24 4)

/-- MAGIC, VERSION and HDR_CRC check, and SAVE_STATE is defined (R394, R395). -/
def headerValid (b : List Byte) : Bool :=
  fieldAt b 0 4 == 0x79710C3E && fieldAt b 4 2 == 1 && fieldAt b 6 1 ≤ 3 && fieldAt b 0xC 4 ≤ 262144 &&
  fieldAt b 0xFFC 4 == (crc32c (b.take 0xFFC)).toNat

/-- A pin list or manifest of pages as bytes (R393). -/
def pagesBytes (l : List Page) : List Byte := l.flatMap fun p => leBytes 8 p.toNat

/-- The pages of n entries. -/
def bytesPages (n : Nat) (b : List Byte) : List Page :=
  (List.range n).map fun i => BitVec.ofNat 36 (fieldAt b (8 * i) 8)

/-- Byte address of a copy (R393). -/
def State.copyAddr (s : State) (second : Bool) : Nat := s.cfg.rootPaddr + if second then 0x400000 else 0

/-- Write lines to the persistent tier, at most 1,024 a command (R556); answers the number of commands. -/
def State.persistWrites : (n : Nat) → State → Nat → List Line → State × Nat
  | 0, s, _, _ => (s, 0)
  | n + 1, s, a, ls =>
    if ls.isEmpty then (s, 0)
    else
      let s1 := (s.teSend (.persistWrite a (ls.take 1024)) .rootWrite).1
      let r := State.persistWrites n s1 (a + 65536) (ls.drop 1024)
      (r.1, r.2 + 1)

/-- Pages pinned as class K, ascending (R336). -/
def State.kpinList (s : State) : List Page :=
  (s.dir.classPins.filter fun x => x.2 == 0b100).map fun x => BitVec.ofNat 36 x.1

/-- Write a root copy whole, into the copy not written last, with SEQ one more (R394). At restart the pin list is the one
of the copy in force. -/
def State.writeRoot (s : State) (st : BitVec 8) (manifest progress : Nat) : State :=
  let pins := if s.gl.phase.toNat == 4 then s.root.repin else s.kpinList
  let seq := s.root.seq + 1
  let pb := pagesBytes pins
  let c : RootCopy := ⟨st, s.gl.game, seq, pins.length, BitVec.ofNat 36 s.dctl.sweepPage, s.dctl.sweepGame, manifest, progress, crc32c pb⟩
  let ls := bytesLines (64 + (pb.length + 63) / 64) (c.bytes ++ pb)
  let r := s.persistWrites 40 (s.copyAddr s.root.nextSecond) ls
  { r.1 with root := { r.1.root with seq := seq, nextSecond := !s.root.nextSecond, saveState := st, writes := r.1.root.writes + r.2 } }

/-! ### Restart (R396 to R399) -/

/-- Begin the restart: read the first root copy's header (R396, R479). -/
def State.beginRestart (s : State) : State :=
  let s1 := (s.teSend (.persistRead (s.copyAddr false) 64) (.rootHdr false)).1
  { s1 with gl := { s1.gl with phase := 4 }, root := { Root.blank with stage := .reading, save := s.root.save } }

/-- The restart goes on: the game number is set and a copy with SAVE_STATE RUNNING is written (R146, R399). -/
def State.writeRunning (s : State) : State :=
  { s with root := { s.root with stage := .writing, held := false } }.writeRoot 0 0 0

/-- Take up the copy in force: game, sweeper, pin list, the copy to write next. The pass goes on with the increments since the game
number at which it began, and with this restart's (R150). -/
def State.adoptCopy (s : State) (second : Bool) (c : RootCopy) (pins : List Page) : State :=
  let n := (c.game - c.sweepGame).toNat
  State.sweepIncrement { s with
    gl := { s.gl with game := c.game + 1 }
    dctl := { s.dctl with sweepPage := c.sweepPos.toNat, sweepGame := c.sweepGame, sweepIncs := n, sweepFast := 128 ≤ n }
    root := { s.root with seq := c.seq, nextSecond := !second, saveState := c.state, repin := pins,
                          last := c.state.setWidth 2, manifest := [], sent := c.progress, progress := c.manifest } }

/-- Find the outcome of R396 when both copies have been read. -/
def State.decideRestart (s : State) : State :=
  let best := match s.root.found with
    | [a, b] => some (if serialLater b.2.1.seq a.2.1.seq then b else a)
    | [a] => some a
    | _ => none
  let lossy (s : State) : State := s.setHealth fun g => { g with restartLoss := true }
  match best with
  | none =>
    lossy ({ s with root := { s.root with stage := .held, held := true, rootBad := true } }.logEv 0x37 1 srcDirector 0 0xFF)
  | some (second, c, pins) =>
    let s1 := s.adoptCopy second c pins
    if c.state = 0 then
      lossy ({ s1 with root := { s1.root with stage := .held, held := true, unsaved := true } }.logEv 0x37 1 srcDirector 0 0)
    else if c.state = 1 then
      let n := c.manifest - c.progress
      let s2 := { s1 with root := { s1.root with poisoned := BitVec.ofNat 26 (min n 67108863) } }
      (lossy (s2.logEv 0x37 1 srcDirector 0 (1 ||| (BitVec.ofNat 64 (min n 67108863) <<< 8)))).writeRunning
    else if c.state = 2 then (s1.logEv 0x37 1 srcDirector 0 2).writeRunning
    else s1.writeRunning

/-- A root copy has been read, validly or not: the other copy's turn, or the outcome. -/
def State.copyRead (s : State) (second : Bool) (r : Option (RootCopy × List Page)) : State :=
  let s1 := { s with root := { s.root with hdr := none, pinLines := [], found := match r with
    | some (c, l) => s.root.found ++ [(second, c, l)]
    | none => s.root.found } }
  if second then s1.decideRestart
  else (s1.teSend (.persistRead (s.copyAddr true) 64) (.rootHdr true)).1

/-- Lines of a pin list still to read, and the read that asks for them (at most 1,024 lines). -/
def State.readPins (s : State) (second : Bool) (c : RootCopy) : State :=
  let total := (c.pinCount + 7) / 8
  let have_ := s.root.pinLines.length
  if total ≤ have_ then
    let b := linesBytes s.root.pinLines
    s.copyRead second (if crc32c (b.take (8 * c.pinCount)) == c.pinCrc then some (c, bytesPages c.pinCount b) else none)
  else
    (s.teSend (.persistRead (s.copyAddr second + 0x1000 + 64 * have_) (min 1024 (total - have_))) (.rootPins second)).1

/-- Lines returned intact: status done and no line poisoned (R557). -/
def intact (st : BitVec 4) (ls : List PLine) : Bool := st == 0 && ls.all fun l => !l.poison

/-- A root copy's header has been read. -/
def State.headerRead (s : State) (second : Bool) (st : BitVec 4) (ls : List PLine) : State :=
  let b := linesBytes (ls.map PLine.data)
  if intact st ls && b.length == 4096 && headerValid b then
    let c := RootCopy.parse b
    { s with root := { s.root with hdr := some c, pinLines := [] } }.readPins second c
  else s.copyRead second none

/-- Part of a pin list has been read. -/
def State.pinsRead (s : State) (second : Bool) (st : BitVec 4) (ls : List PLine) : State :=
  match s.root.hdr with
  | none => s
  | some c =>
    if intact st ls && !ls.isEmpty then
      { s with root := { s.root with pinLines := s.root.pinLines ++ ls.map PLine.data } }.readPins second c
    else s.copyRead second none

/-- Manifest entries `sent` to `progress - 1` of the interrupted save are still to be read (R398). -/
def State.readManifest (s : State) : State :=
  if s.root.progress ≤ s.root.sent then { s with root := { s.root with stage := .pins } }
  else
    let first := s.root.sent / 8
    let last := (s.root.progress + 7) / 8
    let s1 := (s.teSend (.persistRead (s.cfg.rootPaddr + 0x800000 + 64 * first) (min 1024 (last - first))) (.manifestRead s.root.sent)).1
    { s1 with root := { s1.root with stage := .manifest } }

/-- Manifest lines have been read: their pages will be promoted poisoned (R398). An unreadable line names no page. -/
def State.manifestRead (s : State) (from_ : Nat) (ls : List PLine) : State :=
  let first := from_ / 8
  let ok := ls.mapIdx fun i l => (List.range 8).filterMap fun j =>
    let n := 8 * (first + i) + j
    if from_ ≤ n && n < s.root.progress && !l.poison then some (BitVec.ofNat 36 (fieldN l.data (64 * j) 36)) else none
  let nxt := if ls.isEmpty then s.root.progress else min s.root.progress (8 * (first + ls.length))
  { s with root := { s.root with poison := s.root.poison ++ ok.flatten, sent := nxt } }.readManifest

/-- Install a page's entry in the home slice's page-map cache (R106): the way it holds, else a free or a not class-K way. -/
def State.installPm (s : State) (p : Page) : State :=
  match s.homeSlice p with
  | none => s
  | some h =>
    let e := s.pageEnt p
    s.modSlice h fun sl =>
      let set := (p.extractLsb' 0 13 ^^^ p.extractLsb' 13 13).toNat
      let here (w : Nat) : Bool := match kget (set * 8 + w) sl.pm with | some x => x.page == p | none => false
      let free (w : Nat) : Bool := (kget (set * 8 + w) sl.pm).isNone
      let soft (w : Nat) : Bool := match kget (set * 8 + w) sl.pm with | some x => x.ent.classPin != 0b100 | none => true
      match (match (List.range 8).find? here with
        | some w => some w
        | none => match (List.range 8).find? free with | some w => some w | none => plruPick 3 sl.pmPlru set soft) with
      | some w =>
        let heat := match kget (set * 8 + w) sl.pm with | some x => if x.page == p then x.heat else 0 | none => 0
        ({ sl with pm := kset (set * 8 + w) ⟨p, e, heat⟩ sl.pm, pmPlru := plruTouch 3 sl.pmPlru set w }).kFollow p e.kpin
      | none => sl

/-- Write every line of a page with a nibble saying on-die tracked (R106): with the data where the home holds the line dirty or
waiting, otherwise as a meta-only write. -/
def State.stampPage (s : State) (p : Page) : State :=
  match s.homeSlice p with
  | none => s
  | some h =>
    let n := s.nibNow 0b01
    (List.range 64).foldl (fun s i =>
      let l := pageLine p i
      let r := s.recordNib h l n
      let s1 := if r.2.1.isEmpty then r.1 else (r.1.mirSend h r.2.1).1
      if r.2.2 then s1
      else s1.memSubmit (memCmd .metaWrite false ((s.pageEnt p).na l) l n 0 false .director)) s

/-- The director's meta-only writes of a page that have not been acknowledged. -/
def State.stampsOut (s : State) (p : Page) : Bool :=
  s.memPorts.any fun m => (m.out ++ m.waiting).any fun c => c.owner == .director && !c.givenUp && pageOf c.line == p

/-- Some meta-only write of the director has not been acknowledged. -/
def State.stampsLeft (s : State) : Bool :=
  s.memPorts.any fun m => (m.out ++ m.waiting).any fun c => c.owner == .director && !c.givenUp

/-- A pinned page counts as dirty from the completion of its pin (R355). -/
def State.pinDirty (s : State) (p : Page) : State :=
  let e := s.pageEnt p
  let s1 := s.setEnt p { e with dirty := true }
  match s.entFrame e with | some f => s1.dirtyFrame f | none => s1

/-- Promote pages at restart: pages of R398 poisoned, then pages of the class-K pin list with every nibble on-die tracked
(R106, R337). A page waits for its chunk; each page takes one frame. -/
def State.reconcileOne (s : State) (p : Page) (poison : Bool) : State :=
  if (s.dctl.te.any fun c => match c.use with | .restart q _ _ => q == p | _ => false) then s
  else if (s.pageEnt p).near then
    let r := s.root
    if poison then { s with root := { r with poison := r.poison.filter (· != p) } }
    else (({ s with root := { r with repin := r.repin.filter (· != p) } }.stampPage p).pinDirty p).installPm p
  else
    match s.takeFrame p 255 with
    | none => s
    | some (f, s1) =>
      (s1.teSend (.copyToFrame (s.persistNo p) f (if poison then 0 else BitVec.allOnes 64) s.glow poison) (.restart p f poison)).1

/-- Go on with the reconciliation as far as chunks and frames allow; when nothing is left, and the nibbles that it writes are
acknowledged (R106), the block is ready (R399). -/
def State.reconcile (s : State) : State :=
  if s.root.stage != .pins then s
  else
    let s1 := s.root.poison.foldl (fun s p => if s.chunkIn p then s.reconcileOne p true else s) s
    let s2 := s1.root.repin.foldl (fun s p => if s.chunkIn p && !s.root.poison.contains p then s.reconcileOne p false else s) s1
    if s2.root.poison.isEmpty && s2.root.repin.isEmpty && !s2.stampsLeft then { s2 with root := { s2.root with stage := .ready } } else s2

/-- A page's copy at restart has ended: the entry update of R340. -/
def State.restartCopied (s : State) (p : Page) (f : Nat) (poison : Bool) : State :=
  let e := s.pageEnt p
  let s1 := if poison then s.poisonPage p 9 else s
  let s2 := s1.setEnt p { e with tier := 0b01, frame := s.frameField f, game := s.gl.game, mig := false, cslot := 0 }
  s2.reconcile

/-! ### Save (R384) -/

/-- Pages with DIRTY = 1 in ascending order of bitmap position, frames before slots; a position whose page's entry does
not point back is left out (R332, R384). -/
def State.dirtyPages (s : State) : List Page :=
  (s.dir.dirtyFrames.filterMap fun f => match kget f s.dir.frames with
    | some x => if s.entFrame (s.pageEnt x.page) == some f then some x.page else none
    | none => none) ++
  (s.dir.dirtySlots.filterMap fun n => match kget n s.dir.slots with
    | some x => if s.entSlot (s.pageEnt x.page) == some n then some x.page else none
    | none => none)

/-- Command the save engine for manifest pages, in order, while CTAGs are free (R384 step 3). -/
def State.sendSaves : (n : Nat) → State → State
  | 0, s => s
  | n + 1, s =>
    match s.root.manifest[s.root.sent]? with
    | none => s
    | some p =>
      if 256 ≤ s.dctl.te.length then s
      else
        let e := s.pageEnt p
        let src := match s.entFrame e, s.entSlot e with | some f, _ => f | none, some m => m | none, none => 0
        let s1 := (s.teSend (.savePage src e.cslot (s.persistNo p) (s.homeSlice p).isNone) (.save s.root.sent)).1
        State.sendSaves n { s1 with root := { s1.root with sent := s.root.sent + 1 } }

/-- Go on with a save whose outstanding writes have all been acknowledged; `shutdown`: a shutdown request is pending. -/
def State.saveNext (s : State) (shutdown : Bool) : State :=
  if s.root.writes != 0 then s
  else
    let m := s.root.manifest.length
    match s.root.save with
    | .manifest => { s with root := { s.root with save := .inProgress } }.writeRoot 1 m 0
    | .inProgress =>
      let s1 := { s with root := { s.root with save := .pages, sent := 0, acked := [], progress := 0 } }
      if m = 0 then { s1 with root := { s1.root with save := .progress } }.writeRoot 1 m 0 else s1.sendSaves 256
    | .pages =>
      if s.root.progress = m then { s with root := { s.root with save := .progress } }.writeRoot 1 m m else s
    | .progress => { s with root := { s.root with save := .last } }.writeRoot (if shutdown then 3 else 2) m m
    | .last => s
    | .resume => s
    | .idle => s

/-- Begin the save: the manifest is written (R384 step 1). -/
def State.beginSave (s : State) (shutdown : Bool) : State :=
  let pages := s.dirtyPages
  let b := pagesBytes pages
  let r := s.persistWrites 70000 (s.cfg.rootPaddr + 0x800000) (bytesLines ((b.length + 63) / 64) b)
  { r.1 with root := { r.1.root with save := .manifest, manifest := pages, sent := 0, acked := [], progress := 0,
                                     writes := r.1.root.writes + r.2 } }.saveNext shutdown

/-- The number of leading entries acknowledged. -/
def leading : (n : Nat) → List Nat → Nat → Nat
  | 0, _, k => k
  | n + 1, l, k => if l.contains k then leading n l (k + 1) else k

/-- A page's save has ended (R384): an error is logged and the page counted as saved poisoned; a page of a lost range is saved poisoned (R429); SAVE_PROGRESS is written
every 1,048,576 pages and at the end. -/
def State.pageSaved (s00 : State) (idx : Nat) (st : BitVec 4) (shutdown poison : Bool) : State :=
  let s := if poison && st = 0 then (match s00.root.manifest[idx]? with | some p => s00.poisonPage p 10 | none => s00) else s00
  let s0 := if st = 0 then s
    else match s.root.manifest[idx]? with
      | some p => (s.poisonPage p 9).logEv 0x14 1 srcDirector 0 (p.setWidth 64)
      | none => s
  let k := leading (s0.root.acked.length + 1) (idx :: s0.root.acked) s0.root.progress
  let was := s0.root.progress
  let s1 := { s0 with root := { s0.root with acked := (idx :: s0.root.acked).filter fun n => k ≤ n, progress := k } }
  let m := s1.root.manifest.length
  if k = m then s1.saveNext shutdown
  else if was / 1048576 < k / 1048576 then (s1.writeRoot 1 m k).sendSaves 256
  else s1.sendSaves 256

end Sys2Proof.Machine
end

