-- ==== Sys2Proof/Machine/Endgame.lean ====
section
/-! DEFINITION. The Endgame unit: channels, feed, states, drain causes, energy, allowance (R367 to R392). -/

namespace Sys2Proof.Machine

open Sys2Proof

/-! ### Parameters in force (R374) -/

def State.egFeedOk (s : State) : Nat := fieldN (s.actReg 0x20040) 16 16
def State.egFeedUv (s : State) : Nat := fieldN (s.actReg 0x20040) 0 16
def State.egRideTime (s : State) : Nat := clamp 5 200 (fieldN (s.actReg 0x20044) 0 8)
def State.egVmin (s : State) : Nat := max 1 (fieldN (s.actReg 0x20048) 16 16)
def State.egEff (s : State) : Nat := clamp 50 100 (fieldN (s.actReg 0x20048) 0 7)
def State.egCap (s : State) : Nat := (s.actReg 0x2004C).toNat
def State.egPHold (s : State) : Nat := clamp 1 10000 (fieldN (s.actReg 0x20050) 0 14)
def State.egPSave (s : State) : Nat := clamp 1 10000 (fieldN (s.actReg 0x20050) 14 14)
def State.egRate (s : State) : Nat := clamp 1000 200000 (fieldN (s.actReg 0x20054) 14 18)
def State.egERes (s : State) : Nat := min 1000 (fieldN (s.actReg 0x20054) 4 10)
def State.egCrit (s : State) : Nat := min 1500 (fieldN (s.actReg 0x20058) 16 11)
def State.egWarn (s : State) : Nat := fieldN (s.actReg 0x20058) 0 11
/-- RATIO of a channel (R372). -/
def State.egRatio (s : State) (c : Nat) : Nat := if c ≤ 5 then fieldN (s.actReg (0x20020 + 4 * c)) 16 16 else 0
/-- FILT_K of a channel (R370). -/
def State.egFilt (s : State) (c : Nat) : Nat := fieldN (s.actReg (0x20020 + 4 * c)) 0 3

/-! ### Channels (R370 to R373) -/

/-- The corrected code of a raw sample (R371). -/
def trimCode (w : W32) (raw : Nat) : Nat :=
  let k : Int := ((raw : Int) - (w.extractLsb' 0 8).toInt) * (fieldN w 8 12 : Int) / 2048
  if k < 0 then 0 else min 4095 k.toNat

/-- The median of three numbers. -/
def median3 (a b c : Nat) : Nat := max (min a b) (min (max a b) c)

/-- Take a code into a channel (R370): the median of its last three codes, then the filter. Before three samples have
come the first one stands for those missing (log 26). -/
def EgChan.take (c : EgChan) (filt k : Nat) : EgChan :=
  let l := (k :: c.last).take 3
  let oldest := (l.getLast?).getD k
  let m := median3 (l.getD 0 k) (l.getD 1 oldest) (l.getD 2 oldest)
  if c.sampled then
    let y : Int := c.y.toNat
    { c with last := l, y := BitVec.ofInt 16 (y + (16 * (m : Int) - y) / 2 ^ filt) }
  else { c with last := l, y := BitVec.ofNat 16 (16 * m), sampled := true }

/-- A channel. -/
def State.egChan (s : State) (c : Nat) : EgChan := (s.eg.chans[c]?).getD ⟨[], 0, false⟩
/-- The filtered code y >> 4. -/
def EgChan.code (c : EgChan) : Nat := c.y.toNat / 16
/-- A channel's voltage in mV (R372). -/
def State.egVolt (s : State) (c : Nat) : Nat := 1200 * (s.egChan c).code * s.egRatio c / 1048576
/-- The temperature in 0.1 °C (R371). -/
def State.egTemp (s : State) : Int :=
  let tc : Int := fieldN ((s.pins.trim[6]?).getD 0) 20 12
  let slope : Int := (((s.pins.trim[8]?).getD 0).extractLsb' 0 12).toInt
  250 + (((s.egChan 6).code : Int) - tc) * slope / 256

/-- The unit decides from a channel: calibration in force and no sensor fault (R373, R376). -/
def State.egAnalog (s : State) : Bool := s.eg.calLoaded && !s.eg.sensor
/-- TDIE is at or above a threshold (R377); TDIE counts on through a sensor fault (R373). -/
def State.egHotter (s : State) (t : Nat) : Bool := s.eg.calLoaded && (s.egChan 6).sampled && (t : Int) ≤ s.egTemp

/-! ### The feed (R376) -/

/-- The digital conditions of R376. -/
def feedPins (i : EgInputs) : Bool := i.sel != 0 && i.gatePg && !i.efuseFlt && !i.pwarn

/-- VBUS takes part (R376). -/
def State.vbusUsed (s : State) : Bool := s.egAnalog && s.egRatio 2 != 0 && (s.egChan 2).sampled

/-- The feed, good or lost, as the inputs and VBUS now stand. -/
def State.feedGood (s : State) : Bool :=
  feedPins s.eg.inp &&
  (!s.vbusUsed || (if s.eg.good then s.egFeedUv ≤ s.egVolt 2 else s.egFeedOk ≤ s.egVolt 2))

/-! ### Drain (R381, R386) -/

/-- A drain cause as records name it (R437 code 0x33). -/
def Causes.add (c : Causes) (n : Nat) : Causes :=
  if n = 0 then { c with efuse := true } else if n = 3 then { c with hot := true }
  else if n = 4 then { c with shutdown := true } else if n = 5 then { c with gpf := true }
  else if n = 6 then { c with failed := true } else { c with ride := true }

/-- A slice starts the drain walk (R382). -/
def Slice.startDrain (sl : Slice) : Slice :=
  { sl with ident := { sl.ident with draining := true, drainSet := 0, drainPass := false } }

/-- Enter DRAIN: the drain request is asserted; the agent ports stop taking requests, the director abandons its moves,
the slices start the drain walk (R381). -/
def State.enterDrain (s : State) (n : Nat) : State :=
  let fa (a : AgentPort) : AgentPort := { a with stopped := true }
  let fs (sl : Slice) : Slice := if sl.ident.role.serves && !sl.ident.isolated then sl.startDrain else sl
  let e := { s.eg with pstate := .drain, drainReq := true, frozen := true, causes := s.eg.causes.add n }
  let s1 := { s with eg := e, agentPorts := s.agentPorts.map fa, slices := s.slices.map fs }
  (s1.abandonMoves).logEv 0x33 1 srcEndgame 0 (BitVec.ofNat 64 n)

/-- A drain cause arrives (R377, R386): it enters DRAIN from NORMAL or RIDE, and joins a drain or save in progress. -/
def State.drainCause (s : State) (n : Nat) : State :=
  match s.eg.pstate with
  | .normal => s.enterDrain n
  | .ride => s.enterDrain n
  | .drain => { s with eg := { s.eg with causes := s.eg.causes.add n } }
  | .save => { s with eg := { s.eg with causes := s.eg.causes.add n } }
  | .off => s
  | .debounce => s
  | .start => s
  | .saved => s

/-! ### Block failure (R430) -/

/-- The block fails (R430): error responses and INT_ERR; `code` is the triggering record's. -/
def State.failBlock (s : State) (code : Nat) : State :=
  if s.gl.blockFailed then s
  else s.setHealthWith (fun g => { g with blockFailed := true }) 0x08 3 0 (BitVec.ofNat 64 code)

/-- The block fails with the director and the Endgame unit unaffected: DRAIN with shutdown as cause (R430). -/
def State.blockFail (s : State) (code : Nat) : State :=
  if s.gl.blockFailed then s
  else
    let s2 := (s.failBlock code).drainCause 6
    if s2.eg.drainReq then { s2 with eg := { s2.eg with causes := s2.eg.causes.add 4 } } else s2

/-! ### States (R377) -/

/-- Raise bits of EG_INT. -/
def State.egInt (s : State) (bit : Nat) : State := { s with eg := { s.eg with ints := setBit s.eg.ints bit true } }

/-- Apply the rows of R377 that follow from the feed, the eFuse and TDIE, the first that applies. -/
def State.egSettle (s0 : State) : State :=
  let s := { s0 with eg := { s0.eg with good := s0.feedGood } }
  let go (p : PState) : State := { s with eg := { s.eg with pstate := p } }
  match s.eg.pstate with
  | .off => if s.eg.good then { s with eg := { s.eg with pstate := .debounce, wake := false } } else s
  | .debounce => if s.eg.good then s else { s with eg := { s.eg with pstate := .off, qualFails := s.eg.qualFails + 1 } }
  | .start => if s.eg.good then s else { s with eg := { s.eg with pstate := .off, pg := false } }
  | .normal =>
    if s.eg.inp.efuseFlt then s.enterDrain 0
    else if s.egHotter s.egCrit then s.enterDrain 3
    else if !s.eg.good then ({ s with eg := { s.eg with pstate := .ride, frozen := true } }).egInt 3
    else s
  | .ride =>
    if s.eg.inp.efuseFlt then s.enterDrain 0
    else if s.egHotter s.egCrit then s.enterDrain 3
    else s
  | .drain =>
    let s1 := if s.eg.inp.efuseFlt then { s with eg := { s.eg with causes := s.eg.causes.add 0 } } else s
    if s.egHotter s.egCrit then { s1 with eg := { s1.eg with causes := s1.eg.causes.add 3 } } else s1
  | .save =>
    let s1 := if s.eg.inp.efuseFlt then { s with eg := { s.eg with causes := s.eg.causes.add 0 } } else s
    if s.egHotter s.egCrit then { s1 with eg := { s1.eg with causes := s1.eg.causes.add 3 } } else s1
  | .saved => if !s.eg.good then go .off else if !s.eg.causes.shutdown then go .debounce else s

/-- Wake events in OFF (R378): bit of EG_WAKE that enables the event. -/
def State.egWake (s : State) (bit : Nat) : State :=
  if s.eg.pstate == .off && bitAt (s.actReg 0x2005C) bit then { s with eg := { s.eg with wake := true } } else s

/-- A change of the accepted digital inputs (R367, R377, R378); eg_sel 0b11 is taken as 0b00 and counted. -/
def State.egInputs (s : State) (i : EgInputs) : State :=
  let bad := i.sel == 0b11
  let i' : EgInputs := if bad then { i with sel := 0 } else i
  let s1 := if i'.sel != s.eg.inp.sel then s.egWake 0 else s
  ({ s1 with eg := { s1.eg with inp := i', selErrs := if bad then s1.eg.selErrs + 1 else s1.eg.selErrs } }).egSettle

/-- TDIE against T_WARN: each crossing asserts INT_ENDGAME, logs one record and may wake (R377, R378). -/
def State.egWarned (s : State) : State :=
  let hot := s.egHotter s.egWarn
  let s1 := { s with eg := { s.eg with hot := hot } }
  if hot && !s.eg.hot then
    ((s1.egInt 2).logEv 0x34 1 srcEndgame 0 (BitVec.ofInt 12 s.egTemp |>.setWidth 64)).egWake 1
  else s1

/-- Energy of the bank above VHOLD_MIN, in units of 1/200 pJ (R379, R387). -/
def State.bankEnergy (s : State) : Nat :=
  let v := s.egVolt 3
  if v ≤ s.egVmin then 0 else s.egCap * (v * v - s.egVmin * s.egVmin) * s.egEff

/-- The energy floor of R379 is reached. -/
def State.energyFloor (s : State) : Bool :=
  s.egAnalog && s.egCap != 0 && s.egRatio 3 != 0 &&
  s.bankEnergy * s.egRate < 200 * s.egRate * (1000000000000 * s.egERes + 205000000 * s.egPHold) +
    100000 * (200 * s.egPSave * (4096 * s.budgetPages))

/-- VREF outside its window three times running (R373). -/
def State.egVref (s : State) : State :=
  let c := (s.egChan 7).code
  if 2024 ≤ c && c ≤ 2072 then { s with eg := { s.eg with vrefMiss := 0 } }
  else
    let n := s.eg.vrefMiss + 1
    let s1 := { s with eg := { s.eg with vrefMiss := n } }
    if n = 3 && !s.eg.sensor then
      ((({ s1 with eg := { s1.eg with sensor := true } }).egInt 1).logEv 0x35 2 srcEndgame 0 0).setHealth fun g => { g with sensor := true }
    else s1

/-- A sample of an ADC channel (R370, R373, R376 to R379). -/
def State.egSample (s : State) (c : Nat) (raw : BitVec 12) : State :=
  let k := trimCode ((s.pins.trim[c]?).getD 0) raw.toNat
  let s1 := { s with eg := { s.eg with chans := s.eg.chans.modify c fun x => x.take (s.egFilt c) k } }
  if c = 7 then s1.egVref
  else if c = 6 then s1.egWarned.egSettle
  else if c = 3 then
    let low := s1.egAnalog && s1.egRatio 3 != 0 && s1.egVolt 3 < s1.egVmin + 1000
    let s2 := { s1 with eg := { s1.eg with vLow := low } }
    let s3 := if low && !s1.eg.vLow then s2.egWake 2 else s2
    if s3.eg.pstate == .ride && s3.energyFloor then s3.enterDrain 1 else s3
  else if c = 2 then s1.egSettle
  else s1

/-- The ADC converts its channels in turn, 0 to 7 (R370): a sample is that of the channel whose turn it is. -/
def State.adcTurn (s : State) (c : Nat) (raw : BitVec 12) : State :=
  if c < 8 && c = s.eg.adcNext then { s with eg := { s.eg with adcNext := (c + 1) % 8 } }.egSample c raw else s

/-! ### The allowance (R387 to R389) -/

/-- A with `extra` further manifest terms of 2 ms, in units of 16 MiB (R387). -/
def State.allowFor (s : State) (extra : Nat) : Nat :=
  let spent := 200 * (1000000000000 * s.egERes +
    s.egPHold * (10000000 * s.egRideTime + 205000000 + 200000000 * extra))
  min 16384 ((s.bankEnergy - spent) * s.egRate / (20000000 * s.egPSave) / 16777216)

/-- Repeat with the manifest's term for the A found until A no longer falls (R387). -/
def State.allowLoop (s : State) : (n a : Nat) → Nat
  | 0, a => a
  | n + 1, a =>
    let b := s.allowFor ((a + 2047) / 2048 - 1)
    if b < a then State.allowLoop s n b else a

/-- The allowance A as computed now (R387). -/
def State.allowNow (s : State) : Nat := s.allowLoop 16 (s.allowFor 0)

/-- SHRUNK follows the allowance in force and DIRTY_BUDGET (R389). -/
def State.checkShrunk (s : State) : State :=
  let low := s.eg.allow < s.pdBudgetGib * 64
  if low && !s.eg.shrunk then
    ((({ s with eg := { s.eg with shrunk := true } }).egInt 0).logEv 0x36 1 srcEndgame 0 (BitVec.ofNat 64 s.eg.allow)).setHealth
      fun g => { g with shrunk := true }
  else if !low && s.eg.shrunk then
    ({ s with eg := { s.eg with shrunk := false } }).setHealth fun g => { g with shrunk := false }
  else s

/-- Put a computed allowance in force: it falls at once and rises after 100 computations of at least the new value
(R388). -/
def State.allowTake (s : State) (a : Nat) : State :=
  let e := s.eg
  if a < e.allow then { s with eg := { e with allow := a, riseRun := 0 } }
  else if a = e.allow then { s with eg := { e with riseRun := 0 } }
  else
    let m := if e.riseRun = 0 then a else min a e.riseMin
    if 100 ≤ e.riseRun + 1 then { s with eg := { e with allow := m, riseRun := 0 } }
    else { s with eg := { e with riseRun := e.riseRun + 1, riseMin := m } }

/-- The computation of R387: in NORMAL, with calibration loaded; a sensor fault holds the last value (R373). -/
def State.allowCompute (s : State) : State :=
  if s.eg.pstate != .normal || !s.eg.calLoaded || s.eg.frozen then s
  else ((if s.eg.sensor then s else s.allowTake s.allowNow).checkBudget).checkShrunk

/-! ### The end of a save (R385, R391, R507) -/

/-- The surroundings' end of a save: SAVED, or NORMAL with a RUNNING copy to write first (R385). -/
def State.saveEnd (s : State) : State :=
  let gpf := s.eg.causes.gpf && s.root.saveState.toNat == 2
  let s := { s with pwr := { s.pwr with gpf2Ack := s.pwr.gpf2Ack || gpf } }
  if s.eg.causes.shutdown || s.eg.causes.hot || !s.eg.good then
    { s with eg := { s.eg with pstate := .saved, pg := false, drainReq := false },
             root := { s.root with save := .idle }, pwr := { s.pwr with ack := s.pwr.ack || s.pwr.p3 } }
  else
    ({ s with eg := { s.eg with pstate := .normal, drainReq := false, frozen := false, causes := Causes.none },
              root := { s.root with save := .resume } }).writeRoot 0 0 0

/-- The drain of a warm request begins (R45, R562): in NORMAL or RIDE; in P2 it is answered at once (R506), and an entry to P2
drains for itself. -/
def State.warmDrain (s : State) : State :=
  if !s.pwr.warm || s.pwr.warmAck || s.eg.drainReq || !(s.eg.pstate == .normal || s.eg.pstate == .ride) then s
  else match s.pwr.phase with
    | .p2 => { s with pwr := { s.pwr with warmAck := true } }
    | .p0 => { s with slices := s.slices.map fun sl => if sl.ident.role.serves && !sl.ident.isolated then sl.startDrain else sl }
    | .entering => s

/-- A warm reset has met a save: its restart goes on after it (R146). -/
def State.restartOn (s : State) : State := if s.root.stage == .writing then s.readManifest.reconcile else s

/-- Slices evaluate inputs again and ports return credits after a return to NORMAL (R385, R391); while the block is in
P2 it stays there, and an entry to P2 goes on (R506); a warm request that met the drain drains now (R562). The heartbeat check
goes on with the first full move. -/
def State.resumeService (s : State) : State :=
  let wake (sl : Slice) : Slice :=
    let x := { sl with ident := { sl.ident with frozen := false, draining := false, beatThisMove := true } }
    if s.pwr.phase == .entering && x.ident.role.serves && !x.ident.isolated then x.startDrain else x
  let open_ (a : AgentPort) : AgentPort := { a with stopped := false }
  let s1 := { s with root := { s.root with save := .idle }, slices := s.slices.map wake,
                     pwr := { s.pwr with gpf1 := false, gpf2 := false } }
  (if s.pwr.phase == .p0 then { s1 with agentPorts := s1.agentPorts.map open_ } else s1).kick.warmDrain.restartOn

/-- One write of a root copy or of the manifest is acknowledged (R384, R394, R399). -/
def State.rootWritten (s : State) : State :=
  let s1 := { s with root := { s.root with writes := s.root.writes - 1 } }
  if s1.root.writes != 0 then s1
  else if s1.root.stage == .writing && s1.root.save == .idle then s1.readManifest.reconcile
  else if s1.root.save == .last then s1.saveEnd
  else if s1.root.save == .resume then s1.resumeService
  else s1.saveNext s1.eg.causes.shutdown

end Sys2Proof.Machine
end

