-- ==== Sys2Proof/Machine/Trace.lean ====
section
/-! DEFINITION. Trace packets: the probes' record buffers and the trace FIFO (13 R456 to R458). -/

namespace Sys2Proof.Machine

open Sys2Proof

/-- A probe's registers in force. -/
def State.prb (s : State) (n o : Nat) : W32 := s.actReg (0x50100 + 0x40 * n + o)

/-- Words the trace FIFO has free. -/
def Fabric.room (f : Fabric) : Nat := 16384 - f.trace.length

/-- Change one probe. -/
def Fabric.modProbe (f : Fabric) (n : Nat) (g : Probe → Probe) : Fabric := { f with probes := f.probes.modify n g }

/-- The length word of a packet (R457). -/
def lengthWord (n records : Nat) (trunc : Bool) : W32 :=
  word32 [(28, 0xC), (27, n1 trunc), (20, n), (0, 3 + 5 * records)]

/-- Close a probe's packet: its length word goes into the reserved slot (R457). -/
def Fabric.close (f : Fabric) (n : Nat) (trunc : Bool) : Fabric :=
  match (f.probes[n]?).bind (·.packet) with
  | none => f
  | some p =>
    let put (w : TraceWord) : TraceWord := if w == .slot n then .word (lengthWord n p.records trunc) else w
    { f with trace := f.trace.map put }.modProbe n fun x => { x with packet := none }

/-- A record is lost: counted for the probe's next packet, and OVF is set. -/
def Fabric.lose (f : Fabric) (n : Nat) : Fabric :=
  { f with ovf := true }.modProbe n fun x => { x with lost := satIncN 65535 x.lost }

/-- The five words of a record (R457). -/
def recordWords (r : TraceRec) (since : Nat) : List TraceWord :=
  [.word (word32 [(24, r.link), (22, r.lane.toNat), (0, since % 65536)]), .word (r.header.extractLsb' 0 32),
   .word (r.header.extractLsb' 32 32), .word (r.header.extractLsb' 64 32), .word (r.header.extractLsb' 96 32)]

/-- Write a record into a probe's open packet, and close it at BURST + 1 records. -/
def Fabric.record (f : Fabric) (n burst : Nat) (r : TraceRec) (p : Packet) : Fabric :=
  let f1 := { f with trace := f.trace ++ recordWords r (r.time - p.stamp).toNat }.modProbe n fun x =>
    { x with packet := some { p with records := p.records + 1 } }
  if burst ≤ p.records then f1.close n false else f1

/-- The trace FIFO takes a record of a probe (R457). -/
def Fabric.traceRec (f : Fabric) (n burst : Nat) (r : TraceRec) : Fabric :=
  match f.probes[n]? with
  | none => f
  | some p =>
    match p.packet with
    | some k => if f.room < 5 then (f.close n true).lose n else f.record n burst r k
    | none =>
      if f.room < 8 then f.lose n
      else
        let head : List TraceWord := [.slot n, .word (r.time.setWidth 32), .word (word32 [(16, p.lost), (0, fieldN r.time 32 16)])]
        let k : Packet := ⟨r.time, 0⟩
        let f1 := { f with trace := f.trace ++ head }.modProbe n fun x => { x with packet := some k, lost := 0 }
        f1.record n burst r k

/-- One FCLK cycle of the trace FIFO: it takes a record of the next probe, round robin, that has one (R456). -/
def Fabric.serve (f : Fabric) (burst : Nat → Nat) : Fabric :=
  let turn := (List.range 12).map fun i => (f.trNext + i) % 12
  match turn.findSome? fun n => ((f.probes[n]?).bind fun p => p.buf.head?).map fun r => (n, r) with
  | none => f
  | some (n, r) => ({ f with trNext := (n + 1) % 12 }.modProbe n fun x => { x with buf := x.buf.tail }).traceRec n (burst n) r

/-- A number of cycles of the trace FIFO. -/
def Fabric.serveFor (burst : Nat → Nat) : (cycles : Nat) → Fabric → Fabric
  | 0, f => f
  | n + 1, f => Fabric.serveFor burst n (f.serve burst)

/-- Records that wait in the probes' buffers. -/
def Fabric.waiting (f : Fabric) : Nat := (f.probes.map fun p => p.buf.length).sum

/-- The FIFO takes what the buffers hold, as far as a number of cycles allows. -/
def State.traceServe (s : State) (cycles : Nat) : State :=
  { s with fb := Fabric.serveFor (fun n => fieldN (s.prb n 0) 21 4) (min cycles s.fb.waiting) s.fb }

/-- The buffers, of four records each, have emptied into the FIFO. -/
def State.traceAll (s : State) : State := s.traceServe 48

/-- A record of a probe at an FCLK cycle: the FIFO has taken a record in each cycle since the last one, and a probe whose buffer of
four is full loses it (R456). -/
def State.traceFlit (s : State) (n : Nat) (r : TraceRec) : State :=
  let s1 := s.traceServe (r.time.toNat - s.fb.trTime.toNat)
  let f : Fabric := { s1.fb with trTime := r.time }
  let full := match f.probes[n]? with | some p => decide (4 ≤ p.buf.length) | none => true
  { s1 with fb := if full then f.lose n else f.modProbe n fun x => { x with buf := x.buf ++ [r] } }

/-- FLUSH: every word, every record and every open packet is discarded (R458). -/
def Fabric.flush (f : Fabric) : Fabric :=
  { f with trace := [], probes := f.probes.map fun p => { p with packet := none, buf := [] } }

end Sys2Proof.Machine
end

