-- ==== Sys2Proof/Machine/Registers.lean ====
section
/-! DEFINITION. The register port: ranges (R511), what each register reports, reads and writes in every view (R491 to R493,
R509 to R519), commits (R79, R515), the peek window (R542). -/

namespace Sys2Proof.Machine

open Sys2Proof

/-! ### Values out of range (R511) -/

/-- Replace a field of a word. -/
def putF (v : W32) (lo len n : Nat) : W32 :=
  (v &&& ~~~(BitVec.ofNat 32 ((2 ^ len - 1) * 2 ^ lo))) ||| BitVec.ofNat 32 (n % 2 ^ len * 2 ^ lo)

/-- Bring fields of a word into range: low bit, length, least, greatest. -/
def clampF (v : W32) (fs : List (Nat × Nat × Nat × Nat)) : W32 :=
  fs.foldl (fun v f => putF v f.1 f.2.1 (clamp f.2.2.1 f.2.2.2 (fieldN v f.1 f.2.1))) v

/-- Number of bits set. -/
def popcount {n : Nat} (b : BitVec n) : Nat := ((List.range n).filter fun i => bitAt b i).length

/-- Events of SL_PMC_CTL that the table of R464 marks reserved. -/
def pmcReserved (e : Nat) : Bool :=
  (0x0D ≤ e && e ≤ 0x0F) || (0x1D ≤ e && e ≤ 0x1F) || (0x2D ≤ e && e ≤ 0x2F) || (0x3D ≤ e && e ≤ 0x3F) || e == 0x4F ||
  (0x55 ≤ e && e ≤ 0x5F) || 0x70 ≤ e

/-- What a slice register puts in force for a value; `old` is the value in force. -/
def fixSl (o : Nat) (v old : W32) : W32 :=
  if o = 0x024 then if 8 < popcount (v.extractLsb' 0 16) then putF v 0 16 (fieldN old 0 16) else v
  else if o = 0x104 then
    let h := min 16384 (fieldN v 15 15)
    let v1 := putF v 15 15 h
    if fieldN v1 0 15 < h then v1 else putF v1 0 15 (h - 1)
  else if o = 0x120 then clampF v [(16, 8, 1, 255), (8, 8, 4, 16)]
  else if 0x800 ≤ o && o < 0x820 then if pmcReserved (fieldN v 0 8) then putF v 0 8 0 else v
  else v

/-- What a register puts in force for a value (R511, R351, R374); `old` is the value in force. -/
def fixReg (o : Nat) (v old : W32) : W32 :=
  if o = 0x010 then clampF v [(8, 12, 1, 4095)]
  else if o = 0x20040 then
    let uv := max 1 (fieldN v 0 16)
    let v1 := putF v 0 16 uv
    if uv < fieldN v1 16 16 then v1 else putF v1 16 16 (min 65535 (uv + 1))
  else if o = 0x20044 then clampF v [(0, 8, 5, 200), (16, 10, 10, 1000)]
  else if o = 0x20048 then clampF v [(0, 7, 50, 100), (16, 16, 1, 65535)]
  else if o = 0x20050 then clampF v [(0, 14, 1, 10000), (14, 14, 1, 10000)]
  else if o = 0x20054 then clampF v [(4, 10, 0, 1000), (14, 18, 1000, 200000)]
  else if o = 0x20058 then
    let v1 := clampF v [(0, 11, 0, 1500), (16, 11, 0, 1500)]
    if fieldN v1 0 11 < fieldN v1 16 11 then v1 else putF v1 0 11 (fieldN v1 16 11 - 1)
  else if o = 0x30010 then
    let v1 := clampF v [(0, 12, 1, 4095)]
    clampF v1 [(16, 13, fieldN v1 0 12 + 1, 4096)]
  else if o = 0x30014 then clampF v [(0, 5, 10, 30), (8, 8, 0, 254), (16, 9, 1, 256)]
  else if o = 0x30018 then
    let v1 := clampF v [(0, 12, 1, 4095)]
    let v2 := clampF v1 [(16, 13, fieldN v1 0 12 + 1, 4096)]
    if fieldN v2 29 2 = 3 then putF v2 29 2 0 else v2
  else if o = 0x3001C then clampF v [(0, 13, 1, 4096)]
  else if o = 0x30020 then
    let v1 := clampF v [(0, 9, 1, 256), (23, 7, 2, 99)]
    clampF v1 [(16, 7, 1, fieldN v1 23 7 - 1)]
  else if o = 0x30024 then clampF v [(0, 11, 1, 1024)]
  else if o = 0x30028 then clampF v [(0, 15, 0, 16384), (16, 15, 0, 16384)]
  else if 0x40000 ≤ o && o < 0x40080 then
    let v1 := clampF v [(0, 8, 0, 128)]
    let t := fieldN v1 18 10
    let v2 := if t = 0 then putF v1 18 10 100 else if 1000 < t then putF v1 18 10 1000 else v1
    if fieldN v2 28 2 = 3 then putF v2 28 2 0 else v2
  else if 0x40100 ≤ o && o < 0x40120 then clampF v [(0, 6, 0, 31), (8, 8, 1, 255)]
  else if o = 0x50020 then if 1000 < fieldN v 10 10 then putF v 10 10 1000 else v
  else if 0x50100 ≤ o && o < 0x50400 && o % 0x40 = 0 then
    let v1 := clampF v [(5, 8, 1, 255)]
    if 5 ≤ fieldN v1 28 3 then putF v1 28 3 0 else v1
  else if slBase 0 ≤ o then fixSl (o % 0x40000) v old
  else v

/-- Count one out-of-range value in the block of its register, and log record 0x3A (R511). The global block has no
count; its record carries the castling logic's source (log 27). -/
def State.cfgError (s : State) (o : Nat) : State :=
  let d := BitVec.ofNat 64 o
  if slBase 0 ≤ o then
    let p := o / 0x40000 - 32
    (s.modSlice p fun sl => { sl with obs := { sl.obs with cfgErr := satInc sl.obs.cfgErr } }).logEv 0x3A 0 p 0 d
  else if o < 0x10000 then s.logEv 0x3A 0 srcCastle 0 d
  else if o < 0x20000 then s.logEv 0x3A 0 srcLoader 0 d
  else if o < 0x30000 then { s with eg := { s.eg with cfgErr := satInc s.eg.cfgErr } }.logEv 0x3A 0 srcEndgame 0 d
  else if o < 0x40000 then { s with dctl := { s.dctl with cfgErr := satInc s.dctl.cfgErr } }.logEv 0x3A 0 srcDirector 0 d
  else if o < 0x50000 then
    let p := if o < 0x40080 then o % 0x10000 / 16 else if 0x40100 ≤ o then o % 0x1000 / 4 - 64 else 0
    (s.modAgentPort p fun a => { a with errs := a.errs.modify 1 satInc }).logEv 0x3A 0 srcAgent 0 d
  else if o < 0x60000 then { s with fb := { s.fb with cfgErr := satInc s.fb.cfgErr } }.logEv 0x3A 0 srcMesh 0 d
  else s.logEv 0x3A 0 srcHost 0 d

/-- Put a value in force (R511, R514). -/
def State.putForce (s : State) (o : Nat) (v : W32) : State :=
  let f := fixReg o v (s.actReg o)
  let s1 := { s with regs := { s.regs with act := kset o f s.regs.act } }
  if f = v then s1 else s1.cfgError o

/-! ### What registers report: RO, RC and GS values beside the stored bits -/

/-- Pools of a slice's trackers in use. -/
def Slice.poolUsed (sl : Slice) (p : Pool) : Nat := (sl.trk.filter fun t => t.pool == p).length

/-- ROLE in three bits (R536). -/
def Role.code : Role → Nat
  | .none => 0
  | .active => 1
  | .reserve => 2
  | .takeover => 3
  | .adopting => 4

/-- WALK in three bits (R60). -/
def Walk.code : Walk → Nat
  | .notWalked => 0
  | .active => 1
  | .reserve => 2
  | .fusedOff => 3
  | .testFailed => 4
  | .excluded => 5

/-- The frame a blindfold sweeper has passed (SL_BF_POS). -/
def Slice.bfPos (sl : Slice) : Nat := match sl.blind.head? with | some b => b.frame - 1 | none => 0

/-- A slice's report at an offset of its block; none where no register is defined (R533). -/
def slReport (sl : Slice) (o : Nat) : Option W32 :=
  let i := sl.ident
  let c2 (a b : Nat) : Option W32 := some (word32 [(16, sl.obs.ce.getD a 0), (0, sl.obs.ce.getD b 0)])
  let ctr (k : Ctr48) (hi : Bool) : W32 := if hi then word32 [(31, n1 (bitAt k.latch 16)), (0, fieldN k.latch 0 16)] else k.value.setWidth 32
  if o = 0x000 then some (word32 [(29, i.walk.code), (26, i.role.code), (22, i.logA), (18, i.logB), (17, n1 (!sl.blind.isEmpty)),
    (16, n1 i.unprot), (15, n1 i.gated), (14, n1 i.draining)])
  else if o = 0x004 then some (word32 [(16, i.beats.toNat), (8, i.singleMiss.toNat)])
  else if o = 0x00C then some sl.obs.cfgErr
  else if o = 0x010 then some (word32 [(24, sl.trk.length), (16, 144 - sl.poolUsed .shared), (8, sl.poolUsed .k), (0, sl.poolUsed .maint)])
  else if o = 0x014 then some (word32 [(22, sl.hold.length), (16, (sl.hold.filter fun h => h.req.cls == .k).length),
    (10, sl.dir.bkt.length), (0, sl.msc.wpq.length)])
  else if o = 0x018 then some (word32 [(24, sl.dir.monitors.length), (16, sl.msc.pfq.length)])
  else if o = 0x01C then some (word32 [(24, sl.obs.occTrk), (14, sl.obs.occHold), (4, sl.obs.occWpq)])
  else if o = 0x020 then some (BitVec.ofNat 32 sl.bfPos)
  else if o = 0x024 then some (word32 [(16, sl.dir.empty.toNat)])
  else if o = 0x0C0 then some (word32 [(0, sl.arb.starved.toNat)])
  else if o = 0x0C8 then some (word32 [(24, sl.arb.kAccept), (0, sl.arb.lfsr.toNat)])
  else if o = 0x0CC then some sl.arb.dead
  else if o = 0x114 then some 0
  else if o = 0x118 then some (word32 [(31, n1 sl.msc.pre.busy), (30, n1 sl.msc.pre.done), (15, sl.msc.pre.skipped % 32768), (0, sl.msc.pre.loaded % 32768)])
  else if o = 0x11C then some (word32 [(30, match sl.msc.state with | .enabled => 0 | .draining => 1 | .disabled => 2),
    (29, n1 sl.msc.pinBlock), (28, n1 (sl.msc.walkBusy || sl.msc.state == .draining || !sl.msc.retiring.isEmpty)), (20, sl.msc.vb.length), (0, sl.dirtyCount)])
  else if o = 0x124 then some (word32 [(16, sl.msc.auto.toNat)])
  else if o = 0x200 then c2 0 1
  else if o = 0x204 then c2 2 3
  else if o = 0x208 then c2 4 5
  else if o = 0x20C then c2 6 7
  else if o = 0x210 then some (word32 [(16, sl.obs.ue.getD 0 0), (0, sl.obs.ue.getD 1 0)])
  else if o = 0x304 then some (word32 [(31, n1 sl.obs.peek.busy), (30, n1 sl.obs.peek.done), (28, sl.obs.peek.result.toNat)])
  else if o = 0x310 then some sl.obs.peek.d0
  else if o = 0x314 then some sl.obs.peek.d1
  else if o = 0x318 then some sl.obs.peek.d2
  else if o = 0x31C then some sl.obs.peek.d3
  else if 0x840 ≤ o && o < 0x880 && o % 4 = 0 then
    some (ctr ((sl.obs.pmc[o / 8 - 264]?).getD Ctr48.zero) (o % 8 == 4))
  else if o = 0x880 then some (ctr sl.obs.cyc false)
  else if o = 0x884 then some (ctr sl.obs.cyc true)
  else if o = 0x888 then some 0
  else none

/-- Report of the Endgame block (R524, R525). -/
def State.egReport (s : State) (o : Nat) : Option W32 :=
  if o = 0x00 then some s.egStatus
  else if o = 0x04 then some 0
  else if o = 0x08 then some s.egRestart
  else if o = 0x0C then some (BitVec.ofNat 32 s.eg.allow)
  else if o = 0x10 then some (BitVec.ofNat 32 s.saveEst)
  else if o = 0x14 then some (s.eg.ints.setWidth 32)
  else if o = 0x1C then some s.eg.cfgErr
  else if 0x60 ≤ o && o ≤ 0x80 && o % 4 = 0 then some ((s.pins.trim[(o - 0x60) / 4]?).getD 0)
  else if 0xA0 ≤ o && o ≤ 0xBC && o % 4 = 0 then
    let c := (o - 0xA0) / 4
    let v := if c ≤ 5 then s.egVolt c else if c = 6 then (BitVec.ofInt 16 s.egTemp).toNat else (s.egChan 7).code * 1200 / 4096
    some (word32 [(20, (s.egChan c).code), (0, v % 65536)])
  else none

/-- LD_STATUS (14); PENDING compares the image in force with the contents of power-on (R482). -/
def State.ldStatus (s : State) : W32 :=
  let l := s.ld
  let pend := l.state == .loaded && l.powerOn != powerOnOf l.image
  word32 [(29, l.state.code), (28, n1 l.slotB), (27, n1 l.fallback), (26, n1 s.cfg.kbound), (25, n1 l.digestValid), (24, n1 pend),
    (23, n1 l.armed), (22, n1 l.sfdp.isSome), (21, n1 l.aFailed), (20, n1 l.bFailed),
    (18, match l.sfdp with | some x => x.readMode.toNat | none => 0)]

/-- Report of the loader block (R523). -/
def State.ldReport (s : State) (o : Nat) : Option W32 :=
  if o = 0x00 then some s.ldStatus
  else if o = 0x04 then some s.ld.seq
  else if o = 0x08 then some (s.cfg.tableId.setWidth 32)
  else if o = 0x0C then some s.ld.tableLatch
  else if o = 0x10 || o = 0x14 then some 0
  else if o = 0x24 then some (word32 [(31, n1 s.ld.done), (16, s.ld.result.toNat), (0, s.ld.pages.toNat)])
  else if 0x40 ≤ o && o ≤ 0x6C && o % 4 = 0 then some ((s.ld.digest[(o - 0x40) / 4]?).getD 0)
  else none

/-- Report of the placement director block (R526, R527, R500). -/
def State.pdReport (s : State) (o : Nat) : Option W32 :=
  let loading := s.gl.phase.toNat == 5 && s.dir.loaded.length < s.chunkCount
  if o = 0x00 then some (word32 [(31, n1 s.dctl.sweepFast), (30, n1 s.dctl.pinRefuse), (29, n1 loading), (28, n1 s.dir.cleaningOn),
    (27, n1 s.dir.demOn), (0, min 256 s.dir.moves.length)])
  else if o = 0x04 then some (word32 [(1, n1 s.dctl.budgetInt), (0, n1 s.dctl.listInt)])
  else if o = 0x08 then some s.dctl.cfgErr
  else if o = 0x30 then some (BitVec.ofNat 32 s.dir.d)
  else if o = 0x34 then some (BitVec.ofNat 32 s.budgetPages)
  else if o = 0x4C then some (word32 [(31, n1 s.dctl.list.busy), (30, n1 s.dctl.list.done), (22, s.dctl.list.status.toNat),
    (0, s.dctl.list.pages.toNat % 1048576)])
  else none

/-- Four counts of eight bits, the first highest. -/
def bytes4 (l : List (BitVec 8)) : W32 :=
  word32 [(24, (l.getD 0 0).toNat), (16, (l.getD 1 0).toNat), (8, (l.getD 2 0).toNat), (0, (l.getD 3 0).toNat)]

/-- Report of the agent-port block (R528, R529). -/
def State.apReport (s : State) (o : Nat) : Option W32 :=
  if 0x140 ≤ o && o < 0x160 && o % 4 = 0 then
    some (match s.agentPort (o / 4 - 80) with
      | some a => word32 [(31, n1 a.creditShort), (16, (a.held.filter fun r => r.inBuf && r.stage == .buffered).length),
          (8, 128 - a.assigned.foldl (· + ·) 0), (0, a.silent.toNat)]
      | none => 0)
  else if 0x160 ≤ o && o < 0x180 && o % 4 = 0 then
    some (match s.agentPort (o / 4 - 88) with | some a => bytes4 a.errs | none => 0)
  else if o < 0x80 && o % 4 = 0 then some 0
  else if 0x100 ≤ o && o < 0x120 && o % 4 = 0 then some 0
  else none

/-- STATE of a HID in three bits (R176). -/
def HidSt.code : HidSt → Nat
  | .undeclared => 0
  | .unbound => 1
  | .bound => 2
  | .absent => 3
  | .expiring => 4
  | .fenced => 5

/-- Report of the host-port block (R530, R531). -/
def State.hpReport (s : State) (o : Nat) : Option W32 :=
  if o = 0x000 then some (s.cfg.snpTo.setWidth 32)
  else if 0x020 ≤ o && o < 0x040 && o % 4 = 0 then
    some (match s.hostPort (o / 4 - 8) with
      | some h => word32 [(31, n1 h.linkUp), (30, n1 h.inReset), (0, h.linkDowns.toNat)] | none => 0)
  else if 0x040 ≤ o && o < 0x060 && o % 4 = 0 then
    some (match s.hostPort (o / 4 - 16) with | some h => bytes4 h.errs | none => 0)
  else if o = 0x060 then some (BitVec.ofNat 32 (min 4294967295 (s.hostPorts.foldl (fun n h => n + h.biUnmatched.toNat) 0)))
  else if 0x100 ≤ o && o < 0x200 && o % 4 = 0 then
    (s.hid (o / 4 - 64)).map fun h =>
      word32 [(31, n1 h.valid), (23, h.portMask.toNat), (21, h.kind.toNat), (9, h.value.toNat), (1, h.window.toNat)]
  else if 0x200 ≤ o && o < 0x300 && o % 4 = 0 then
    (s.hid (o / 4 - 128)).map fun h =>
      let up := bitsOf ((List.range 8).map fun p => bitAt h.portMask p && (match s.hostPort p with | some x => x.linkUp | none => false))
      word32 [(29, h.st.code), (21, up), (0, if h.st == .absent then h.windowLeft.toNat else 0)]
  else none

/-- The head word of the trace FIFO as FB_TRACE_DATA shows it (R458). -/
def State.traceHead (s : State) : W32 :=
  if bitAt (s.actReg 0x50000) 30 then 0
  else match s.fb.trace.head? with | some (.word w) => w | _ => 0

/-- Report of the fabric block (R532, R458, R461). -/
def State.fbReport (s : State) (o : Nat) : Option W32 :=
  if o = 0x000 then some 0
  else if o = 0x004 then some s.traceHead
  else if o = 0x008 then some (word32 [(31, n1 s.fb.ovf), (0, s.fb.trace.length)])
  else if o = 0x014 then some (s.ev.latch.extractLsb' 96 32)
  else if o = 0x010 then some (s.ev.latch.extractLsb' 64 32)
  else if o = 0x01C then some (s.ev.latch.extractLsb' 32 32)
  else if o = 0x018 then some (s.ev.latch.extractLsb' 0 32)
  else if o = 0x024 then some (word32 [(31, n1 s.ev.stale), (30, n1 s.ev.lostBit), (0, s.ev.fifo.length)])
  else if o = 0x028 then some s.fb.cfgErr
  else if o = 0x02C then some s.fb.flitDiscard
  else if 0x040 ≤ o && o < 0x060 && o % 4 = 0 then some ((s.fb.ringEsc[o / 4 - 16]?).getD 0)
  else if 0x100 ≤ o && o < 0x400 then
    let k := ((s.fb.probes[o / 0x40 - 4]?).map (·.cnt)).getD Ctr48.zero
    if o % 0x40 = 0x24 then some (k.value.setWidth 32)
    else if o % 0x40 = 0x28 then some (word32 [(31, n1 (bitAt k.latch 16)), (0, fieldN k.latch 0 16)])
    else none
  else none

/-- Report of the global control block (R521, R522). -/
def State.glReport (s : State) (o : Nat) : Option W32 :=
  if o = 0x000 then some (word32 [(28, 3), (24, 2), (16, s.variant.active), (0, 0x0A51)])
  else if o = 0x004 then some s.glStatus
  else if o = 0x008 then some 0
  else if o = 0x00C then some s.gl.healthWord
  else if o = 0x010 then some (word32 [(30, s.pstate)])
  else if o = 0x014 then some (word32 [(16, s.gl.gameIgnored.toNat), (0, s.gl.game.toNat)])
  else if o = 0x018 then some (s.gl.move.setWidth 32)
  else if o = 0x01C then some s.ld.moveLatch
  else if 0x020 ≤ o && o < 0x030 && o % 4 = 0 then some (s.glHome (o / 4 - 8))
  else if 0x040 ≤ o && o < 0x050 && o % 4 = 0 then some (s.intSrc (o / 4 - 16))
  else if o = 0x060 then some (word32 [(1, n1 s.gl.latchMaint), (0, n1 s.gl.latchErr)])
  else if o = 0x070 then some s.gl.guardCnt
  else if o = 0x074 then some s.gl.guardLast
  else if o = 0x078 then some s.gl.urCnt
  else none

/-- What a register reports beside its stored bits; none where the register has no such bits or is not defined. -/
def State.report (s : State) (o : Nat) : Option W32 :=
  if o < 0x10000 then s.glReport o
  else if o < 0x20000 then s.ldReport (o % 0x10000)
  else if o < 0x30000 then s.egReport (o % 0x10000)
  else if o < 0x40000 then s.pdReport (o % 0x10000)
  else if o < 0x50000 then s.apReport (o % 0x10000)
  else if o < 0x60000 then s.fbReport (o % 0x10000)
  else if o < 0x70000 then s.hpReport (o % 0x10000)
  else if slBase 0 ≤ o && o < slBase s.variant.phys then
    match s.slice (o / 0x40000 - 32) with
    | some sl => slReport sl (o % 0x40000)
    | none => none
  else none

/-- Offsets of the arbitration registers, defined for every input (R534). -/
def slInputReg (o : Nat) : Bool := slBase 0 ≤ o && 0x040 ≤ o % 0x40000 && o % 0x40000 < 0x0C0 && o % 4 == 0

/-- A register is defined at a base offset (R492, R528, R530, R534). -/
def State.defined (s : State) (o : Nat) : Bool :=
  o % 4 == 0 && ((regDef s.variant o).isSome || (s.report o).isSome || (slInputReg o && o < slBase s.variant.phys))

/-- The physical slice of an offset, if it lies in a slice block. -/
def sliceOfOff (o : Nat) : Option Nat := if slBase 0 ≤ o then some (o / 0x40000 - 32) else none

/-- The register belongs to an isolated slice (R534). -/
def State.offIsolated (s : State) (o : Nat) : Bool :=
  match sliceOfOff o with
  | some p => match s.slice p with | some sl => sl.ident.isolated | none => false
  | none => false

/-- Registers whose fields, all or some, are GS (R509); [k] of the answer: bits that are GS. -/
def gsBits (o : Nat) : W32 :=
  if o = 0x10010 || o = 0x10014 || o = 0x20004 then 0xFFFFFFFF
  else if o = 0x10018 || o = 0x1001C || o = 0x10020 then 0xFFFFFFFF
  else if o = 0x10024 then 0x40000000
  else if 0x30040 ≤ o && o ≤ 0x3004C then 0xFFFFFFFF
  else if 0x50010 ≤ o && o ≤ 0x5001C then 0xFFFFFFFF
  else if slBase 0 ≤ o then
    let r := o % 0x40000
    if r = 0x300 || r = 0x304 || (0x310 ≤ r && r ≤ 0x31C) then 0xFFFFFFFF else 0
  else 0

/-- A mask of the enabled bytes. -/
def beMask (be : BitVec 4) : W32 :=
  word32 ((List.range 4).map fun i => (8 * i, if bitAt be i then 255 else 0))

/-! ### UR and GS refusals (R492, R517) -/

/-- Answer UR: nothing is accessed, the access is counted (R492). -/
def State.ur (s : State) : State :=
  { s with gl := { s.gl with urCnt := satInc s.gl.urCnt }, pins := { s.pins with regUr := true, regRdata := 0 } }

/-- A refused GS access is counted and its offset recorded (R517). -/
def State.guarded (s : State) (write : Bool) (off : BitVec 27) : State :=
  { s with gl := { s.gl with guardCnt := satInc s.gl.guardCnt, guardLast := b1 write ++ (0 : BitVec 4) ++ off } }

/-- Answer a read. -/
def State.answer (s : State) (w : W32) : State := { s with pins := { s.pins with regUr := false, regRdata := w } }

/-! ### Reads (R509, R514, R518) -/

/-- The word a register shows: stored bits of the base or the active view, and its report. -/
def State.show (s : State) (o : Nat) (active : Bool) : W32 :=
  if s.offIsolated o then 0
  else
    let st := match regDef s.variant o with
      | some d => (if active then (s.actReg o &&& d.rwb) ||| (s.baseReg o &&& (d.rw ||| d.gs)) else s.baseReg o &&& (d.rw ||| d.rwb ||| d.gs))
      | none => 0
    st ||| (s.report o).getD 0

/-- Latch the high half of a counter (R454). -/
def Ctr48.latched (k : Ctr48) : Ctr48 := { k with latch := b1 k.sat ++ k.value.extractLsb' 32 16 }

/-- Pop the event FIFO into the read latch (R461); a freed entry takes the record of lost ones first (R460), and the stale
timer restarts (R462). -/
def Events.pop (e : Events) (move : BitVec 40) : Events :=
  let bits (r : EvRec) : BitVec 128 := r.code ++ r.sev ++ r.src ++ r.unit ++ r.move ++ r.detail
  match e.fifo with
  | [] => { e with latch := 0, staleHalt := false }
  | r :: rest =>
    let f := if e.lost = 0 then rest else rest ++ [⟨0x3B, 1, BitVec.ofNat 5 srcMesh, 0, move, e.lost.setWidth 64⟩]
    { e with fifo := f, latch := bits r, lost := 0, staleHalt := false }

/-- Side effects of a base-view read: what RC bits are cleared in enabled bytes, what is popped or latched (R509, R493,
R454, R458, R461, R518, R538). `m` masks the enabled bytes; `gs`: the master is privileged and secure. -/
def State.readEffect (s : State) (o : Nat) (m : W32) (gs : Bool) : State :=
  let keep (l : List (BitVec 8)) : List (BitVec 8) := l.mapIdx fun i b => if bitAt m (24 - 8 * i) then 0 else b
  if o = 0x060 then { s with gl := { s.gl with latchMaint := s.gl.latchMaint && !bitAt m 1, latchErr := s.gl.latchErr && !bitAt m 0 } }
  else if o = 0x018 then if m = 0 then s else { s with ld := { s.ld with moveLatch := (s.gl.move.extractLsb' 32 16).setWidth 32 } }
  else if o = 0x10008 then if m = 0 then s else { s with ld := { s.ld with tableLatch := s.cfg.tableId.extractLsb' 32 32 } }
  else if o = 0x10024 then if bitAt m 31 then { s with ld := { s.ld with done := false } } else s
  else if o = 0x20014 then { s with eg := { s.eg with ints := s.eg.ints &&& ~~~(m.setWidth 4) } }
  else if o = 0x30004 then { s with dctl := { s.dctl with budgetInt := s.dctl.budgetInt && !bitAt m 1, listInt := s.dctl.listInt && !bitAt m 0 } }
  else if o = 0x3004C then
    if gs && bitAt m 30 then { s with dctl := { s.dctl with list := { s.dctl.list with done := false } } } else s
  else if 0x40160 ≤ o && o < 0x40180 then s.modAgentPort (o % 0x1000 / 4 - 88) fun a => { a with errs := keep a.errs }
  else if 0x60040 ≤ o && o < 0x60060 then s.modHostPort (o % 0x1000 / 4 - 16) fun h => { h with errs := keep h.errs }
  else if o = 0x50004 then
    if m = 0 || bitAt (s.actReg 0x50000) 30 then s
    else match s.fb.trace with | .word _ :: r => { s with fb := { s.fb with trace := r } } | _ => s
  else if o = 0x50008 then if bitAt m 31 then { s with fb := { s.fb with ovf := false } } else s
  else if o = 0x50014 then
    if gs && m != 0 then { s with ev := { (s.ev.pop (s.gl.move.setWidth 40)) with stale := s.ev.stale } } else s
  else if o = 0x50024 then
    { s with ev := { s.ev with stale := s.ev.stale && !bitAt m 31, lostBit := s.ev.lostBit && !bitAt m 30 } }
  else if 0x50100 ≤ o && o < 0x50400 && o % 0x40 = 0x24 then
    if m = 0 then s else { s with fb := { s.fb with probes := s.fb.probes.modify (o % 0x1000 / 0x40 - 4) fun p => { p with cnt := p.cnt.latched } } }
  else
    match sliceOfOff o with
    | none => s
    | some p =>
      let r := o % 0x40000
      s.modSlice p fun sl =>
        let ob := sl.obs
        let byteClr (l : List Nat) (a b : Nat) : List Nat :=
          let v (n lo : Nat) : Nat := (word32 [(0, n)] &&& ~~~((m >>> lo) &&& 0xFFFF)).toNat
          (l.set a (v (l.getD a 0) 16)).set b (v (l.getD b 0) 0)
        if r = 0x01C then
          if m = 0 then sl
          else
            let w := word32 [(24, ob.occTrk), (14, ob.occHold), (4, ob.occWpq)] &&& ~~~m
            { sl with obs := { ob with occTrk := max (fieldN w 24 8) sl.trk.length, occHold := max (fieldN w 14 10) sl.hold.length,
                                       occWpq := max (fieldN w 4 10) sl.msc.wpq.length } }
        else if r = 0x0C0 then { sl with arb := { sl.arb with starved := sl.arb.starved &&& ~~~(m.setWidth 16) } }
        else if r = 0x118 then if bitAt m 30 then { sl with msc := { sl.msc with pre := { sl.msc.pre with done := false } } } else sl
        else if r = 0x200 then { sl with obs := { ob with ce := byteClr ob.ce 0 1 } }
        else if r = 0x204 then { sl with obs := { ob with ce := byteClr ob.ce 2 3 } }
        else if r = 0x208 then { sl with obs := { ob with ce := byteClr ob.ce 4 5 } }
        else if r = 0x20C then { sl with obs := { ob with ce := byteClr ob.ce 6 7 } }
        else if r = 0x210 then { sl with obs := { ob with ue := byteClr ob.ue 0 1 } }
        else if r = 0x304 then if gs && bitAt m 30 then { sl with obs := { ob with peek := { ob.peek with done := false } } } else sl
        else if 0x840 ≤ r && r < 0x880 && r % 8 = 0 then
          if m = 0 then sl else { sl with obs := { ob with pmc := ob.pmc.modify (r / 8 - 264) Ctr48.latched } }
        else if r = 0x880 then if m = 0 then sl else { sl with obs := { ob with cyc := ob.cyc.latched } }
        else sl

/-- In the active view a counter's high register returns its live bits (R514). -/
def State.liveHigh (s : State) (o : Nat) : Option W32 :=
  let hi (k : Ctr48) : W32 := word32 [(31, n1 k.sat), (0, fieldN k.value 32 16)]
  if 0x50100 ≤ o && o < 0x50400 && o % 0x40 = 0x28 then (s.fb.probes[o % 0x1000 / 0x40 - 4]?).map fun p => hi p.cnt
  else match sliceOfOff o with
    | some p =>
      let r := o % 0x40000
      match s.sliceIn p with
      | some sl => if 0x840 ≤ r && r < 0x880 && r % 8 = 4 then (sl.obs.pmc[r / 8 - 264]?).map hi
                   else if r = 0x884 then some (hi sl.obs.cyc) else none
      | none => none
    | none => none

/-- An access to a gated slice's registers ungates it (R502). -/
def State.touchSlice (s : State) (o : Nat) : State :=
  match sliceOfOff o with
  | some p => s.modSlice p fun sl => { sl with ident := { sl.ident with gated := false } }
  | none => s

/-- One read at a window offset (R492, R493, R509, R512, R514, R517). -/
def State.regRead (s : State) (off : BitVec 27) (r : RegRd) : State :=
  let n := off.toNat
  let o := n % 0x1000000
  let view := n / 0x1000000
  -- a zero-length read accesses no register (R492)
  if r.be = 0 then s.answer 0
  else if 5 ≤ view || !s.defined o then s.ur
  else if 1 ≤ view && view ≤ 3 then s.answer 0
  else
    let gs := r.priv && r.sec
    let g := gsBits o
    let s := if o = 0x50004 || o = 0x50008 then s.traceAll else s
    let refused := g != 0 && !gs && !s.offIsolated o
    let s1 := if refused then s.guarded false off else s
    let live := if view = 4 then s.liveHigh o else none
    let w := (match live with | some x => x | none => s.show o (view == 4))
    let w1 := if gs then w else w &&& ~~~g
    if view = 4 then s1.answer w1
    else
      let s2 := if s.offIsolated o then s1 else s1.readEffect o (beMask r.be) gs
      -- a pop of the event FIFO returns the popped record's upper word (R461)
      let w2 := if o = 0x50014 && gs && r.be != 0 then s2.ev.latch.extractLsb' 96 32 else w1
      (s2.touchSlice o).answer w2

/-! ### Writes (R509, R511, R513) -/

/-- Store a word: RWB bits pend, RW and GS bits are in effect at once (R509). -/
def State.store (s : State) (o : Nat) (d : RegDef) (v : W32) : State :=
  let all := d.rw ||| d.rwb ||| d.gs
  let s1 := { s with regs := { s.regs with base := kset o (v &&& all) s.regs.base } }
  let now := d.rw ||| d.gs
  if now = 0 then s1
  else s1.putForce o ((s1.actReg o &&& ~~~now) ||| (v &&& now))

/-- Captured by a commit: the blocks a mask names (R515, R516). -/
def State.commitBlock (s : State) (m : W32) (o : Nat) : Bool :=
  if slBase 0 ≤ o then bitAt m (8 + (o / 0x40000 - 32)) && !s.offIsolated o
  else if o < 0x10000 then bitAt m 0
  else if 0x20000 ≤ o && o < 0x30000 then bitAt m 1
  else if 0x30000 ≤ o && o < 0x40000 then bitAt m 2
  else if 0x40000 ≤ o && o < 0x50000 then bitAt m 3
  else if 0x50000 ≤ o && o < 0x60000 then bitAt m 4
  else if 0x60000 ≤ o && o < 0x70000 then bitAt m 5
  else false

/-- A commit strobe: the pending RWB values of the named blocks are captured (R79, R515). Every stored register with RWB
bits whose pending value has been written since reset, or is in force with another value, has an entry in the base list. -/
def State.commit (s : State) (m : W32) : State :=
  let any := (m &&& 0x01FFFF3F) != 0
  if !any then s
  else
    let cap := s.regs.base.filter fun x => s.commitBlock m x.1 &&
      (match regDef s.variant x.1 with | some d => d.rwb != 0 | none => false)
    let c := cap.foldl (fun l x => kset x.1 x.2 l) s.gl.commit
    { s with gl := { s.gl with commit := c, anyCommit := true } }

/-- Words of a peek (R543): the answer's RESULT and the four words, or none where DATA stays. -/
def Slice.peekAt (sl : Slice) (tbl : TableMem) (t i : Nat) : Option (BitVec 2 × W32 × W32 × W32 × W32) :=
  let z : W32 := 0
  let lineW (l : LineAddr) : W32 × W32 := (l.setWidth 32, (l.extractLsb' 32 10).setWidth 32)
  let bad (a : ErrArr) : BitVec 2 := if sl.obs.errs.any fun e => e.arr == a && e.idx == i && e.ue then 2 else 0
  if t = 0 then
    if 524288 ≤ i then none
    else match kget i sl.dir.sf with
      | some e => let d := entryBits e; some (bad .sf, d.setWidth 32, d.extractLsb' 32 32, (Config.sfCheck d ++ d.extractLsb' 64 8).setWidth 32, z)
      | none => some (bad .sf, z, z, (Config.sfCheck 0 ++ (0 : BitVec 8)).setWidth 32, z)
  else if t = 1 then
    if 65536 ≤ i then none
    else
      let d : BitVec 41 := match kget i sl.msc.lines with
        | some c => c.line.extractLsb' 12 30 ++ b1 true ++ b1 c.dirty ++ c.nib ++ b1 c.poison ++ b1 c.pf ++ b1 c.kline ++ (0 : BitVec 2)
        | none => 0
      let w : BitVec 48 := Config.tagCheck d ++ d
      some (bad .tag, w.setWidth 32, (w.extractLsb' 32 16).setWidth 32, z, z)
  else if t = 2 then
    if 32 ≤ i then none
    else match sl.msc.vb.find? fun v => v.num == i with
      | some v => let a := lineW v.cl.line
        some (bad .vb, word32 [(31, 1), (30, n1 v.cl.dirty), (29, n1 v.cl.poison), (25, v.cl.nib.toNat)], a.1, a.2, z)
      | none => some (bad .vb, z, z, z, z)
  else if t = 3 then
    if 192 ≤ i then none
    else match sl.tracker i with
      | some k => let a := lineW k.req.line
        some (bad .tracker, word32 [(31, 1), (30, n1 k.raised), (29, n1 (k.pool == .maint)), (27, match k.req.cls with | .k => 0 | .q => 1 | .n => 2 | .p => 3),
          (26, n1 k.victim.isSome), (21, match k.vst with | some v => v.ctorIdx | none => 0), (16, k.st.ctorIdx),
          (8, min 255 (k.hsnp.length + k.asnp.length)), (0, min 255 k.acks.length)], a.1, a.2, BitVec.ofNat 32 (min 65535 k.moves))
      | none => some (bad .tracker, z, z, z, z)
  else if t = 4 then
    if 512 ≤ i then none
    else match sl.hold.find? fun h => h.num == i with
      | some h => let a := lineW h.req.line
        let src := match h.req.src with | .host p _ => p | .agent p _ _ => 8 + p | _ => 16
        let pos := (sl.hold.filter fun x => x.req.line == h.req.line && x.order < h.order).length
        some (bad .hold, word32 [(31, 1), (29, match h.req.cls with | .k => 0 | .q => 1 | .n => 2 | .p => 3), (24, src), (16, h.behind), (0, pos)], a.1, a.2, z)
      | none => some (bad .hold, z, z, z, z)
  else if t = 5 then
    if 128 ≤ i then none
    else match sl.dir.monitors.find? fun m => m.num == i with
      | some m => let a := lineW m.granule
        let newer := (sl.dir.monitors.dropWhile fun x => x.num != i).length - 1
        some (0, word32 [(31, 1), (28, m.thread.port), (26, m.thread.agent), (22, m.thread.thread), (15, newer)], a.1, a.2, z)
      | none => some (0, z, z, z, z)
  else if t = 6 then
    if 65536 ≤ i then none
    else match kget i sl.pm with
      | some w =>
        let b : W64 := w.ent.tier ++ w.ent.frame ++ w.ent.game ++ w.ent.classPin ++ b1 w.ent.dirty ++ b1 w.ent.mig ++ w.ent.cslot ++ w.ent.rsvd
        some (bad .pm, b.setWidth 32, b.extractLsb' 32 32, word32 [(8, 1), (0, w.heat.toNat)], z)
      | none => some (bad .pm, z, z, z, z)
  else if t = 7 then
    if 2048 ≤ i then none
    else
      let c : BitVec 40 := match tbl with | .reference => Config.refCell i | .words cs _ => (kget i cs).getD 0
      some (bad .cell, c.setWidth 32, (Config.cellCheck c ++ c.extractLsb' 32 8).setWidth 32, z, z)
  else if t = 8 then
    if 4096 ≤ i then none
    else
      let c : W64 := match tbl with | .reference => Config.refPool i | .words _ ps => (kget i ps).getD 0
      some (bad .pool, c.setWidth 32, c.extractLsb' 32 32, (Config.poolCheck c).setWidth 32, z)
  else none

/-- A peek corrects, writes back and counts the correctable errors of the word it reads; one beyond correction stays for the next
functional read (R542). -/
def State.peekErr (s : State) (p t i : Nat) : State :=
  let meet (arr : ErrArr) (ev : Option Nat) (ce : Nat) : State := (s.meetErr p arr ev ce fun j => j == i).1
  if t = 0 then meet .sf (some 0x50) 0
  else if t = 1 then ((s.wayCount p .tag fun j => j == i).meetErr p .tag (some 0x51) 1 fun j => j == i).1
  else if t = 2 then meet .vb none 2
  else if t = 3 then meet .tracker (some 0x53) 3
  else if t = 4 then meet .hold (some 0x53) 3
  else if t = 6 then meet .pm (some 0x53) 4
  else if t = 7 then meet .cell (some 0x52) 5
  else if t = 8 then meet .pool (some 0x52) 5
  else s

/-- A peek: the words of one entry in one cycle (R542, R543); the table memories of a slice that the loader has not written hold zeros
(R58, R218). -/
def State.peek (s : State) (p : Nat) (ctl : W32) : State :=
  match s.slice p with
  | none => s
  | some sl =>
    if sl.obs.peek.busy then s.modSlice p fun x => { x with obs := { x.obs with cfgErr := satInc x.obs.cfgErr } }
    else
      let pk : Peek := match sl.peekAt (if sl.ident.tableIn then s.cfg.table else .words [] []) (fieldN ctl 27 4) (fieldN ctl 0 20) with
        | some (r, a, b, c, d) => ⟨false, true, r, a, b, c, d⟩
        | none => { sl.obs.peek with done := true, result := 1 }
      (s.peekErr p (fieldN ctl 27 4) (fieldN ctl 0 20)).modSlice p fun x => { x with obs := { x.obs with peek := pk } }

end Sys2Proof.Machine
end

