-- ==== Sys2Proof/Machine/Force.lean ====
section
/-! DEFINITION. What follows when register values come into force: agent credits, cache enable, disabled ways, counters,
budgets (R79, R226, R317, R321, R463, R540). -/

namespace Sys2Proof.Machine

/-! ### Reorder entries and credits (R226) -/

/-- Requests of an agent that hold a reorder entry. -/
def AgentPort.heldBy (a : AgentPort) (g : Nat) : Nat := (a.held.filter fun r => r.agent == g).length

/-- Entries of the port that are not assigned. -/
def AgentPort.unassigned (a : AgentPort) : Nat := 128 - a.assigned.foldl (· + ·) 0

/-- Credits of an agent: entries assigned to it that no outstanding request of its holds. -/
def AgentPort.credits (a : AgentPort) (g : Nat) : Nat := a.assigned.getD g 0 - a.heldBy g

/-- Deal the entries of a port anew, as at a commit (R226). CREDIT_SHORT is found anew each time, over the entries an agent has then,
held ones among them; R226 says only when it is set (log 60). -/
def State.dealCredits (s : State) (p : Nat) : State :=
  s.modAgentPort p fun a =>
    let held := (List.range 4).map a.heldBy
    let give (st : List Nat × Nat × Bool) (g : Nat) : List Nat × Nat × Bool :=
      let want := if s.agentOn p g then s.agentCredits p g - held.getD g 0 else 0
      let n := min want st.2.1
      (st.1 ++ [held.getD g 0 + n], st.2.1 - n, st.2.2 || n < want)
    let r := (List.range 4).foldl give ([], 128 - held.foldl (· + ·) 0, false)
    { a with assigned := r.1, creditShort := r.2.2 }

/-- A held entry of an agent has freed: it stays with the agent, or goes to the lowest-numbered enabled agent below its
CREDITS (R226). The request is no longer among those held. -/
def State.entryFreed (s : State) (p g : Nat) : State :=
  s.modAgentPort p fun a =>
    let n := a.assigned.getD g 0
    if n = 0 || (s.agentOn p g && n ≤ s.agentCredits p g) then a
    else
      let as1 := a.assigned.set g (n - 1)
      match (List.range 4).find? fun x => s.agentOn p x && as1.getD x 0 < s.agentCredits p x with
      | some x => { a with assigned := as1.set x (as1.getD x 0 + 1) }
      | none => { a with assigned := as1 }

/-! ### Cache enable (R317, R318) -/

/-- A page pinned as class K is homed in the slice. -/
def State.kHome (s : State) (p : Nat) : Bool := s.kpinList.any fun pg => s.homeSlice pg == some p

/-- STATE follows ENABLE at a move boundary (R317, R318). -/
def State.mscFollow (s : State) (p : Nat) : State :=
  let en := s.mscEnable p
  let k := s.kHome p
  let f (m : Msc) : Msc :=
    match m.state with
    | .enabled =>
      if en then { m with pinBlock := false }
      else if k then { m with pinBlock := true }
      else { m with state := .draining, pinBlock := false, drainSet := 0, drainLeft := false }
    | .draining => if en then { m with state := .enabled } else m
    | .disabled => if en then { m with state := .enabled } else m
  s.modSlice p fun sl => { sl with msc := f sl.msc }

/-! ### Disabled ways (R321, R540) -/

/-- Ways whose DIS bit has come into force are retired by the writeback walk, without AUTO (R321). -/
def State.mscWaysFollow (s old : State) (p : Nat) : State :=
  let new := (List.range 16).filter fun w => s.mscDis p w && !old.mscDis p w
  s.modSlice p fun sl =>
    let add := new.filter fun w => !(sl.msc.retiring.any fun r => r.1 == w)
    { sl with msc := { sl.msc with retiring := sl.msc.retiring ++ add.map fun w => (w, 0, false) } }

/-- A change of the snoop filter's DIS restarts its walk and clears EMPTY of ways that are enabled again (R540). -/
def State.sfWaysFollow (s old : State) (p : Nat) : State :=
  let dis := (s.slReg p 0x024).extractLsb' 0 16
  if dis == (old.slReg p 0x024).extractLsb' 0 16 then s
  else
    s.modSlice p fun sl =>
      { sl with dir := { sl.dir with wdSet := if dis = 0 then none else some 0, wdLeft := 0, empty := sl.dir.empty &&& dis } }

/-- Counters whose control register has come into force with CLR_COMMIT are cleared (R463). -/
def State.pmcFollow (s : State) (p : Nat) (offs : List Nat) : State :=
  let hit (i : Nat) : Bool := offs.contains (slBase p + 0x800 + 4 * i) && bitAt (s.slReg p (0x800 + 4 * i)) 30
  s.modSlice p fun sl =>
    { sl with obs := { sl.obs with pmc := sl.obs.pmc.mapIdx fun i k => if hit i then k.clear else k } }

/-- Registers have come into force: what the block does at that boundary. `old` is the state before, `offs` the registers'
base offsets. -/
def State.inForce (s old : State) (offs : List Nat) : State :=
  let agent (s : State) (p : Nat) : State :=
    let on (g : Nat) : Bool := offs.contains (0x40000 + 4 * (4 * p + g)) && s.agentOn p g
    let s1 := s.modAgentPort p fun a =>
      { a with silent := a.silent &&& ~~~(BitVec.ofNat 4 (bitsOf ((List.range 4).map on))) }
    if offs.any fun o => 0x40000 ≤ o && o < 0x50000 then s1.dealCredits p else s1
  let slice (s : State) (p : Nat) : State :=
    ((((s.mscWaysFollow old p).sfWaysFollow old p).pmcFollow p offs).cleanStart p)
  let s1 := (List.range s.variant.agents).foldl agent s
  let s2 := (List.range s.variant.phys).foldl slice s1
  s2.checkBudget.checkShrunk

end Sys2Proof.Machine
end

