-- ==== Sys2Proof/Machine/Loader.lean ====
section
/-! DEFINITION. The loader: choosing and loading a slot, the setup walk, the writes of R479, reloads, fetches, and the
expansion ROM window (14, 02 R58 to R64, 15 R494). -/

namespace Sys2Proof.Machine

open Sys2Proof

/-! ### Writes of an image (R479) -/

/-- Write one register from the image and put it in force (R474, R482). -/
def State.loadReg (s : State) (o : Nat) (v : W32) : State :=
  match regDef s.variant o with
  | none => s
  | some d =>
    let w := v &&& (d.rw ||| d.rwb ||| d.gs)
    ({ s with regs := { s.regs with base := kset o w s.regs.base } }).putForce o w

/-- Write the registers that a section holds. -/
def State.loadSec (s : State) (b : List Byte) (n : Nat) : State :=
  let c := secBytes b n
  let s1 := (secRegs n).foldl (fun s x => s.loadReg x.2 (BitVec.ofNat 32 (fieldAt c x.1 4))) s
  (List.range s.variant.phys).foldl (fun s p =>
    (secSlRegs n).foldl (fun s x => s.loadReg (slBase p + x.2.2) (BitVec.ofNat 32 (fieldAt c x.1 x.2.1))) s) s1

/-- Class ceilings of CLASSES, gathered into HP_CEIL0 to 3 and AP_CEIL (R470, R86). -/
def State.loadCeils (s : State) (b : List Byte) : State :=
  let c := secBytes b 3
  let w (o n : Nat) : W32 := word32 ((List.range n).map fun j => (2 * j, fieldAt c (o + j) 1 % 4))
  (((((s.loadReg 0x60010 (w 0 16)).loadReg 0x60014 (w 16 16)).loadReg 0x60018 (w 32 16)).loadReg 0x6001C (w 48 16)).loadReg
    0x40120 (w 0x40 8))

/-- LFSR seeds of TICKETS (R470, R94). -/
def State.loadSeeds (s : State) (b : List Byte) : State :=
  (List.range s.variant.phys).foldl (fun s p => s.loadReg (slBase p + 0x0C4) (BitVec.ofNat 32 (fieldAt (secBytes b 4) (0x60 + 2 * p) 2))) s

/-- The snoop timeout: the nearest value in range, with record 0x3A (R168). -/
def State.loadSnpTo (s : State) (b : List Byte) : State :=
  let r := nearest 1 1000 (fieldAt (secBytes b 2) 0 2)
  let s1 := { s with cfg := { s.cfg with snpTo := BitVec.ofNat 10 r.1 } }
  if r.2 then s1.logEv 0x3A 0 srcLoader 0 0x60000 else s1

/-- TABLE of an image into the table memories of every slice that the setup walk has marked active or reserve (R218, R472). -/
def State.loadTable (s : State) (b : List Byte) : State :=
  let c := secBytes b 5
  let put (sl : Slice) : Slice :=
    if sl.ident.role.serves || sl.ident.role == .reserve then { sl with ident := { sl.ident with tableIn := true } } else sl
  { s with slices := s.slices.map put, cfg := { s.cfg with table := tableOf b, tableId := BitVec.ofNat 64 (fieldAt c 0 8), kbound := fieldAt c 8 1 % 2 == 1 } }

/-- The host-ID table of an image (R67, R482). -/
def State.loadHids (s : State) (b : List Byte) : State :=
  { s with hids := s.hids.mapIdx fun i _ => hidAt (secBytes b 2) i }

/-- The image-only PLACEMENT values that were out of range are counted (R351, R474). -/
def State.countPlacement (s : State) (b : List Byte) : State :=
  let n := (placementAt (secBytes b 7)).2.2
  { s with dctl := { s.dctl with cfgErr := n.rec s.dctl.cfgErr fun _ c => satInc c } }

/-- Every register offset of the image's sections. -/
def imgOffsets (v : Variant) : List Nat :=
  ([3, 7, 8, 10].flatMap fun n => (secRegs n).map (·.2)) ++
  (List.range v.phys).flatMap fun p => [4, 6].flatMap fun n => (secSlRegs n).map fun x => slBase p + x.2.2

/-- The writes of R479 steps 1 to 3 at power-on. CAL_LOADED is set once the ENDGAME values are in force (R374). -/
def State.loadAll (s : State) (b : List Byte) : State :=
  let s1 := ((s.loadTable b).loadCeils b).loadSec b 3
  let s2 := (((s1.loadSec b 4).loadSeeds b).loadSec b 6).loadSec b 7
  let s3 := (((s2.countPlacement b).loadSec b 10).loadSnpTo b).loadSec b 8
  let s4 := { s3 with eg := { s3.eg with calLoaded := true } }
  (List.range s.variant.phys).foldl (fun s p => s.mscFollow p) (s4.inForce s (imgOffsets s.variant))

/-! ### The setup walk (R58 to R62, R64) -/

/-- The walk's outcome at one slice: eligible, or why not (R58, R60). -/
def State.eligible (s : State) (p : Nat) (excl : BitVec 17) : Option Walk :=
  match s.slice p with
  | none => some .testFailed
  | some sl =>
    if bitAt s.pins.fuseOff p then some .fusedOff
    else if sl.ident.selfTest != some true then some .testFailed
    else if bitAt excl p then some .excluded
    else none

/-- The slices' self-tests have all finished; a fused-off slice has none (R62). -/
def State.testsDone (s : State) : Bool :=
  (List.range s.variant.phys).all fun p =>
    bitAt s.pins.fuseOff p || (match s.slice p with | some sl => sl.ident.selfTest.isSome | none => true)

/-- One chain position: the token's next logical number and whether the reserve is taken (R59). -/
def State.walkOne (st : State × Nat × Bool) (p : Nat) : State × Nat × Bool :=
  let (s, next, res) := st
  let put (w : Walk) (r : Role) (l : Nat) : State := s.modSlice p fun sl =>
    { sl with ident := { sl.ident with walk := w, role := r, logA := l } }
  match s.eligible p s.cfg.excl with
  | some w => (put w .none 0, next, res)
  | none =>
    if next < s.variant.active then
      (({ put .active .active next with cast := { s.cast with homes := s.cast.homes.set next ⟨true, false, false, p⟩ } }), next + 1, res)
    else if !res then (put .reserve .reserve 0, next, true)
    else (put .excluded .none 0, next, res)

/-- The channels of the castling switch after the walk: channel k joins the slices of pair 2k, 2k + 1 (R64). -/
def State.walkChannels (s : State) : State :=
  let ch (k : Nat) : Option (Nat × Nat) :=
    match s.cast.homes[2 * k]?, s.cast.homes[2 * k + 1]? with
    | some a, some b => if a.valid && b.valid && a.phys != b.phys && k < s.variant.active / 2 then some (a.phys, b.phys) else none
    | _, _ => none
  { s with cast := { s.cast with channels := (List.range 8).map ch } }

/-- With N - 1 eligible slices the slice holding N - 2 adopts logical N - 1 without a mirror to replay, in blindfold mode as
any adoption (R61, R422). -/
def State.walkAdopt (s : State) : State :=
  let n := s.variant.active
  match s.cast.homes[n - 2]? with
  | none => s
  | some h =>
    let s1 := s.modSlice h.phys fun sl =>
      { sl with ident := { sl.ident with role := .adopting, logB := n - 1, unprot := true }, blind := sl.blind ++ [⟨n - 1, [], 0, 0⟩] }
    { s1 with cast := { s1.cast with homes := s1.cast.homes.set (n - 1) ⟨true, false, false, h.phys⟩ } }

/-- The walk (R59, R61): health after it, or a setup failure. An adoption carries record 0x02 with no stall, a setup failure is a
block failure that no record triggered (R430, R440). -/
def State.walk (s : State) : State :=
  let n := s.variant.active
  let r := (List.range s.variant.phys).foldl State.walkOne (s, 0, false)
  let s1 := r.1
  if r.2.1 = n then
    let s2 := s1.walkChannels
    if r.2.2 then s2 else s2.setHealth fun g => { g with noReserve := true }
  else if r.2.1 + 1 = n then
    let phys := match s1.cast.homes[n - 2]? with | some h => h.phys | none => 0
    s1.walkAdopt.walkChannels.setHealthWith (fun g => { g with noReserve := true, adopted := true, blind := true }) 0x02 2 (n - 1)
      (BitVec.ofNat 64 phys)
  else State.blockFail { s1 with gl := { s1.gl with setupFail := true, phase := 6 } } 0

/-- The block has started: enough slices were eligible. -/
def State.walkGood (s : State) : Bool := !s.gl.setupFail

/-! ### Loading a slot (R475 to R481) -/

/-- Log that a slot was rejected (R437 code 0x39). -/
def State.slotRejected (s : State) (slotB : Bool) (sec : Nat) : State :=
  s.logEv 0x39 1 srcLoader 0 (BitVec.ofNat 64 (n1 slotB + 16 * sec))

/-- Slots to try, in order: the usable slot with the later SEQ, slot A when equal, then the other (R475). -/
def slotOrder (v : Variant) (a b : List Byte) : List (Bool × W32) :=
  match headerUsable v a, headerUsable v b with
  | true, true => if serialLater (imgSeq b) (imgSeq a) then [(true, imgSeq b), (false, imgSeq a)] else [(false, imgSeq a), (true, imgSeq b)]
  | true, false => [(false, imgSeq a)]
  | false, true => [(true, imgSeq b)]
  | false, false => []

/-- No slot has passed at start-up (R481). -/
def State.noImage (s : State) : State :=
  { s with ld := { s.ld with state := .noImage, image := [] }, gl := { s.gl with setupFail := true, phase := 6 } }

/-- Both headers have been read (R475): slots whose header is not usable are logged and never loaded. Without SFDP tables
no slot is valid (R466). -/
def State.headersIn (s : State) (a b : List Byte) : State :=
  let s1 := if headerUsable s.variant a then s else s.slotRejected false 0
  let s2 := if headerUsable s.variant b then s1 else s1.slotRejected true 0
  let l := slotOrder s.variant a b
  let ld := { s2.ld with toTry := l, second := false, accepted := false, digestValid := false,
                         aFailed := !headerUsable s.variant a, bFailed := !headerUsable s.variant b }
  { s2 with ld := ld }

/-- The slot being loaded has failed (R476): the fallback slot is next, and while it is being read no digest is valid (R477). -/
def State.slotFailed (s : State) (sec : Nat) : State :=
  match s.ld.toTry with
  | [] => s
  | (b, _) :: r =>
    let s1 := s.slotRejected b sec
    { s1 with ld := { s1.ld with toTry := r, second := true, accepted := false,
                                 digestValid := s.ld.digestValid && r.isEmpty,
                                 aFailed := s.ld.aFailed || !b, bFailed := s.ld.bFailed || b } }

/-- A slot has been read into the image memory: the digest, then checks 1 to 6 (R476, R477). -/
def State.slotRead (s : State) (bytes : List Byte) : State :=
  let img := bytes.take (imgLen bytes)
  let s1 := { s with ld := { s.ld with image := img, digest := digestWords img, digestValid := true } }
  match s.checkSlot img with
  | some sec => s1.slotFailed sec
  | none =>
    if s.pins.rotEn then { s1 with ld := { s1.ld with state := .rot } }
    else { s1 with ld := { s1.ld with accepted := true } }

/-- Fields of the loader once a slot is in force. -/
def Loader.inForce (l : Loader) : Loader :=
  match l.toTry with
  | (b, q) :: _ => { l with state := .loaded, slotB := b, seq := q, fallback := l.second, accepted := false, toTry := [] }
  | [] => { l with state := .loaded, accepted := false }

/-- The accepted slot is a fallback load: EG_RESTART, LD_STATUS, GL_HEALTH and record 0x38 (R479). -/
def State.fallbackSeen (s : State) (was : Bool) : State :=
  if was then (s.logEv 0x38 1 srcLoader 0 0).setHealth fun g => { g with fallback := true }
  else s.setHealth fun g => { g with fallback := false }

/-- The rest of R479 at power-on: maps, walk, writes, restart. -/
def State.startImage (s : State) : State :=
  let b := s.ld.image
  let second := s.ld.second
  let s1 := ({ s with cfg := mapOf s.cfg b, gl := { s.gl with phase := 3, setupFail := false } }.loadHids b).walk
  if !s1.walkGood then { s1 with ld := { s1.ld with accepted := false } }
  else
    let s2 := s1.loadAll b
    let s3 := ({ s2 with ld := { s2.ld.inForce with powerOn := powerOnOf b } }).fallbackSeen second
    s3.beginRestart

/-! ### Reload (R483) -/

/-- The bytes of a slot during a reload. -/
def Loader.reloadSlot (l : Loader) (b : Bool) : List Byte :=
  match l.reload with | some (x, y) => if b then y else x | none => []

/-- No slot has passed: the image previously in force is back, and the reload is over. -/
def State.reloadFailed (s : State) : State :=
  { s with ld := { s.ld with state := .loaded, image := s.ld.prior, digest := digestWords s.ld.prior, digestValid := true,
                             reload := none, prior := [], armed := false, busy := false, toTry := [], accepted := false } }

/-- The accepted slot's TABLE and HOSTS come into force (R483 step 2). -/
def State.reloadDone (s : State) : State :=
  let b := s.ld.image
  let second := s.ld.second
  let s1 := ((s.loadTable b).loadHids b).loadSnpTo b
  let s2 := { s1 with ld := { s1.ld.inForce with reload := none, prior := [], armed := false, busy := false } }
  s2.fallbackSeen second

/-- Try the slots of a reload in order until one is accepted, one waits for the root of trust, or none is left. -/
def State.reloadTry : (n : Nat) → State → State
  | 0, s => s.reloadFailed
  | n + 1, s =>
    match s.ld.toTry with
    | [] => s.reloadFailed
    | (b, _) :: _ =>
      let s1 := s.slotRead (s.ld.reloadSlot b)
      if s1.ld.accepted then s1.reloadDone
      else if s1.ld.state == .rot then s1
      else State.reloadTry n s1

/-- Begin a reload after warm_ack (R483). -/
def State.beginReload (s : State) (a b : List Byte) : State :=
  let s1 := { s with ld := { s.ld with state := .reloading, busy := true, reload := some (a, b), prior := s.ld.image } }
  State.reloadTry 3 (s1.headersIn a b)

/-- The root of trust has decided, or has not answered in time (R478). -/
def State.rotDecide (s : State) (ok : Bool) : State :=
  if s.ld.state != .rot then s
  else
    let back := if s.ld.reload.isSome then LdState.reloading else LdState.loading
    let s1 := { s with ld := { s.ld with state := back } }
    if ok then
      let s2 := { s1 with ld := { s1.ld with accepted := true } }
      if s.ld.reload.isSome then s2.reloadDone else s2
    else
      let s2 := s1.slotFailed 0xFE
      if s.ld.reload.isSome then State.reloadTry 3 s2
      else if s2.ld.toTry.isEmpty then s2.noImage else s2

/-! ### Fetch (R484 to R486) -/

/-- Master-read tags in use (R498). -/
def State.readTags (s : State) : List Nat :=
  s.dctl.list.reads.map (·.1) ++ (match s.ld.fetch with | some f => f.tags | none => [])

/-- A fetch ends with a result (R486). -/
def State.fetchEnd (s : State) (result : BitVec 4) : State :=
  { s with ld := { s.ld with fetch := none, result := result, done := true } }

/-- Take tags for the 64 B reads of a fetch step: at most 16 (R484, log 6). -/
def State.fetchTags (s : State) (n : Nat) : List Nat :=
  ((List.range 32).filter fun t => !(s.dctl.list.reads.map (·.1)).contains t).take (min 16 n)

/-- Order master reads for a fetch step; while mst_en is 0 they end at once in an error (R499). -/
def State.fetchRead (s : State) (f : Fetch) (bytes : Nat) : State :=
  if !s.pins.mstEn then s.fetchEnd 5
  else { s with ld := { s.ld with fetch := some { f with tags := s.fetchTags ((bytes + 63) / 64) } } }

/-- LD_FETCH_LEN. -/
def State.fetchLen (s : State) : Nat := (s.actReg 0x10020).toNat

/-- Start a fetch (R485), or refuse it (R486 result 0x4). The slot not in force is its target. -/
def State.startFetch (s : State) : State :=
  let loading := s.ld.state == .sfdp || s.ld.state == .loading || s.ld.state == .rot || s.ld.state == .reloading || s.ld.state == .reset
  if s.ld.fetch.isSome then { s with ld := { s.ld with result := 4 } }
  else if s.ld.armed || loading || s.ld.sfdp.isNone || s.pwr.phase != .p0 then s.fetchEnd 4
  else
    let f : Fetch := ⟨.header, !s.ld.slotB && s.ld.state == .loaded, [], []⟩
    { s with ld := { s.ld with result := 1, pages := 0 } }.fetchRead f 256

/-- Program page size and erase unit. -/
def State.norPage (s : State) : Nat := match s.ld.sfdp with | some x => x.pageSize | none => 256
def State.norErase (s : State) : Nat := match s.ld.sfdp with | some x => x.eraseUnit | none => 4096

/-- Set the step of the fetch. -/
def State.setFetch (s : State) (f : Fetch) (st : FetchStep) : State :=
  { s with ld := { s.ld with fetch := some { f with step := st, tags := [] } } }

/-- NOR addresses of the slots: A from 0x00_0000 to 0x0F_FFFF, B from 0x10_0000 to 0x1F_FFFF (R467). -/
def slotBase (b : Bool) : Nat := if b then 0x100000 else 0
def slotBytes : Nat := 0x100000

/-- An access within a slot, from an offset, cut off at the slot's end: the block uses no other address (R467). -/
def inSlot (b : Bool) (kind : NorKind) (off len : Nat) : Option NorOp :=
  if off < slotBytes then some ⟨kind, .three, slotBase b + off, min len (slotBytes - off)⟩ else none

/-- What the loader asks of the NOR now (R467, R475, R485): the headers and the slot being loaded at start-up; the erases, programs
and read-backs of a fetch, page 0 last. -/
def State.norAsk (s : State) : List NorOp :=
  match s.ld.fetch with
  | some f =>
    let at_ (k : NorKind) (off len : Nat) : List NorOp := (inSlot f.slotB k off len).toList
    (match f.step with
    | .header => []
    | .eraseFirst => at_ .erase 0 s.norErase
    | .eraseRest n => at_ .erase (((s.fetchLen + s.norErase - 1) / s.norErase - n) * s.norErase) s.norErase
    | .page _ => []
    | .program n => at_ .program (n * s.norPage) s.norPage
    | .verify => at_ .read 256 (s.fetchLen - 256)
    | .programHeader => at_ .program 0 s.norPage
    | .compare => at_ .read 0 256)
  | none =>
    if s.ld.state == .loading || s.ld.state == .reloading then
      (match s.ld.toTry with
       | (b, _) :: _ => (inSlot b .read 0 slotBytes).toList
       | [] => (inSlot false .read 0 256).toList ++ (inSlot true .read 0 256).toList)
    else []

/-- The accesses with the addressing that the device needs (R466). -/
def State.norAccess (s : State) : List NorOp :=
  match s.ld.sfdp with
  | some x => s.norAsk.map fun o => { o with addressing := x.addressing }
  | none => s.norAsk

/-- Fetch a page from host memory, or go on to the read-back after the last one. -/
def State.nextPage (s : State) (f : Fetch) (n : Nat) : State :=
  if s.fetchLen ≤ n * s.norPage then s.setFetch f .verify
  else s.fetchRead { f with step := .page n } (min s.norPage (s.fetchLen - n * s.norPage))

/-- After the erases: pages from 1 upward. -/
def State.erased (s : State) (f : Fetch) : State := s.nextPage f 1

/-- The header fetched in step 1 (R485): RESULT 2, 3, or the first erase. Page 0 is kept in the fetch buffer. -/
def State.fetchHeader (s : State) (f : Fetch) (bytes : List Byte) : State :=
  if !(headerUsable s.variant bytes && imgLen bytes == s.fetchLen) then s.fetchEnd 2
  else if !serialLater (imgSeq bytes) s.ld.seq && s.ld.state == .loaded then s.fetchEnd 3
  else s.setFetch { f with page0 := bytes.take 256 } .eraseFirst

/-- One piece of ordered work has ended (R485). An event that does not answer the step in progress changes nothing. -/
def State.fetchStep (s : State) (e : FetchEvent) : State :=
  match s.ld.fetch with
  | none => s
  | some f =>
    match f.step, e with
    | .header, .read b => s.fetchHeader { f with tags := [] } b
    | .eraseFirst, .erased =>
      let left := (s.fetchLen + s.norErase - 1) / s.norErase - 1
      if left = 0 then s.erased f else s.setFetch f (.eraseRest left)
    | .eraseRest n, .erased => if n ≤ 1 then s.erased f else s.setFetch f (.eraseRest (n - 1))
    | .page n, .read _ => s.setFetch f (.program n)
    | .program n, .programmed => ({ s with ld := { s.ld with pages := s.ld.pages + 1 } }).nextPage f (n + 1)
    | .verify, .readBack b =>
      let img := (f.page0 ++ b).take s.fetchLen
      if (s.checkSlot img).isSome then s.fetchEnd 7 else s.setFetch f .programHeader
    | .programHeader, .programmed => ({ s with ld := { s.ld with pages := s.ld.pages + 1 } }).setFetch f .compare
    | .compare, .readBack b => if b.take 256 == f.page0 then s.fetchEnd 0 else s.fetchEnd 7
    | .header, .erased => s
    | .header, .programmed => s
    | .header, .readBack _ => s
    | .eraseFirst, .read _ => s
    | .eraseFirst, .programmed => s
    | .eraseFirst, .readBack _ => s
    | .eraseRest _, .read _ => s
    | .eraseRest _, .programmed => s
    | .eraseRest _, .readBack _ => s
    | .page _, .erased => s
    | .page _, .programmed => s
    | .page _, .readBack _ => s
    | .program _, .read _ => s
    | .program _, .erased => s
    | .program _, .readBack _ => s
    | .verify, .read _ => s
    | .verify, .erased => s
    | .verify, .programmed => s
    | .programHeader, .read _ => s
    | .programHeader, .erased => s
    | .programHeader, .readBack _ => s
    | .compare, .read _ => s
    | .compare, .erased => s
    | .compare, .programmed => s

/-- The NOR did not complete an erase or a page program in time (R486). -/
def State.norTimeout (s : State) : State :=
  match s.ld.fetch with
  | none => s
  | some f =>
    match f.step with
    | .eraseFirst => s.fetchEnd 6
    | .eraseRest _ => s.fetchEnd 6
    | .program _ => s.fetchEnd 6
    | .programHeader => s.fetchEnd 6
    | .header => s
    | .page _ => s
    | .verify => s
    | .compare => s

/-- Commands of LD_CMD, highest bit first (R481, R483, R485). -/
def State.ldCmd (s : State) (w : W32) : State :=
  let s1 := if bitAt w 31 then s.startFetch else s
  let s2 := if bitAt w 30 then
      (if s1.ld.fetch.isSome then { s1 with ld := { s1.ld with ignored := s1.ld.ignored + 1 } }
       else { s1 with ld := { s1.ld with armed := true } }) else s1
  let s3 := if bitAt w 29 then { s2 with ld := { s2.ld with armed := false } } else s2
  if bitAt w 28 then
    (if s3.ld.state == .noImage then { s3 with ld := { s3.ld with state := .loading }, gl := { s3.gl with phase := if s3.testsDone then 3 else 1 } }
     else { s3 with ld := { s3.ld with ignored := s3.ld.ignored + 1 } })
  else s3

/-- The word of the expansion ROM window at an offset (R494). -/
def State.romWord (s : State) (o : Nat) : W32 :=
  if s.ld.state == .loaded && o < s.ld.image.length then BitVec.ofNat 32 (fieldAt s.ld.image o 4) else 0

end Sys2Proof.Machine
end

