-- ==== Sys2Proof/Machine/Inputs.lean ====
section
/-! DEFINITION. The inputs of a slice: what waits there, what may be accepted, acceptance, hold release, the way a port's
request takes to its home (R24 to R27, R85, R88, R91, R92, R156, R170, R381, R414). -/

namespace Sys2Proof.Machine

open Sys2Proof

/-! ### Resources (R26, R27, R92, R427) -/

/-- Trackers of a pool reserved for credits. -/
def Slice.creditsOf (sl : Slice) (o : Pool) : Nat := (sl.arb.inputs.filter fun i => i.kcredit == some o).length
/-- Credits issued and not yet used up. -/
def Slice.credits (sl : Slice) : Nat := (sl.arb.inputs.filter fun i => i.kcredit.isSome).length
/-- Trackers of a pool (R27). -/
def poolSize : Pool → Nat
  | .k => 32
  | .maint => 16
  | .shared => 144
/-- A tracker of a pool is free, beyond those reserved for credits. -/
def Slice.poolFree (sl : Slice) (o : Pool) : Bool := sl.poolUsed o + sl.creditsOf o < poolSize o

/-- A class-K tracker may go to a line's logical number: an adopting slice divides them 16 and 16 (R427). -/
def State.kHalf (s : State) (sl : Slice) (l : LineAddr) : Bool :=
  sl.ident.role != .adopting ||
  (sl.trk.filter fun t => t.pool == .k && s.homeOf (pageOf t.req.line) == s.homeOf (pageOf l)).length < 16

/-- A hold entry is free for a request without a class-K credit: 32 are reserved (R26). -/
def Slice.holdFree (sl : Slice) : Bool :=
  (sl.hold.filter fun h => !(h.req.withK && h.req.cls == .k)).length < 480 && sl.hold.length + sl.credits < 512

/-- The class of a request as the slice gives it now (R85): its page's class is that of the page map's entry, cached or not. -/
def State.clsNow (s : State) (sl : Slice) (q : Req) : Cls :=
  s.classOf q.src q.ownCls (pageOf q.line) (some (s.lineEnt sl q.line).classPin)

/-- The request has a tracker and a hold entry that it may use (R26, R92). -/
def State.canAccept (s : State) (sl : Slice) (i : InputQ) (q : Req) : Bool :=
  if q.withK && i.kcredit.isSome && s.clsNow sl q == .k then i.kcredit == some .shared || s.kHalf sl q.line || sl.poolFree .shared
  else sl.poolFree .shared && sl.holdFree

/-- The slice takes new work of a request: not while it is frozen or stalled, and during a drain only store-buffer entries
(R381, R426). -/
def State.takesNew (s : State) (sl : Slice) (q : Req) : Bool :=
  sl.live && !sl.ident.adoptStall &&
  (!s.eg.drainReq || (match q.src with
    | .agent .. => q.kind == .wbDirty || q.kind == .atomicOp || q.kind == .wrCond
    | _ => false))

/-! ### Acceptance (R85, R91, R92, R348) -/

/-- Open requests of class K for a line, in trackers or in hold. -/
def Slice.openK (sl : Slice) (l : LineAddr) : Nat :=
  (sl.trk.filter fun t => t.req.line == l && t.req.cls == .k).length + (sl.hold.filter fun h => h.req.line == l && h.req.cls == .k).length

/-- Class-K acceptances of the move that count for a line's logical number (R91, R427). -/
def State.kCount (s : State) (sl : Slice) (l : LineAddr) : Nat :=
  if sl.ident.role == .adopting && s.homeOf (pageOf l) == sl.ident.logB then sl.arb.kAcceptB else sl.arb.kAccept

/-- Eligible for the class-K budget (R91, R92): class K with a credit, below the count, at most one other open. -/
def State.kEligible (s : State) (sl : Slice) (i : InputQ) (q : Req) : Bool :=
  q.withK && i.kcredit.isSome && s.clsNow sl q == .k && s.kCount sl q.line < (if sl.ident.role == .adopting then 64 else 128) &&
  sl.openK q.line ≤ 1

/-- Change one input of a slice. -/
def Slice.modInput (sl : Slice) (n : Nat) (f : InputQ → InputQ) : Slice :=
  { sl with arb := { sl.arb with inputs := sl.arb.inputs.modify n f } }

/-- A waiting message that a tracker takes as an input of its own, or a BIConflict for a held line, needs no slot (R170,
R174, R192). -/
def Slice.noSlot (sl : Slice) (q : Req) : Bool :=
  (sl.sideTrk q).isSome || (q.kind == .biConflict && (sl.holderTrk q.line).isSome)

/-- Waiting messages of the inputs that need no slot go to their trackers, oldest first. -/
def State.sideSweep : (fuel : Nat) → State → (p : Nat) → State
  | 0, s, _ => s
  | k + 1, s, p =>
    match s.slice p with
    | none => s
    | some sl =>
      let all : List (Nat × Req) := sl.arb.inputs.zipIdx.flatMap fun x => x.1.waiting.map fun q => (x.2, q)
      let mine := all.filter fun x => sl.noSlot x.2
      match mine.find? fun x => mine.all fun y => x.2.seq ≤ y.2.seq with
      | none => s
      | some (n, q) =>
        let drop (x : Slice) : Slice := x.modInput n fun i => { i with waiting := i.waiting.filter fun y => y.seq != q.seq }
        State.sideSweep k ((s.modSlice p drop).present p q .shared) p

/-- After a command that may have sent snoops or retired trackers of a slice. -/
def State.settleIn (s : State) (p : Nat) : State :=
  match s.slice p with
  | none => s
  | some sl => (State.sideSweep (sl.arb.inputs.foldl (fun n i => n + i.waiting.length) 0) s p).fenceSettle

/-- Accept a request that waits at an input: its class, its budget, its credit, the heat of its page, its tracker or hold
entry. -/
def State.accept (s : State) (p n : Nat) (q0 : Req) : State :=
  match s.slice p, (s.slice p).bind fun sl => sl.arb.inputs[n]? with
  | some sl, some i =>
    let cls := s.clsNow sl q0
    let q := { q0 with cls := cls }
    let inBudget := s.kEligible sl i q
    let second := sl.ident.role == .adopting && s.homeOf (pageOf q.line) == sl.ident.logB
    let pool : Pool := if q.withK && i.kcredit.isSome && cls == .k
      then (match i.kcredit with | some .k => if s.kHalf sl q.line then .k else .shared | _ => .shared) else .shared
    let take (x : Slice) : Slice :=
      let a := { x.arb with kAccept := if inBudget && !second then x.arb.kAccept + 1 else x.arb.kAccept,
                            kAcceptB := if inBudget && second then x.arb.kAcceptB + 1 else x.arb.kAcceptB }
      ({ x with arb := a }.modInput n fun y =>
        { y with waiting := y.waiting.filter fun z => z.seq != q.seq, starve := 0, forced := false,
                 kcredit := if q.withK then none else y.kcredit }).warm (pageOf q.line)
    let s1 := (s.modSlice p take).count p 0x01 (some cls)
    let s2 := if cls == .k then s1.count p (if inBudget then 0x02 else 0x03) none else s1
    (s2.present p q pool).settleIn p
  | _, _ => s

/-! ### Hold release (R25) -/

/-- The hold entry of a line due for release: class K first, then order of arrival. -/
def Slice.dueHold (sl : Slice) (l : LineAddr) : Option HoldEnt :=
  let mine := sl.hold.filter fun h => h.req.line == l
  let ks := mine.filter fun h => h.req.cls == .k
  let c := if ks.isEmpty then mine else ks
  c.find? fun h => c.all fun x => h.order ≤ x.order

/-- The pool a released request takes a tracker from, if one is free (R27, R92). -/
def State.releasePool (s : State) (sl : Slice) (q : Req) : Option Pool :=
  if q.cls == .k && q.withK && sl.poolFree .k && s.kHalf sl q.line then some .k
  else if sl.poolFree .shared then some .shared
  else none

/-- The line lies in a range whose replay into the slice has not reached REPLAY_END: its restored records wait for it (R215,
R415; log 36). -/
def State.replaying (s : State) (p : Nat) (l : LineAddr) : Bool :=
  s.cast.replays.any fun r => r.target == p && r.log == s.homeOf (pageOf l)

/-- The record of a replay into a slice, not yet placed, that a message is for. -/
def State.recordFor (s : State) (p : Nat) (hit : Tracker → Bool) : Option Tracker :=
  (s.cast.replays.filter fun r => r.target == p).findSome? fun r => r.items.findSome? fun it =>
    match it with | .trk t => if hit t then some t else none | _ => none

/-- Requests in order of their arrival. -/
def insSeq (q : Req) : List Req → List Req
  | [] => [q]
  | x :: xs => if q.seq < x.seq then q :: x :: xs else x :: insSeq q xs

/-- A redirected answer for a record that is not placed yet waits with the record, behind the side messages of its line that
wait at the slice's inputs, and is taken in CA (R215, R414; log 36). -/
def State.earlyAnswer (s : State) (p : Nat) (t : Tracker) (m : InMsg) : State :=
  match s.slice p with
  | none => s
  | some sl =>
    let sides := (sl.arb.inputs.flatMap fun i => i.waiting.filter fun q => t.takesSide q).foldl (fun l q => insSeq q l) []
    let msgs := (sides.map fun q => sideMsg q (t.isVic q.line)) ++ [m]
    let put (it : RItem) : RItem :=
      match it with
      | .trk x => if x.num == t.num && x.req.line == t.req.line then .trk { x with inq := x.inq ++ msgs } else it
      | _ => it
    let fr (r : Replay) : Replay := if r.target == p then { r with items := r.items.map put } else r
    let fi (i : InputQ) : InputQ := { i with waiting := i.waiting.filter fun q => !t.takesSide q }
    { s with cast := { s.cast with replays := s.cast.replays.map fr } }.modSlice p fun x =>
      { x with arb := { x.arb with inputs := x.arb.inputs.map fi } }

/-- Release the entry due for a line that no tracker holds; an error in it is met as R404 says. -/
def State.holdRelease (s : State) (p : Nat) (l : LineAddr) : State :=
  match s.slice p with
  | none => s
  | some sl =>
    if !sl.live || (sl.holderTrk l).isSome || s.replaying p l then s
    else match sl.dueHold l with
      | none => s
      | some h =>
        match s.releasePool sl h.req with
        | none => s
        | some o =>
          let d := s.meetErr p .hold (some 0x53) 3 fun i => i == h.num
          if d.2 then d.1.failSlice p .control
          else
            let s1 := d.1.modSlice p fun x => { x with hold := x.hold.filter fun y => y.num != h.num }
            ((s1.openTracker p h.req o true).noteOcc p).settleIn p

/-! ### From a port to its home (R56, R88, R156, R414) -/

/-- The input number of a port at a slice (R90). -/
def Src.input : Src → Option Nat
  | .host p _ => some p
  | .agent p _ _ => some (8 + p)
  | .director => none
  | .prefetch => none
  | .preload => none
  | .wayWalk => none
  | .sweeper => none

/-- The input holds a class-K credit that no waiting request of it has used. -/
def Slice.creditIdle (sl : Slice) (n : Nat) : Bool :=
  match sl.arb.inputs[n]? with
  | some i => i.kcredit.isSome && !(i.waiting.any fun q => q.withK)
  | none => false

/-- The class that a port knows a request to have (R84, R92): its own, else its window's, under the ceiling. -/
def State.portClass (s : State) (q : Req) : Cls := s.classOf q.src q.ownCls (pageOf q.line) none

/-- The slice that a line's requests are sent to now; none while its range is stalled or has no slice. -/
def State.targetOf (s : State) (l : LineAddr) : Option Nat :=
  if s.lineStalled l then none else s.homeSlice (pageOf l)

/-- The slice that a port sends a request to now: a class-K request leaves only with the class-K credit for the slice (R92). -/
def State.sendTo (s : State) (q : Req) : Option Nat :=
  (s.targetOf q.line).filter fun p =>
    q.kind == .biConflict || s.portClass q != .k ||
    (match s.slice p, q.src.input with | some sl, some n => sl.creditIdle n | _, _ => false)

/-- The endpoint of a port, and the PEER of its messages (R442, R445). -/
def Src.endpoint : Src → Endpoint
  | .host p _ => .host p
  | .agent p _ _ => .agent p
  | _ => .director
def Src.peer : Src → Nat
  | .host _ h => h
  | .agent p a _ => 4 * p + a
  | _ => 0

/-- A port's request travels to a slice; data that it writes follows behind the header (R30, R445). -/
def State.meshReq (s : State) (p : Nat) (q : Req) (k : Bool) : State :=
  let m : MeshMsg := { kpri := k, dst := .slice p, src := q.src.endpoint, kind := q.kind.code, len := false, poison := false, trk := 0xFF,
                       peer := q.src.peer, cls := s.portClass q, line := q.line, opq := q.tag }
  if q.kind ∈ [.memWr, .memWrPtl, .wbDirty, .atomicOp, .wrCond] then s.meshData m q.poison else s.meshSend m

/-- A request reaches the input of its home slice. A message that needs no slot goes to its tracker. -/
def State.arrive (s : State) (p : Nat) (q0 : Req) : State :=
  match s.slice p, q0.src.input with
  | some sl, some n =>
    let q := { q0 with seq := sl.arb.seq, withK := (q0.withK || s.portClass q0 == .k) && q0.kind != .biConflict && sl.creditIdle n }
    let sm := s.meshReq p q0 (q0.withK || s.portClass q0 == .k)
    let s0 := if q.kind == .biConflict then sm.count p 0x32 none else sm
    let add (x : Slice) : Slice :=
      ({ x with arb := { x.arb with seq := x.arb.seq + 1 },
                ident := { x.ident with gated := false, busyMove := true } }).modInput n fun i => { i with waiting := i.waiting ++ [q] }
    let s1 := s0.modSlice p add
    match s1.slice p with
    | none => s1
    | some sl1 => if sl1.live && sl1.noSlot q then s1.settleIn p else s1
  | _, _ => s

/-- Requests kept at a host port leave for their homes, in order: one goes unless an earlier one for its line stays. -/
def State.releaseFrom : List Req → State → (stay : List Req) → State × List Req
  | [], s, stay => (s, stay)
  | q :: l, s, stay =>
    match (if stay.any fun x => x.line == q.line then none else s.sendTo q) with
    | some p => State.releaseFrom l (s.arrive p q) stay
    | none => State.releaseFrom l s (stay ++ [q])

/-- Host requests kept at a port leave for homes that are no longer stalled, and with a credit that class K needs. -/
def State.portRelease (s : State) (port : Nat) : State :=
  match s.hostPort port with
  | none => s
  | some hp =>
    let r := State.releaseFrom hp.waiting s []
    r.1.modHostPort port fun h => { h with waiting := r.2 }

/-- Every host port's kept requests leave for homes that are no longer stalled. -/
def State.portsRelease (s : State) : State := (List.range s.hostPorts.length).foldl State.portRelease s

end Sys2Proof.Machine
end

