-- ==== Sys2Proof/Machine/Slots.lean ====
section
/-! DEFINITION. The issue slots of a slice: slot kinds, candidates, draws, forced wins, dead cycles, and a request's way from its
port through the slot that accepts it (03 R88 to R99, R427). -/

namespace Sys2Proof.Machine

open Sys2Proof

/-- Slot kinds (R89). -/
inductive SlotKind where
  | k
  | q
  | maint
  | lottery
  deriving DecidableEq, Repr

/-- The slot kind of a cycle of a move (R89). -/
def slotKind (c : Nat) : SlotKind :=
  if c % 8 = 0 then .k else if c % 4 = 2 then .q else if c % 16 = 5 then .maint else .lottery

/-- One step of the LFSR (R94). -/
def lfsrStep (x : BitVec 16) : BitVec 16 := b1 (bitAt x 0 ^^ bitAt x 2 ^^ bitAt x 3 ^^ bitAt x 5) ++ x.extractLsb' 1 15

/-! ### Candidates (R26, R91, R93) -/

/-- The class as which a waiting request competes for a slot of its own class (R88, R90): a BIConflict of class K as class Q. -/
def State.slotClass (s : State) (sl : Slice) (q : Req) : Cls :=
  match s.clsNow sl q with | .k => (if q.kind == .biConflict then .q else .k) | c => c

/-- The class with which a waiting request takes part in lottery draws: none while it may not be accepted, or while it is eligible
for the class-K budget; a class-K request that is not eligible counts as class Q (R93). -/
def State.drawClass (s : State) (sl : Slice) (i : InputQ) (q : Req) : Option Cls :=
  if !(s.takesNew sl q && s.canAccept sl i q) || s.kEligible sl i q then none
  else match s.clsNow sl q with | .k => some .q | c => some c

/-- The oldest waiting request that satisfies a test. -/
def oldest (l : List Req) (ok : Req → Bool) : Option Req :=
  let m := l.filter ok
  m.find? fun q => m.all fun x => q.seq ≤ x.seq

/-- Candidates in the order of R93; `ok` restricts the requests looked at. -/
def State.cands (s : State) (sl : Slice) (ok : Req → Bool) : List Cand :=
  sl.arb.inputs.zipIdx.flatMap fun x =>
    [Cls.q, Cls.n, Cls.p].filterMap fun c =>
      if x.1.waiting.any fun q => ok q && s.drawClass sl x.1 q == some c then some (Cand.mk x.2 c) else none

/-- The winner of a draw: the first candidate at which the running sum of tickets exceeds r (R95). -/
def pickTicket (tk : Cand → Nat) : (r acc : Nat) → List Cand → Option Cand
  | _, _, [] => none
  | r, acc, c :: l => if r < acc + tk c then some c else pickTicket tk r (acc + tk c) l

/-- A candidate's place in the order of R93. -/
def Cand.order (c : Cand) : Nat := c.input * 4 + c.cls.toNat

/-- A draw among candidates in the order of R93 (R95): by tickets, or round robin when no candidate has any. -/
def drawAmong (tk : Cand → Nat) (lfsr : BitVec 16) (prev : Option Cand) (cs : List Cand) : Option Cand :=
  let t := cs.foldl (fun n c => n + tk c) 0
  if t = 0 then
    match prev with
    | some w => (match cs.find? fun c => w.order < c.order with | some c => some c | none => cs.head?)
    | none => cs.head?
  else pickTicket tk (lfsr.toNat * t / 65536) 0 cs

/-- The lottery draw of this cycle. -/
def State.drawLottery (s : State) (p : Nat) (sl : Slice) : Option Cand :=
  drawAmong (s.tickets p) sl.arb.lfsr sl.arb.rrZero (s.cands sl fun _ => true)

/-- The logical number that a Q slot goes to first in an adopting slice (R427). -/
def Slice.qTurn (sl : Slice) : Nat :=
  if sl.arb.qCount % 2 = 0 then min sl.ident.logA sl.ident.logB else max sl.ident.logA sl.ident.logB

/-- The request is for the number whose turn the Q slot is; every request where the slice serves one number. -/
def State.onTurn (s : State) (sl : Slice) (q : Req) : Bool :=
  sl.ident.role != .adopting || s.homeOf (pageOf q.line) == sl.qTurn

/-- The class-Q draw of this cycle: a class-K request outside the budget has no part in it (R90, R91, R427). -/
def State.drawQ (s : State) (p : Nat) (sl : Slice) : Option Cand :=
  let qs (ok : Req → Bool) := (s.cands sl fun q => ok q && s.slotClass sl q == .q).filter fun c => c.cls == .q
  let mine := qs (s.onTurn sl)
  drawAmong (s.tickets p) sl.arb.lfsr sl.arb.rrZero (if mine.isEmpty then qs fun _ => true else mine)

/-- The request eligible for the class-K budget that has waited longest (R90). -/
def State.kPick (s : State) (sl : Slice) : Option (Nat × Req) :=
  let all : List (Nat × Req) := sl.arb.inputs.zipIdx.flatMap fun x =>
    (x.1.waiting.filter fun q => s.takesNew sl q && s.canAccept sl x.1 q && s.kEligible sl x.1 q).map fun q => (x.2, q)
  all.find? fun x => all.all fun y => x.2.seq ≤ y.2.seq

/-- The input whose forced win is due and can be granted, the lowest-numbered, and its oldest waiting request among classes Q, N and
P (R98). -/
def State.forcedPick (s : State) (sl : Slice) : Option (Nat × Req) :=
  sl.arb.inputs.zipIdx.findSome? fun x =>
    if x.1.forced then
      (oldest x.1.waiting fun q => s.slotClass sl q != .k && (s.drawClass sl x.1 q).isSome).map fun q => (x.2, q)
    else none

/-- The request that a winning candidate presents (R95, R96): the oldest that satisfies both tests, else the first. -/
def State.candReq (s : State) (sl : Slice) (c : Cand) (may first : Req → Bool) : Option Req :=
  match sl.arb.inputs[c.input]? with
  | none => none
  | some i =>
    match oldest i.waiting fun q => may q && first q && s.drawClass sl i q == some c.cls with
    | some q => some q
    | none => oldest i.waiting fun q => may q && s.drawClass sl i q == some c.cls

/-! ### Slots (R90, R96, R99) -/

/-- Change the arbitration state of a slice. -/
def State.modArb (s : State) (p : Nat) (f : Arb → Arb) : State := s.modSlice p fun sl => { sl with arb := f sl.arb }

/-- A dead cycle (R99). -/
def State.deadCycle (s : State) (p : Nat) : State := (s.modArb p fun a => { a with dead := satInc a.dead }).count p 0x05 none

/-- The port of a drawn input has been reset since the draw of the cycle before (R96, R99). -/
def State.resetSince (s : State) (sl : Slice) (n : Nat) : Bool :=
  s.variant == .yzh16 && (match sl.arb.inputs[n]? with | some i => i.wasReset | none => false)

/-- A draw's winner is accepted, or the cycle is dead. -/
def State.grant (s : State) (p : Nat) (sl : Slice) (c : Cand) (may first : Req → Bool) : State :=
  match (if s.resetSince sl c.input then none else s.candReq sl c may first) with
  | none => s.deadCycle p
  | some q => (if s.tickets p c = 0 then s.modArb p fun a => { a with rrZero := some c } else s).accept p c.input q

/-- Kinds of maintenance work in the order of R90: sweepers, the writeback walk, migration steps, director commands. -/
def State.maintKinds (s : State) (p : Nat) (sl : Slice) : List Bool :=
  [sl.dir.wdSet.isSome || !sl.blind.isEmpty || sl.msc.pre.busy,
   sl.msc.walkBusy || sl.msc.state == .draining || !sl.msc.retiring.isEmpty,
   s.net.any fun m => match m with
     | .migStart x _ _ => x == p
     | .migDone x _ => x == p
     | _ => false,
   s.net.any fun m => match m with
     | .clean x _ => x == p
     | _ => false]

/-- Maintenance work waits in a slice. -/
def State.maintWaits (s : State) (p : Nat) (sl : Slice) : Bool := (s.maintKinds p sl).any id

/-- Maintenance work takes a slot: the turn passes round robin to the next kind of which work waits (R90). The work itself is done
by the command of its row (log 20). -/
def State.maintTurn (s : State) (p : Nat) (sl : Slice) : State :=
  let l := s.maintKinds p sl
  match ([1, 2, 3, 4].map fun i => (sl.arb.rrMaint + i) % 4).find? fun k => l.getD k false with
  | some k => s.modArb p fun a => { a with rrMaint := k }
  | none => s

/-- A lottery slot (R90): a class-K request eligible for the budget, a forced win, the draw, maintenance work, or nothing. -/
def State.lotterySlot (s : State) (p : Nat) (sl : Slice) (draw : Option Cand) : State :=
  match s.kPick sl with
  | some (n, q) => s.accept p n q
  | none =>
    match s.forcedPick sl with
    | some (n, q) => (s.count p 0x06 none).accept p n q
    | none =>
      match draw with
      | some c => (s.count p 0x04 none).grant p sl c (fun _ => true) fun _ => true
      | none => if s.maintWaits p sl then s.maintTurn p sl else s.count p 0x07 none

/-- What a slot of a kind does with the draws that serve it; the first maintenance slot of a move is the self-check's (R80). -/
def State.slot (s : State) (p : Nat) (sl : Slice) (kind : SlotKind) (dq dl : Option Cand) : State :=
  match kind with
  | .k => s.lotterySlot p sl dl
  | .lottery => s.lotterySlot p sl dl
  | .q => (match dq with | some c => s.grant p sl c (fun q => s.slotClass sl q == .q) (s.onTurn sl) | none => s.lotterySlot p sl dl)
  | .maint => if !sl.arb.selfSlot then s.modArb p fun a => { a with selfSlot := true }
    else if s.maintWaits p sl then s.maintTurn p sl else s.lotterySlot p sl dl

/-- What the counters of a slice add in every cycle (R454, R465): occupancies, refused requests. -/
def State.cycleCounts (s : State) (p : Nat) (sl : Slice) : State :=
  let cl (l : List Cls) (ev : Nat) (s : State) : State :=
    [Cls.k, .q, .n, .p].foldl (fun s c => s.count p ev (some c) (l.filter fun x => x == c).length) s
  let s1 := cl (sl.hold.map fun h => h.req.cls) 0x09 (cl (sl.trk.map fun t => t.req.cls) 0x08 s)
  let s2 := cl ((sl.trk.filter fun t => t.rdOut).map fun t => t.req.cls) 0x42 s1
  let mir (t : Tracker) : Bool := t.acks.any fun a => match a.kind with | .mirror _ => true | _ => false
  let s3 := s2.count p 0x47 none (sl.trk.filter mir).length
  let refused := sl.arb.inputs.any fun i => i.waiting.any fun q => s.takesNew sl q && !s.canAccept sl i q
  let s4 := if refused then s3.count p 0x0C none else s3
  if sl.trk.any fun t => t.stall.isSome then s4.count p 0x2A none else s4

/-- The starvation counters after a cycle: an input with a candidate of which nothing was accepted counts (R97). `had`: the
inputs that had a candidate; `was`: their waiting requests before. -/
def State.starve (s : State) (p : Nat) (before : List InputQ) (had : List Nat) : State :=
  s.modArb p fun a =>
    { a with inputs := a.inputs.mapIdx fun n i =>
        let took := match before[n]? with | some b => i.waiting.length < b.waiting.length | none => false
        if had.contains n && !took && s.starveLimit p n != 0 then { i with starve := satIncN 4095 i.starve } else i }

/-- One SCLK cycle of a slice (R90): the slot, the counters, the LFSR, and in YZH-16S the draws for the next cycle. -/
def State.issueSlot (s : State) (p : Nat) : State :=
  match s.slice p with
  | none => s
  | some sl =>
    if !sl.live || sl.ident.gated then s
    else
      let kind := slotKind (sl.arb.cyc % 1024)
      let piped := s.variant == .yzh16
      let nowQ := s.drawQ p sl
      let nowL := s.drawLottery p sl
      let had := (s.cands sl fun _ => true).map fun c => c.input
      let s1 := ((s.cycleCounts p sl).slot p sl kind (if piped then sl.arb.pipeQ else nowQ) (if piped then sl.arb.pipeL else nowL)).starve
        p sl.arb.inputs had
      let s2 := s1.modArb p fun a =>
        { a with cyc := (a.cyc + 1) % 1024, lfsr := lfsrStep a.lfsr,
                 qCount := if kind = .q then a.qCount + 1 else a.qCount,
                 maintCount := if kind = .maint then a.maintCount + 1 else a.maintCount,
                 pipeQ := if piped then nowQ else none, pipeL := if piped then nowL else none,
                 inputs := a.inputs.map fun i => { i with wasReset := false } }
      s2.modSlice p fun x => { x with obs := { x.obs with cyc := x.obs.cyc.add 1 } }

/-! ### The way of a request to its slice (R22, R47, R92; log 2) -/

/-- A request still waits at an input of a slice. -/
def State.stillWaits (s : State) (p n seq : Nat) : Bool :=
  match (s.slice p).bind fun sl => sl.arb.inputs[n]? with
  | some i => i.waiting.any fun q => q.seq == seq
  | none => false

/-- The slice's next issue slots, at most `fuel`, until a request has been accepted. -/
def State.slotsFor : (fuel : Nat) → State → (p n seq : Nat) → State
  | 0, s, _, _, _ => s
  | k + 1, s, p, n, seq => if s.stillWaits p n seq then State.slotsFor k (s.issueSlot p) p n seq else s

/-- A request reaches the input of its home slice; with `home` the slice's next slots come within the step, until one accepts the
request or four have passed (log 2). Whatever else they accept is accepted too. -/
def State.arriveBy (s : State) (p : Nat) (q : Req) (home : Bool) : State :=
  match s.slice p, q.src.input with
  | some sl, some n =>
    let s1 := s.arrive p q
    if home then State.slotsFor 4 s1 p n sl.arb.seq else s1
  | _, _ => s

/-- The slots of a move up to its first maintenance slot (R80, R89). -/
def State.toSelfSlot : (fuel : Nat) → State → (p : Nat) → State
  | 0, s, _ => s
  | k + 1, s, p =>
    match s.slice p with
    | some sl => if sl.arb.selfSlot || !sl.live || sl.ident.gated then s else State.toSelfSlot k (s.issueSlot p) p
    | none => s

end Sys2Proof.Machine
end

