-- ==== Sys2Proof/Machine/AgentPorts.lean ====
section
/-! DEFINITION. Agent ports: taking and sending requests, fences, responses, reservations (07 R224 to R238, 08 R264 to R293). -/

namespace Sys2Proof.Machine

open Sys2Proof

/-! ### What a port holds (R226, R266, R267) -/

/-- The request has received its response. -/
def PortReq.answered (r : PortReq) : Bool := r.stage == .received
/-- A fence that goes through the store buffer: FenceFull or FenceRelease. -/
def PortReq.bufFence (r : PortReq) : Bool := r.req.kind == .fence && r.inBuf
/-- The request stands in the store buffer: not yet sent, or a fence whose Cmp has not been delivered (R275). -/
def PortReq.buffers (r : PortReq) : Bool := r.inBuf && (r.stage == .buffered || r.bufFence)
/-- A read-type request (R274): of the read path, no fence. -/
def PortReq.readType (r : PortReq) : Bool := !r.inBuf && r.req.kind != .fence
/-- Of the same thread. -/
def PortReq.mate (a b : PortReq) : Bool := a.agent == b.agent && a.thread == b.thread
/-- The number a request holds in the order of taking; tags of one agent are unique. -/
def PortReq.same (a b : PortReq) : Bool := a.agent == b.agent && a.req.tag == b.req.tag

/-- Requests taken before one, oldest first. -/
def AgentPort.before (a : AgentPort) (r : PortReq) : List PortReq := a.held.takeWhile fun x => !x.same r

/-- The head of the store buffer. -/
def AgentPort.head (a : AgentPort) : Option PortReq := a.held.find? PortReq.buffers

/-- A later request of the thread is held by an earlier fence or device-type request of it (R274, R277). -/
def PortReq.blocks (x r : PortReq) : Bool :=
  x.mate r &&
  (x.device || (x.req.kind == .fence && (if x.req.aop = 1 then r.inBuf && r.req.kind != .fence else true)))

/-- Slices that serve a logical home number (R232). -/
def State.serving (s : State) : List Nat :=
  (((List.range s.variant.active).filterMap fun n => match s.cast.homes[n]? with
    | some h => if h.valid && !h.lost then some h.phys else none
    | none => none)).eraseDups

/-- Some logical home number is stalled (R414). -/
def State.anyStalled (s : State) : Bool := (List.range s.variant.active).any fun n => match s.cast.homes[n]? with
  | some h => h.stalled
  | none => false

/-- The request is free to be sent (R231, R269, R274, R275, R277), its home not stalled (R414), with the credit that class K needs
(R92). -/
def State.freeToSend (s : State) (a : AgentPort) (r : PortReq) : Bool :=
  let b := a.before r
  r.stage == .buffered && !(b.any fun x => x.blocks r) &&
  (if r.req.kind == .fence then
    !(b.any fun x => x.mate r && x.readType && !x.answered) && !s.anyStalled
   else
    !(b.any fun x => x.agent == r.agent && x.req.kind != .fence && x.req.line == r.req.line && !x.answered) &&
    (s.lineLost r.req.line || (s.sendTo r.req).isSome) &&
    (!r.device || !(b.any fun x => x.mate r && (x.buffers || !x.answered)))) &&
  (!r.inBuf || (match a.head with | some h => h.same r | none => false))

/-- The request the port sends next (R268). A WbDirty that R271 sends ahead of the read path makes the store buffer go first; while
its head may not be sent, as a fence there may wait for those very reads, the read path goes on (log 22). -/
def State.nextSend (s : State) (port : Nat) (a : AgentPort) : Option PortReq :=
  let head := a.head.filter fun r => s.freeToSend a r
  let w := s.actReg (0x40100 + 4 * port)
  let age := max 1 (fieldN w 8 8)
  let first := age ≤ a.headAge || min 31 (fieldN w 0 6) < (a.held.filter PortReq.buffers).length || (a.held.any fun r => r.urged && r.stage == .buffered)
  let read := a.held.find? fun r => !r.inBuf && s.freeToSend a r
  match (if first then head else none) with
  | some r => some r
  | none =>
    match read with
    | some r => some r
    | none => head

/-! ### Sending (R228, R266, R281, R282) -/

/-- The next number in the order of acceptance (R235, R266); 0: not accepted. -/
def AgentPort.nextOrder (a : AgentPort) : Nat := a.held.foldl (fun n r => max n r.req.seq) 0 + 1

/-- Change one held request. -/
def AgentPort.modReq (a : AgentPort) (r : PortReq) (f : PortReq → PortReq) : AgentPort :=
  { a with held := a.held.map fun x => if x.same r then f x else x }

/-- A response the port makes itself. -/
def portRsp (r : PortReq) (k : ARspKind) (data : Option Line) (poison : Bool) : ARsp :=
  ARsp.mk 0 k (BitVec.ofNat 7 r.req.tag) r.agent r.thread r.req.line data poison false false false false false false

/-- The port answers a request itself, in its turn (R235, R236, R270, R282). -/
def AgentPort.answerSelf (a : AgentPort) (r : PortReq) (k : ARspKind) (data : Option Line) (poison : Bool) : AgentPort :=
  let n := a.nextOrder
  a.modReq r fun x => { x with stage := .received, rsp := some (portRsp r k data poison), req := { x.req with seq := n } }

/-- The thread of a held request. -/
def PortReq.thr (r : PortReq) (port : Nat) : ThreadId := ⟨port, r.agent, r.thread⟩

/-- The granule in a thread's reservation register. -/
def AgentPort.resOf (a : AgentPort) (t : ThreadId) : Option LineAddr := (a.resv.find? fun x => x.1 == t).map (·.2)

/-- Clear the reservation registers of threads. -/
def AgentPort.clearRes (a : AgentPort) (p : ThreadId → Bool) : AgentPort := { a with resv := a.resv.filter fun x => !p x.1 }

/-- Count an error of the port (R236, R241); 0 class field, 1 configuration, 2 kept copy, 3 refused request. -/
def AgentPort.err (a : AgentPort) (i : Nat) : AgentPort := { a with errs := a.errs.modify i satInc }

/-- Send a request onto the board mesh: accepted in the order of sending. -/
def State.sendReq (s : State) (port : Nat) (r : PortReq) (useK home : Bool) : State :=
  let t := r.thr port
  let age (s : State) : State := if r.inBuf then s.modAgentPort port fun a => { a with headAge := 0 } else s
  if r.req.kind == .fence then
    let flit (p : Nat) : MeshMsg :=
      { meshMsg (.agent port) (.slice p) 0x19 .p 0 r.req.tag with peer := 4 * port + r.agent, kpri := false }
    age ((s.serving.foldl (fun s p => s.meshSend (flit p)) s).modAgentPort port fun a =>
      let n := a.nextOrder
      a.modReq r fun x => { x with stage := .sent, fenceWait := s.serving, req := { x.req with seq := n } })
  else if r.req.kind == .wrCond && (s.agentPort port).bind (fun a => a.resOf t) != some r.req.line then
    age (s.modAgentPort port fun a => (a.clearRes fun x => x == t).answerSelf r .result none false)
  else if s.lineLost r.req.line then age (s.modAgentPort port fun a => a.answerSelf r (.error 0b011) none false)
  else match s.sendTo r.req with
    | none => s
    | some p =>
      let go (a : AgentPort) : AgentPort :=
        let n := a.nextOrder
        let a1 := a.modReq r fun x => { x with stage := .sent, urged := false, req := { x.req with seq := n } }
        match r.req.kind with
        | .rdRes => { a1.clearRes (fun x => x == t) with resv := (a1.clearRes fun x => x == t).resv ++ [(t, r.req.line)] }
        | .wrCond => a1.clearRes fun x => x == t
        | _ => a1
      (age (s.modAgentPort port go)).arriveBy p { r.req with withK := useK } home

/-- The youngest unsent WbDirty of an agent for a line (R270). -/
def AgentPort.ownWb (a : AgentPort) (g : Nat) (l : LineAddr) : Option PortReq :=
  (a.held.filter fun x => x.agent == g && x.req.kind == .wbDirty && x.req.line == l && x.stage == .buffered).getLast?

/-- The WbDirty from whose data the port answers an RdCur taken after it (R270). -/
def AgentPort.selfData (a : AgentPort) (r : PortReq) : Option PortReq :=
  if r.req.kind == .rdCur && !r.device then a.ownWb r.agent r.req.line else none

/-- The oldest RdCur that the port answers from its own data now: one that no earlier request of its thread holds (R274, R277). -/
def AgentPort.selfReady (a : AgentPort) : Option (PortReq × PortReq) :=
  a.held.findSome? fun r =>
    let b := a.before r
    if r.stage == .buffered && !(b.any fun x => x.blocks r) then ({ a with held := b }.selfData r).map fun w => (r, w) else none

/-- The head of the store buffer waits to be sent, and grows older (R268). -/
def AgentPort.ageHead (a : AgentPort) : AgentPort :=
  match a.head with
  | some h => if h.stage == .buffered then { a with headAge := satIncN 255 a.headAge } else a
  | none => a

/-- A port's turn to send (R268): an RdCur that a fence or a device-type request no longer holds is answered from the port's own
data (R270); else one request is sent, or the head of the store buffer grows older. -/
def State.portSend (s : State) (port : Nat) (useK home : Bool) : State :=
  match s.agentPort port with
  | none => s
  | some a =>
    if s.variant.agents ≤ port || s.pwr.phase == .p2 then s
    else match a.selfReady with
      | some (r, w) => s.modAgentPort port fun x => x.answerSelf r .gntCur (some w.req.data) w.req.poison
      | none =>
        match s.nextSend port a with
        | none => s.modAgentPort port AgentPort.ageHead
        | some r =>
          let s1 := s.sendReq port r useK home
          if r.inBuf then s1 else s1.modAgentPort port AgentPort.ageHead

/-! ### Taking (R226, R228 to R230, R236, R266, R267, R270) -/

/-- The agent may present a request now: the block serves and the port takes requests (R381, R390, R399). -/
def State.agentTakes (s : State) (port : Nat) (a : AgentPort) (k : Option Inp) : Bool :=
  port < s.variant.agents && s.gl.serving && !a.stopped && s.pwr.phase == .p0 && !s.pwr.warm &&
  (s.eg.pstate == .normal || s.eg.pstate == .ride) &&
  (!s.pwr.gpf1 || k == some .wbDirty || k == some .evictClean)

/-- A request goes through the store buffer (R266). -/
def bufPath (k : Inp) (aop : BitVec 4) (device : Bool) : Bool :=
  !device && (k == .wbDirty || k == .atomicOp || k == .wrCond || (k == .fence && aop != 2))

/-- The held form of an agent request. -/
def State.portReqOf (s : State) (k : Inp) (m : AgentMsg) (data : Line) (poison : Bool) : PortReq :=
  let dev := k != .fence && s.isDevice m.addr
  { req := { kind := k, src := .agent m.port m.agent.toNat m.thread.toNat, tag := m.tag.toNat, line := lineOf m.addr, off := offOf m.addr,
             mv := .i, hdmH := s.isHdmH (pageOf (lineOf m.addr)), ownCls := agentClass m.cls, cls := .p, data := data,
             be := BitVec.allOnes 64, poison := poison, size := m.size, aop := m.aop, withK := false, mig := none, seq := 0 },
    agent := m.agent.toNat, thread := m.thread.toNat, inBuf := bufPath k m.aop dev, device := dev, stage := .buffered, fenceWait := [],
    rsp := none, fwdData := none, discard := false, urged := false }

/-- A request that an agent presents: taken with one of its credits, refused by the port, or answered from its own buffered
WbDirty (R270). With `reach` past the port it is sent at once if it is the port's next request. -/
def State.agentRequest (s : State) (k0 : Inp) (m : AgentMsg) (data : Line) (poison : Bool) : State :=
  let g := m.agent.toNat
  match s.agentPort m.port with
  | none => s
  | some a =>
    let silent := bitAt a.silent g
    let refusal := s.agentRefusal m silent
    let k := (opcOf m.opc).getD k0
    if s.walkFailed && m.port < s.variant.agents then
      let r := { s.portReqOf k m data poison with inBuf := false }
      s.modAgentPort m.port fun a => ({ a with held := a.held ++ [r] }).answerSelf r (.error Config.setupErr) none false
    else if !s.agentTakes m.port a (opcOf m.opc) then s
    else if (!silent && !s.agentOn m.port g) || a.credits g = 0 then s
    else
      let r := s.portReqOf k m data poison
      let cls (a : AgentPort) : AgentPort := if 5 ≤ m.cls.toNat then a.err 0 else a
      match refusal with
      | some c =>
        s.modAgentPort m.port fun a => ({ (cls a).err 3 with held := a.held ++ [{ r with inBuf := false }] }).answerSelf { r with inBuf := false } (.error c) none false
      | none =>
        if r.inBuf && 32 ≤ (a.held.filter PortReq.buffers).length then s
        else
          let add (a : AgentPort) : AgentPort := { cls a with held := a.held ++ [r] }
          match (if a.held.any fun x => x.blocks r then none else a.selfData r) with
          | some w => s.modAgentPort m.port fun a => (add a).answerSelf r .gntCur (some w.req.data) w.req.poison
          | none =>
            let s1 := s.modAgentPort m.port add
            if m.reach == .port then s1
            else match (s1.agentPort m.port).bind fun a => s1.nextSend m.port a with
              | some n => if n.same r then s1.sendReq m.port n m.useK (m.reach == .home) else s1
              | none => s1

/-! ### Fences (R216 F9, R232, R276) -/

/-- A message is a response to a thread of an agent port. -/
def OutMsg.toThread (m : OutMsg) (t : ThreadId) : Bool :=
  match m with
  | .agent p r => p == t.port && r.agent == t.agent && r.thread == t.thread
  | _ => false

/-- A write or atomic of the thread in the slice has not sent its completion. -/
def Slice.threadWrites (sl : Slice) (t : ThreadId) : Bool :=
  let mine (q : Req) : Bool := q.kind.writes && q.src.thread == some t
  (sl.arb.inputs.any fun i => i.waiting.any mine) || (sl.hold.any fun h => mine h.req) ||
  (sl.trk.any fun k => (mine k.req && !k.committed && k.st != .lrW && k.st != .wbx) ||
    (k.held.any fun h => h.msg.toThread t) ||
    (k.inq.any fun m => match m.req with | some q => mine q | none => false) ||
    (match k.stall with | some x => (match x.msg.req with | some q => mine q | none => mine k.req) | none => false))

/-- The oldest fence of a thread that a slice has still to answer: one that it has not answered already (R232). -/
def AgentPort.fenceOf (a : AgentPort) (p : Nat) (t : ThreadId) : Option PortReq :=
  a.held.find? fun r =>
    r.req.kind == .fence && r.stage == .sent && r.thr t.port == t && r.fenceWait.contains p &&
    !(a.inbound.any fun x => x.phys == p && x.agent == r.agent && x.tag.toNat == r.req.tag)

/-- A slice takes a Fence that a port has sent it. -/
def State.fenceAt (s : State) (p : Nat) (t : ThreadId) : State :=
  match s.slice p, s.agentPort t.port with
  | some sl, some a =>
    if sl.live && (a.fenceOf p t).isSome && !sl.dir.fences.contains t then
      s.modSlice p fun x => { x with dir := { x.dir with fences := x.dir.fences ++ [t] } }
    else s
  | _, _ => s

/-- A slice answers a pending Fence once the thread's earlier writes have sent their completions, and no replay into it is
under way. -/
def State.fenceDone (s : State) (p : Nat) (t : ThreadId) : State :=
  match s.slice p, s.agentPort t.port with
  | some sl, some a =>
    if !sl.live || sl.ident.adoptStall || !sl.dir.fences.contains t || sl.threadWrites t then s
    else
      let s1 := s.modSlice p fun x => { x with dir := { x.dir with fences := x.dir.fences.filter fun y => y != t } }
      match a.fenceOf p t with
      | some r => s1.putARsp t.port (ARsp.mk p .cmp (BitVec.ofNat 7 r.req.tag) t.agent t.thread 0 none false false false false false false false) true
      | none => s1
  | _, _ => s

/-! ### Responses (R235, R237, R238, R257, R291) -/

/-- A response reaches its reorder entry. -/
def PortReq.take (x : PortReq) (p : Nat) (r : ARsp) : PortReq :=
  if x.req.kind == .fence then
    let w := x.fenceWait.filter fun y => y != p
    { x with fenceWait := w, stage := if w.isEmpty then .received else x.stage, rsp := if w.isEmpty then some r else none }
  else { x with stage := .received, rsp := some r }

/-- The oldest response of a slice to a port arrives (R237, R238). -/
def State.rspArrives (s : State) (p port : Nat) : State :=
  match s.agentPort port with
  | none => s
  | some a =>
    match a.inbound.find? fun r => r.phys == p with
    | none => s
    | some r =>
      s.modAgentPort port fun a =>
        { a with inbound := eraseFirst (fun x => x.phys == p) a.inbound, recv := a.recv.modify p (· + 1),
                 held := a.held.map fun x => if x.agent == r.agent && x.req.tag == r.tag.toNat && x.stage == .sent then x.take p r else x }

/-- The response as delivered: forwarded data joined to its grant (R257), an error counted by the home's code. -/
def PortReq.final (x : PortReq) : Option ARsp :=
  match x.rsp with
  | none => none
  | some r =>
    if !r.fwd then some r
    else match x.fwdData with
      | some (d, dirty, po) => some { r with data := some d, fwded := true, dirty := dirty, poison := po }
      | none => none

/-- The oldest accepted request of a thread, in the order of R235. -/
def AgentPort.turn (a : AgentPort) (t : ThreadId) : Option PortReq :=
  let mine := a.held.filter fun x => x.thr t.port == t && x.req.seq != 0
  mine.find? fun x => mine.all fun y => x.req.seq ≤ y.req.seq

/-- Deliver a thread's next response and free its entry; a discarded one is not delivered (R235, R291). -/
def State.deliver (s : State) (t : ThreadId) : State :=
  match (s.agentPort t.port).bind fun a => a.turn t with
  | none => s
  | some x =>
    match x.final with
    | none => s
    | some r =>
      let f (a : AgentPort) : AgentPort :=
        { a with held := a.held.filter fun y => !y.same x, lastRsp := if x.discard then a.lastRsp else some r }
      (s.modAgentPort t.port f).entryFreed t.port x.agent

/-- Forwarded data reaches the requester's port (R257). -/
def State.fwdArrives (s : State) (port g : Nat) (l : LineAddr) (data : Line) (dirty poison : Bool) : State :=
  let flit (f : RingFlit) : Bool := match f with | .fwdData _ p a n _ _ _ _ _ => p == port && a == g && n == l | .answer .. => false
  let x : Line × Bool × Bool := match s.ring.find? flit with
    | some (.fwdData _ _ _ _ d di po _ _) => (d, di, po)
    | _ => (data, dirty, poison)
  let s1 := s.ringEject flit
  match s1.agentPort port with
  | none => s1
  | some a =>
    let mine (r : PortReq) : Bool :=
      r.agent == g && r.req.line == l && r.fwdData.isNone && (r.stage == .sent || (match r.rsp with | some y => y.fwd | none => false)) &&
      (r.req.kind == .rdShared || r.req.kind == .rdOwn || r.req.kind == .rdCur || r.req.kind == .rdRes || r.req.kind == .atomicOp || r.req.kind == .upgrade)
    match a.held.find? mine with
    | some r => s1.modAgentPort port fun a => a.modReq r fun y => { y with fwdData := some x }
    | none => (s1.modAgentPort port fun a => { a with fwdDrop := a.fwdDrop + 1 }).logEv 0x26 0 srcAgent port 0

/-! ### Meanings -/

/-- RDSHARED (R205). -/
def execRdShared (a : AgentMsg) (s : State) : Host.Outcome State Fault Refusal := .next (s.agentRequest .rdShared a 0 false)
/-- RDOWN (R205). -/
def execRdOwn (a : AgentMsg) (s : State) : Host.Outcome State Fault Refusal := .next (s.agentRequest .rdOwn a 0 false)
/-- RDCUR (R205). -/
def execRdCur (a : AgentMsg) (s : State) : Host.Outcome State Fault Refusal := .next (s.agentRequest .rdCur a 0 false)
/-- UPGRADE (R205). -/
def execUpgrade (a : AgentMsg) (s : State) : Host.Outcome State Fault Refusal := .next (s.agentRequest .upgrade a 0 false)
/-- WBDIRTY (R205). -/
def execWbDirty (a : AgentMsg) (data : Line) (poison : Bool) (s : State) : Host.Outcome State Fault Refusal :=
  .next (s.agentRequest .wbDirty a data poison)
/-- EVICTCLEAN (R205). -/
def execEvictClean (a : AgentMsg) (s : State) : Host.Outcome State Fault Refusal := .next (s.agentRequest .evictClean a 0 false)
/-- ATOMICOP (R258). -/
def execAtomicOp (a : AgentMsg) (data : Line) (s : State) : Host.Outcome State Fault Refusal := .next (s.agentRequest .atomicOp a data false)
/-- RDRES (R280). -/
def execRdRes (a : AgentMsg) (s : State) : Host.Outcome State Fault Refusal := .next (s.agentRequest .rdRes a 0 false)
/-- WRCOND (R282). -/
def execWrCond (a : AgentMsg) (data : Line) (s : State) : Host.Outcome State Fault Refusal := .next (s.agentRequest .wrCond a data false)
/-- FENCE (R274). -/
def execFence (a : AgentMsg) (s : State) : Host.Outcome State Fault Refusal := .next (s.agentRequest .fence a 0 false)
/-- AGENT_PORT_SEND (R268). -/
def execAgentPortSend (port : Nat) (useK : Bool) (reach : Reach) (s : State) : Host.Outcome State Fault Refusal :=
  .next (s.portSend port useK (reach == .home))
/-- FENCE_AT_SLICE (R232). -/
def execFenceAtSlice (phys : Nat) (t : ThreadId) (s : State) : Host.Outcome State Fault Refusal := .next (s.fenceAt phys t)
/-- FENCE_ANSWER (R216). -/
def execFenceAnswer (phys : Nat) (t : ThreadId) (s : State) : Host.Outcome State Fault Refusal := .next (s.fenceDone phys t)
/-- AGENT_RESPONSE_ARRIVAL (R238). -/
def execAgentResponseArrival (phys port : Nat) (s : State) : Host.Outcome State Fault Refusal := .next (s.rspArrives phys port)
/-- AGENT_RESPONSE_DELIVERY (R235). -/
def execAgentResponseDelivery (t : ThreadId) (s : State) : Host.Outcome State Fault Refusal := .next (s.deliver t)
/-- FORWARDED_DATA_ARRIVAL (R257). -/
def execForwardedDataArrival (port agent : Nat) (line : LineAddr) (data : Line) (dirty poison : Bool) (s : State) :
    Host.Outcome State Fault Refusal := .next (s.fwdArrives port agent line data dirty poison)
/-- THREAD_EXCEPTION (R283, R546). -/
def execThreadException (t : ThreadId) (s : State) : Host.Outcome State Fault Refusal :=
  .next (s.modAgentPort t.port fun a => a.clearRes fun x => x == t)

end Sys2Proof.Machine
end

