-- ==== Sys2Proof/Machine/Host.lean ====
section
/-! DEFINITION. Host ports: requests, answers to back-invalidate snoops, links and host identities (05). -/

namespace Sys2Proof.Machine

open Sys2Proof

/-! ### Requests (R151 to R164) -/

/-- A host port returns credits on M2S Req and RwD: its link is up and the block serves (R381, R399, R45, R503). -/
def State.hostTakes (s : State) (port : Nat) : Bool :=
  s.hostUp port && port < s.variant.hosts && s.gl.serving && !s.eg.drainReq && s.pwr.phase == .p0 && !s.pwr.warm &&
  (s.eg.pstate == .normal || s.eg.pstate == .ride)

/-- The counter of HP_ERR for a condition of R163: a lost range counts with the address. -/
def errCounter (cond : Nat) : Nat := match cond with | 0 => 0 | 1 => 1 | 2 => 2 | 3 => 2 | 4 => 3 | _ => 0

/-- Count an error condition of a port, and log its first of the move (R164). -/
def State.hostErr (s : State) (port cond : Nat) : State :=
  match s.hostPort port with
  | none => s
  | some hp =>
    let s1 := s.modHostPort port fun h =>
      { h with errs := h.errs.modify (errCounter cond) satInc, logged := if h.logged.contains cond then h.logged else h.logged ++ [cond] }
    if hp.logged.contains cond then s1 else s1.logEv 0x20 0 srcHost port (BitVec.ofNat 64 cond)

/-- The request record of a host message. In an HDM-H window a message is served as with MetaValue I, and MemRdData as
MemRd (R162). -/
def State.hostReqOf (s : State) (k : Inp) (m : HostMsg) (h : Nat) (data : Line) (be : BitVec 64) (poison : Bool) : Req :=
  let l := lineOf m.addr
  let hh := s.isHdmH (pageOf l)
  { kind := if hh && k == .memRdData then .memRd else k, src := .host m.port h, tag := m.tag.toNat, line := l, off := 0,
    mv := if hh then .i else (metaOf m.metaField m.metaValue).getD .i, hdmH := hh, ownCls := none, cls := .p, data := data,
    be := be, poison := poison, size := 0, aop := 0, withK := m.useK, mig := none, seq := 0 }

/-- A host request at its port (R151 to R164): refused with the port's error response, or passed to its home. Messages of
one HID for one line keep their order (R156). -/
def State.hostRequest (s : State) (k : Inp) (m : HostMsg) (data : Line) (be : BitVec 64) (poison : Bool) : State :=
  if s.walkFailed && s.hostUp m.port && m.port < s.variant.hosts then
    s.hostError m.port ((s.hidOf m.port m.ldid m.spid).getD 64) k m.tag.toNat (lineOf m.addr)
  else if !s.hostTakes m.port then s
  else match s.hostRefusal k m with
    | some c =>
      let h := (s.hidOf m.port m.ldid m.spid).getD 64
      (s.hostErr m.port c).hostError m.port h k m.tag.toNat (lineOf m.addr)
    | none =>
      match s.hidOf m.port m.ldid m.spid, s.hostPort m.port with
      | some h, some hp =>
        let q := s.hostReqOf k m h data be poison
        let keep := m.reach == .port || (hp.waiting.any fun x => x.line == q.line)
        match (if keep then none else s.sendTo q) with
        | some p => s.arriveBy p q (m.reach == .home)
        | none =>
          -- MemSpecRd may be discarded at any time (R161).
          if k == .memSpecRd then s else s.modHostPort m.port fun x => { x with waiting := x.waiting ++ [q] }
      | _, _ => s

/-- A BIRsp that matches no outstanding BISnp (R167, F3). -/
def State.unmatched (s : State) (port h : Nat) (l : LineAddr) : State :=
  (s.modHostPort port fun x => { x with biUnmatched := satInc x.biUnmatched }).logEv 0x21 0 srcHost h (addrDetail l 0)

/-- An unsupported opcode (R151, R163); on the BIRsp channel it is also an answer that matches no BISnp (R167). -/
def State.hostOpcode (s : State) (m : HostMsg) (c : M2SChan) : State :=
  match c with
  | .birsp =>
    if !s.hostUp m.port || s.eg.pstate == .save || s.eg.pstate == .saved then s
    else (s.hostErr m.port 2).unmatched m.port ((s.hidOf m.port m.ldid m.spid).getD 64) (lineOf m.addr)
  | .req => go s
  | .rwd => go s
where
  /-- The error response of the channel: Cmp. -/
  go (s : State) : State :=
    if s.walkFailed && s.hostUp m.port && m.port < s.variant.hosts then
      s.hostError m.port ((s.hidOf m.port m.ldid m.spid).getD 64) .memInv m.tag.toNat (lineOf m.addr)
    else if !s.hostTakes m.port then s
    else
      let c := if !s.addrOk m.addr then 0 else if (s.hidOf m.port m.ldid m.spid).isNone then 1 else 2
      (s.hostErr m.port c).hostError m.port ((s.hidOf m.port m.ldid m.spid).getD 64) .memInv m.tag.toNat (lineOf m.addr)

/-! ### Answers to BISnp (R165 to R169) -/

/-- The answer is legal for the snoop (R165). -/
def legalAns (snp : HSnp) (ans : Inp) : Bool :=
  match ans, snp with
  | .biRspI, _ => true
  | .biRspS, .inv => false
  | .biRspS, _ => true
  | .biRspE, .cur => true
  | _, _ => false

/-- The tracker of a slice that waits for a HID's answer for a line, and the snoop. -/
def Slice.snooped (sl : Slice) (h : Nat) (l : LineAddr) : Option (Tracker × HSnpOut) :=
  sl.trk.findSome? fun t => (t.hsnp.find? fun x => x.hid == h && x.line == l).map fun x => (t, x)

/-- One answer of a host for one line (R165, R167): presented to the tracker that snooped the HID; an answer that is not
legal fences the HID and counts as BIRspI. -/
def State.hostAnswer (s : State) (port h : Nat) (l : LineAddr) (ans : Inp) : State :=
  match s.answerSlice l with
  | none => s.unmatched port h l
  | some p =>
    let s := s.meshSend { meshMsg (.host port) (.slice p) ans.code .p l 0 with peer := h }
    let msg (t : Tracker) (x : HSnpOut) : InMsg :=
      { inp := if legalAns x.kind ans then ans else .biRspI, vic := t.isVic l, line := l, who := some (.host port h),
        illegal := !legalAns x.kind ans, ownerAns := x.owner, hKind := some x.kind }
    match (s.slice p).bind fun sl => sl.snooped h l with
    | none =>
      (match s.recordFor p fun t => t.hsnp.any fun x => x.hid == h && x.line == l with
       | some t =>
         (match t.hsnp.find? fun x => x.hid == h && x.line == l with
          | some x =>
            let s1 := (s.count p 0x31 (some t.req.cls)).earlyAnswer p t (msg t x)
            (if legalAns x.kind ans then s1 else s1.markFenced h 0).settleIn p
          | none => s)
       | none => (s.unmatched port h l).count p 0x37 none)
    | some (t, x) =>
      let s1 := (s.count p 0x31 (some t.req.cls)).feed p t.num (msg t x)
      (if legalAns x.kind ans then s1 else s1.markFenced h 0).settleIn p

/-- A BIRsp at its port; one whose sender matches no HID is unmatched (R163, R167). In SAVE ports withhold credits on
every channel (R383). -/
def State.birsp (s : State) (r : BiRsp) (ans : Inp) (lines : Nat) : State :=
  if !s.hostUp r.port || s.eg.pstate == .save || s.eg.pstate == .saved then s
  else match s.hidOf r.port r.ldid r.spid with
    | none => s.unmatched r.port 64 r.line
    | some h =>
      let first : LineAddr := r.line &&& ~~~(BitVec.ofNat 42 (lines - 1))
      ((List.range lines).map fun i => first + BitVec.ofNat 42 i).foldl (fun s l => s.hostAnswer r.port h l ans)
        s

/-- Lines of a block form (R166). -/
def blkLines (four : Bool) : Nat := if four then 4 else 2

/-! ### Links and identities (R44, R177 to R185) -/

/-- A port's link comes up; its declared HIDs bind (R177). -/
def State.linkUp (s : State) (port : Nat) : State :=
  if s.variant.hosts ≤ port then s
  else
    let s1 := s.modHostPort port fun h => { h with linkUp := true, inReset := false }
    let mine := (List.range s.hids.length).filter fun h => match s.hid h with | some x => bitAt x.portMask port | none => false
    mine.foldl State.bindHid s1

/-- hp_rst_n of a port (R44, R178 to R180): buffers and credits go, HIDs may become Absent, undelivered messages are sent
again or queued, each slice's in the order in which it first sent them (R181). A draw that the port's input has won is dead (R99). -/
def State.portReset (s : State) (port : Nat) : State :=
  match s.hostPort port with
  | none => s
  | some hp =>
    if s.variant.hosts ≤ port then s
    else
      let down (h : HostPort) : HostPort :=
        { h with linkUp := false, inReset := true, egress := [], linkDowns := satInc h.linkDowns }
      let credit (sl : Slice) : Slice := sl.modInput port fun i =>
        { i with kcredit := if i.waiting.any fun q => q.withK then i.kcredit else none, wasReset := true }
      let s1 := { s.modHostPort port down with slices := s.slices.map credit }
      let s2 := (List.range s.hids.length).foldl State.unbindHid s1
      ((hp.egress.foldl (fun l m => insOrd m l) []).foldl (fun s m => match m.phys with
        | none => s
        | some p =>
          let s := s.meshSend { meshMsg (.host port) (.slice p) 0x58 .p m.line m.ord with peer := m.hid }
          match s.snoopPort m.hid with
          | some q => s.emitS2M q m
          | none => s.queueReturn m) s2).fenceSettle

/-- The channel of an S2M message. -/
def S2MBody.chan : S2MBody → S2MChan
  | .ndr .. => .ndr
  | .data .. => .drs
  | .snp .. => .biSnp

/-- The oldest message of a channel has been delivered (R179). -/
def State.delivered (s : State) (port : Nat) (c : S2MChan) : State :=
  s.modHostPort port fun h => { h with egress := eraseFirst (fun m => m.body.chan == c) h.egress }

/-- The return window of an Absent HID has ended (R177, R183); it does not run in P2 (R504). -/
def State.windowEnd (s : State) (h : Nat) : State :=
  match s.hid h with
  | some x =>
    if x.st == .absent && s.pwr.phase != .p2 then
      ((s.modHid h fun y => { y with st := .expiring, windowLeft := 0 }).logEv 0x22 1 srcHost h 0).expireHid h
    else s
  | none => s

/-- A Bound HID has left a BISnp unanswered too long (R168); the timeout does not run in P2 (R504). -/
def State.snoopLate (s : State) (h : Nat) : State :=
  match s.hid h with
  | some x =>
    if x.st == .bound && s.pwr.phase != .p2 && (s.slices.any fun sl => !(sl.waitsFor h).isEmpty) then
      (s.markFenced h 1).expireHid h
    else s
  | none => s

/-- The expiry sweep of a HID ends (R177, R183). -/
def State.sweepEnd (s : State) (h : Nat) : State :=
  match s.hid h with
  | some x =>
    if x.st.leaving then
      let s1 := (s.expireHid h).sweepHid h
      s1.modHid h fun y => { y with st := if s1.hidUp h then .bound else .unbound }
    else s
  | none => s

/-! ### Meanings -/

/-- MEMRD (R157). -/
def execMemRd (m : HostMsg) (s : State) : Host.Outcome State Fault Refusal := .next (s.hostRequest .memRd m 0 0 false)
/-- MEMRDDATA (R157). -/
def execMemRdData (m : HostMsg) (s : State) : Host.Outcome State Fault Refusal := .next (s.hostRequest .memRdData m 0 0 false)
/-- MEMSPECRD (R161). -/
def execMemSpecRd (m : HostMsg) (s : State) : Host.Outcome State Fault Refusal := .next (s.hostRequest .memSpecRd m 0 0 false)
/-- MEMINV (R157). -/
def execMemInv (m : HostMsg) (s : State) : Host.Outcome State Fault Refusal := .next (s.hostRequest .memInv m 0 0 false)
/-- MEMINVNT (R160). -/
def execMemInvNT (m : HostMsg) (s : State) : Host.Outcome State Fault Refusal := .next (s.hostRequest .memInvNT m 0 0 false)
/-- MEMCLNEVCT (R157). -/
def execMemClnEvct (m : HostMsg) (s : State) : Host.Outcome State Fault Refusal := .next (s.hostRequest .memClnEvct m 0 0 false)
/-- MEMWR (R157). -/
def execMemWr (m : HostMsg) (data : Line) (poison : Bool) (s : State) : Host.Outcome State Fault Refusal :=
  .next (s.hostRequest .memWr m data (BitVec.allOnes 64) poison)
/-- MEMWRPTL (R159). -/
def execMemWrPtl (m : HostMsg) (data : Line) (be : BitVec 64) (poison : Bool) (s : State) : Host.Outcome State Fault Refusal :=
  .next (s.hostRequest .memWrPtl m data be poison)
/-- BICONFLICT (R174). -/
def execBiConflict (m : HostMsg) (s : State) : Host.Outcome State Fault Refusal := .next (s.hostRequest .biConflict m 0 0 false)
/-- HOST_UNSUPPORTED_OPCODE (R151, R163). -/
def execHostUnsupported (m : HostMsg) (chan : M2SChan) (s : State) : Host.Outcome State Fault Refusal := .next (s.hostOpcode m chan)
/-- BIRSPI (R165). -/
def execBiRspI (r : BiRsp) (s : State) : Host.Outcome State Fault Refusal := .next (s.birsp r .biRspI 1)
/-- BIRSPS (R165). -/
def execBiRspS (r : BiRsp) (s : State) : Host.Outcome State Fault Refusal := .next (s.birsp r .biRspS 1)
/-- BIRSPE (R165). -/
def execBiRspE (r : BiRsp) (s : State) : Host.Outcome State Fault Refusal := .next (s.birsp r .biRspE 1)
/-- BIRSPIBLK (R166). -/
def execBiRspIBlk (r : BiRsp) (four : Bool) (s : State) : Host.Outcome State Fault Refusal := .next (s.birsp r .biRspI (blkLines four))
/-- BIRSPSBLK (R166). -/
def execBiRspSBlk (r : BiRsp) (four : Bool) (s : State) : Host.Outcome State Fault Refusal := .next (s.birsp r .biRspS (blkLines four))
/-- BIRSPEBLK (R166). -/
def execBiRspEBlk (r : BiRsp) (four : Bool) (s : State) : Host.Outcome State Fault Refusal := .next (s.birsp r .biRspE (blkLines four))
/-- HOST_LINK_UP (R177). -/
def execHostLinkUp (port : Nat) (s : State) : Host.Outcome State Fault Refusal := .next (s.linkUp port)
/-- HOST_PORT_RESET (R44). -/
def execHostPortReset (port : Nat) (s : State) : Host.Outcome State Fault Refusal := .next (s.portReset port)
/-- S2M_DELIVERED (R179). -/
def execS2mDelivered (port : Nat) (chan : S2MChan) (s : State) : Host.Outcome State Fault Refusal := .next (s.delivered port chan)
/-- RETURN_WINDOW_EXPIRY (R177). -/
def execReturnWindowExpiry (hid : Nat) (s : State) : Host.Outcome State Fault Refusal := .next (s.windowEnd hid)
/-- HOST_SNOOP_TIMEOUT (R168). -/
def execHostSnoopTimeout (hid : Nat) (s : State) : Host.Outcome State Fault Refusal := .next (s.snoopLate hid)
/-- EXPIRY_SWEEP_END (R184). -/
def execExpirySweepEnd (hid : Nat) (s : State) : Host.Outcome State Fault Refusal := .next (s.sweepEnd hid)

end Sys2Proof.Machine
end

