-- ==== Sys2Proof/Machine/Ring.lean ====
section
/-! DEFINITION. The Rook ring and the agent ports' side of snoops (07 R237 to R257), link and ring faults (12 R406 to R411), block
failure (R430). -/

namespace Sys2Proof.Machine

open Sys2Proof

/-! ### Silent agents (R246, R283, R291) -/

/-- Clear ENABLE of an agent in the active view; its later requests are refused, its outstanding responses discarded, its
reservations lost. -/
def State.silence (s : State) (port g : Nat) : State :=
  let o := 0x40000 + 4 * (4 * port + g)
  let v := setBit (s.actReg o) 31 false
  let s1 := { s with regs := { s.regs with act := kset o v s.regs.act } }
  let fa (a : AgentPort) : AgentPort :=
    { (a.clearRes fun t => t.agent == g) with
      silent := setBit a.silent g true, flush := setBit a.flush g false,
      held := a.held.map fun r => if r.agent == g then { r with discard := true } else r }
  let fs (sl : Slice) : Slice :=
    { sl with dir := { sl.dir with monitors := sl.dir.monitors.filter fun m => !(m.thread.port == port && m.thread.agent == g) } }
  let s2 := s1.modAgentPort port fa
  ({ s2 with slices := s2.slices.map fs }).logEv 0x24 2 srcAgent (4 * port + g) 0

/-- Every agent of a port is disabled (R406). -/
def State.disablePort (s : State) (p : Nat) : State :=
  if s.variant.agents ≤ p then s else (List.range 4).foldl (fun s g => s.silence p g) s

/-! ### A port and its snoops (R237, R240 to R247, R253, R256, R270, R271) -/

/-- A snoop flit passes a port's stop: copied if the snoop queue has room; removed once every port has it (R253). -/
def State.snoopCopy (s : State) (port p trk : Nat) (l : LineAddr) : State :=
  let mine (f : SnpFlit) : Bool := f.phys == p && f.trk == trk && f.line == l && !bitAt f.dmask port
  match s.agentPort port, s.ringSnoops.find? mine with
  | some a, some f =>
    match (if s.variant.agents ≤ port then none else lowestFree (a.snq.map (·.sq)) 32) with
    | none => s
    | some n =>
      let f1 := { f with dmask := setBit f.dmask port true }
      let upd (l : List SnpFlit) : List SnpFlit := l.takeWhile (fun x => !mine x) ++
        (if f1.dmask = 0xFF then [] else [f1]) ++ (l.dropWhile fun x => !mine x).drop 1
      ({ s with ringSnoops := upd s.ringSnoops }.modAgentPort port fun a =>
        { a with snq := a.snq ++ [SnpEnt.mk n f false [] [] none] }).slotFreed (if f1.dmask = 0xFF then some (f.esc, stopOf s.variant true p) else none)
  | _, _ => s

/-- The snoop may be processed (R237). -/
def AgentPort.snoopDue (a : AgentPort) (port : Nat) (f : SnpFlit) : Bool :=
  let d : BitVec 8 := f.counts.getD port 0 - a.recv.getD f.phys 0
  d == 0 || 128 ≤ d.toNat

/-- Send a port's answer to a snoop and keep its header (R240, R409); the queue entry is free. -/
def State.sendAns (s : State) (port : Nat) (e : SnpEnt) (k : AnsKind) (data : Line) (poison : Bool) : State :=
  let h : AnsHdr := ⟨e.flit.phys, e.flit.trk, e.flit.line, k⟩
  let f (a : AgentPort) : AgentPort :=
    let l := a.kept ++ [h]
    { a with snq := a.snq.filter fun x => x.sq != e.sq, kept := l.drop (l.length - 32) }
  (s.modAgentPort port f).ringInject (.flit (stopOf s.variant false port) (.answer h port data poison 0 false))

/-- The answers of a snoop combined (R241, R246, R256). -/
def State.combine (s : State) (port : Nat) (e : SnpEnt) : State :=
  let f := e.flit
  let all := e.answers ++ (match e.own with | some o => [o] | none => [])
  let silent (g : Nat) : Bool := match s.agentPort port with | some a => bitAt a.silent g | none => false
  let lostData := e.own.filter fun x => x.dirty && x.poison && silent x.agent
  let got := match e.answers.find? fun x => x.data.isSome && x.dirty with
    | some x => some x
    | none => e.answers.find? fun x => x.data.isSome
  let fwd : Bool := match got with | some x => f.fwdOk && f.fwdPort == port && (!x.dirty || f.kind == .inv) | none => false
  match lostData with
  | some x => s.sendAns port e .rspWbData (x.data.getD 0) true
  | none =>
    match (if fwd then got else none) with
    | some x =>
      (s.sendAns port e .rspFwd 0 false).ringInject (.flit (stopOf s.variant false port)
        (.fwdData port f.reqPort f.reqAgent f.line (x.data.getD 0) x.dirty x.poison 0 false))
    | none =>
      match all.find? fun x => x.dirty with
      | some x => s.sendAns port e .rspWbData (x.data.getD 0) x.poison
      | none =>
        if f.kind != .inv && (e.answers.any fun x => x.shared) then s.sendAns port e .rspS 0 false
        else s.sendAns port e .rspI 0 false

/-- Answer a snoop whose agents have all answered. -/
def State.combineIf (s : State) (port sq : Nat) : State :=
  match (s.agentPort port).bind fun a => a.snq.find? fun e => e.sq == sq with
  | some e => if e.taken && e.asked.isEmpty then s.combine port e else s
  | none => s

/-- The response is a grant (R244). -/
def ARspKind.grant : ARspKind → Bool
  | .gntS => true
  | .gntX => true
  | .gntCur => true
  | .gntUp => true
  | .cmp => false
  | .result => false
  | .error _ => false

/-- The request's grant for a line is held at the port (R244): received from a slice and not delivered. -/
def PortReq.grantFor (r : PortReq) (l : LineAddr) : Bool :=
  r.req.line == l && r.stage == .received && (match r.rsp with | some x => x.kind.grant | none => false)

/-- A WbDirty of the port for the line is outstanding (R247), sent or still in the store buffer (R271). -/
def PortReq.wbFor (r : PortReq) (l : LineAddr) : Bool :=
  r.req.kind == .wbDirty && r.req.line == l && (r.stage == .sent || (r.stage == .buffered && r.inBuf))

/-- Process a queued snoop (R240, R244, R247, R271, R409). -/
def State.portSnoop (s : State) (port sq : Nat) : State :=
  match s.agentPort port with
  | none => s
  | some a =>
    match a.snq.find? fun e => e.sq == sq && !e.taken with
    | none => s
    | some e =>
      let f := e.flit
      let l := f.line
      if !a.snoopDue port f then s
      else match (if f.retry then a.kept.reverse.find? fun h => h.phys == f.phys && h.trk == f.trk else none) with
        | some h =>
          let drop (a : AgentPort) : AgentPort := { a with snq := a.snq.filter fun x => x.sq != sq }
          (s.modAgentPort port drop).ringInject (.flit (stopOf s.variant false port) (.answer h port 0 (h.kind == .rspWbData) 0 false))
        | none =>
          if a.held.any fun r => r.wbFor l then
            let urge (r : PortReq) : PortReq := if r.wbFor l && r.stage == .buffered then { r with urged := true } else r
            (s.modAgentPort port fun a => { a with held := a.held.map urge }).sendAns port e .rspIW 0 false
          else
            -- A grant that an earlier snoop took (LOST) has no part left to give (log 22).
            let grants := a.held.filter fun r => r.grantFor l && !(match r.rsp with | some x => x.lost | none => false)
            -- R244: a held grant that waits for forwarded data is waited for.
            if grants.any fun r => (match r.rsp with | some x => x.fwd | none => false) && r.fwdData.isNone then s
            else
              let own := grants.findSome? fun r => match r.final with
                | some x => if x.dirty then some (SnpAns.mk r.agent false x.data true x.poison) else none
                | none => none
              let evicting (g : Nat) : Bool := a.held.any fun r => r.agent == g && r.req.kind == .evictClean && r.req.line == l && r.stage == .sent
              let asked := (List.range 4).filter fun g =>
                s.agentOn port g && s.agentCaching port g && !(f.reqag && f.reqPort == port && f.reqAgent == g) && !evicting g
              let lost (r : PortReq) : PortReq := if r.grantFor l then { r with rsp := r.rsp.map fun x => { x with lost := true } } else r
              let e1 : SnpEnt := { e with taken := true, asked := asked, own := own }
              (s.modAgentPort port fun a =>
                { a with held := a.held.map lost, snq := a.snq.map fun x => if x.sq == sq then e1 else x }).combineIf port sq

/-- An agent's answer on ap_snp (R242, R243): to Flush, or to a presented snoop. -/
def State.agentAnswers (s : State) (port : Nat) (h : BitVec 64) (data : Line) : State :=
  let g := fieldN h 57 2
  let sq := fieldN h 52 5
  if bitAt h 51 then s.modAgentPort port fun a => { a with flush := setBit a.flush g false }
  else match (s.agentPort port).bind fun a => a.snq.find? fun e => e.sq == sq && e.taken && e.asked.contains g with
    | none => s
    | some e =>
      let f := e.flit
      let fin := fieldN h 62 2
      let bad := 2 ≤ fin || (fin = 1 && f.kind == .inv)
      let dirty := bitAt h 61 && bitAt h 60
      let req := f.fwdOk && f.fwdPort == port
      let ans : SnpAns := ⟨g, fin = 1 && !bad, if bitAt h 61 && (dirty || req) then some data else none, dirty, bitAt h 59⟩
      let put (x : SnpEnt) : SnpEnt :=
        if x.sq == sq then { x with asked := x.asked.filter fun y => y != g, answers := x.answers ++ [ans] } else x
      let s1 := s.modAgentPort port fun a => { a with snq := a.snq.map put }
      let s2 := if bad then (s1.modAgentPort port fun a => a.err 2).logEv 0x25 1 srcAgent (4 * port + g) (addrDetail f.line 0) else s1
      s2.combineIf port sq

/-- An agent has not answered in time (R246): the port answers for it and disables it. -/
def State.agentSilent (s : State) (port g : Nat) : State :=
  match s.agentPort port with
  | none => s
  | some a =>
    let mine := a.snq.filter fun e => e.asked.contains g
    if (mine.isEmpty && !bitAt a.flush g) || 4 ≤ g then s
    else
      let put (e : SnpEnt) : SnpEnt :=
        if e.asked.contains g then
          { e with asked := e.asked.filter fun y => y != g,
                   own := if e.flit.fwdPort == port then some ⟨g, false, some 0, true, true⟩ else e.own }
        else e
      mine.foldl (fun s e => s.combineIf port e.sq) ((s.modAgentPort port fun a => { a with snq := a.snq.map put }).silence port g)

/-! ### Answers at the home (R208, R211, R254, R409, R429) -/

/-- The tracker of a slice that awaits a port's answer for a line, under a tracker number; an answer redirected
after a castling finds its tracker by the line, since a replayed record may have another number (R426). -/
def Slice.awaits (sl : Slice) (trk : Option Nat) (port : Nat) (l : LineAddr) : Option (Tracker × ASnpOut) :=
  sl.trk.findSome? fun t => if trk.isNone || some t.num == trk then (t.asnp.find? fun x => x.port == port && x.line == l).map fun x => (t, x) else none

/-- Count a discarded flit (R428). -/
def State.dropFlit (s : State) : State := { s with fb := { s.fb with flitDiscard := satInc s.fb.flitDiscard } }

/-- An agent port's answer reaches the slice it is addressed to, or the redirection target (R254, R414); one that matches no
outstanding snoop is discarded, counted and logged (F5). The flit on the ring gives its data, where there is one. -/
def State.agentAnswer (s : State) (k : AnsKind) (inp : Inp) (r : AgRsp) (data : Line) (poison : Bool) : State :=
  let flit (f : RingFlit) : Bool := match f with
    | .answer h q _ _ _ _ => h == ⟨r.phys, r.trk, r.line, k⟩ && q == r.port
    | .fwdData .. => false
  let d : Line × Bool := match s.ring.find? flit with | some (.answer _ _ d po _ _) => (d, po) | _ => (data, poison)
  let s0 := s.ringEject flit
  let p := match s.cast.redirect.find? fun x => x.1 == r.phys with | some x => x.2 | none => r.phys
  match s0.slice p with
  | none => s0
  | some sl =>
    if sl.ident.isolated then s0.dropFlit
    else if !sl.live then s0
    else
      let msg (t : Tracker) (x : ASnpOut) : InMsg :=
        { inp := inp, vic := t.isVic r.line, line := r.line, who := some (.agent r.port 0 0), data := d.1,
          be := BitVec.allOnes 64, poison := d.2, aKind := some x.kind }
      let s1 := if k == .rspIW then s0.count p 0x34 none else if k == .rspFwd then s0.count p 0x35 none else s0
      match sl.awaits (if p = r.phys then some r.trk else none) r.port r.line with
      | none =>
        (match if p = r.phys then none else s0.recordFor p fun t => t.asnp.any fun x => x.port == r.port && x.line == r.line with
         | some t =>
           (match t.asnp.find? fun x => x.port == r.port && x.line == r.line with
            | some x => s1.earlyAnswer p t (msg t x)
            | none => s0)
         | none => (s0.count p 0x37 none).logEv 0x28 0 p r.port (addrDetail r.line 0))
      | some (t, x) => (s1.feed p t.num (msg t x)).settleIn p

/-! ### Ring faults (R251, R252, R408, R409) -/

/-- A stop claims the next occupied slot (R251). -/
def State.claim (s : State) (stop : Nat) : State :=
  if stop < (ringStops s.variant).length && !s.fb.claims.contains stop then { s with fb := { s.fb with claims := s.fb.claims ++ [stop] } }
  else s

/-- A flit's stop counts its escalation, and logs the first of the move (R252). -/
def State.escalated (s : State) (isSlice : Bool) (n : Nat) : State :=
  let stop := stopOf s.variant isSlice n
  let s1 := if isSlice then s.count n 0x36 none
    else { s with fb := { s.fb with ringEsc := s.fb.ringEsc.modify n satInc } }
  if s1.ev.escLogged.contains stop then s1
  else { s1 with ev := { s1.ev with escLogged := s1.ev.escLogged ++ [stop] } }.logEv 0x27 0 srcRing stop 0

/-- CIRC of a flit reaches 32 (R252): it is marked ESC, and the stop that it is for keeps its next free ejection entry for it. Snoops
are numbered first, then the other flits, in order. -/
def State.escalate (s : State) (i : Nat) : State :=
  let keep (s : State) (stop : Nat) : State := { s with fb := { s.fb with escKeep := s.fb.escKeep ++ [stop] } }
  match s.ringSnoops[i]? with
  | some f =>
    let s1 := { s with ringSnoops := s.ringSnoops.modify i fun x => { x with circ := 32, esc := true } }
    (keep s1 (stopOf s.variant true f.phys)).escalated true f.phys
  | none =>
    let j := i - s.ringSnoops.length
    match s.ring[j]? with
    | some f =>
      let s1 := keep { s with ring := s.ring.modify j RingFlit.escalate } (f.dst s.variant)
      (match f with
       | .answer h .. => s1.escalated true h.phys
       | .fwdData _ p .. => s1.escalated false p)
    | none => s

/-- A stop sends a ring-loss notice on the board mesh to every slice and agent port (R408). -/
def State.lossSend (s : State) (stop : Nat) : State :=
  let src : Endpoint := match (ringStops s.variant)[stop]? with | some (true, n) => .slice n | some (false, n) => .agent n | none => .loader
  let one (s : State) (e : Endpoint) : State := s.meshSend (meshMsg src e 0x57 .p 0 stop)
  let due := (List.range s.variant.phys).map LossTarget.slice ++ (List.range s.variant.agents).map LossTarget.port
  let s := { s with fb := { s.fb with lossDue := s.fb.lossDue ++ due } }
  ((List.range s.variant.agents).map Endpoint.agent).foldl one (((List.range s.variant.phys).map Endpoint.slice).foldl one s)

/-- A stop finds a parity failure (R408): a bad header, or a snoop's bad payload, removes the flit, logs the loss and sends the notice
of it; another flit's bad payload is poisoned and zeroed. -/
def State.ringParity (s : State) (stop : Nat) (k : ParityKind) (i : Nat) : State :=
  let loss (s : State) (gone : Bool × Nat) : State := ((s.logEv 0x16 1 srcRing stop 0).lossSend stop).slotFreed (some gone)
  match s.ringSnoops[i]? with
  | some f => loss { s with ringSnoops := s.ringSnoops.eraseIdx i } (f.esc, stopOf s.variant true f.phys)
  | none =>
    let j := i - s.ringSnoops.length
    match s.ring[j]? with
    | none => s
    | some f =>
      match k with
      | .header => loss { s with ring := s.ring.eraseIdx j } (f.esc, f.dst s.variant)
      | .payload => { s with ring := s.ring.modify j RingFlit.badPayload }

/-- On a ring-loss notice a slice sends its unanswered snoops again as retries; a port has nothing to do until a retry
reaches it (R409). Without a notice under way nothing happens. -/
def State.lossNotice (s0 : State) (t : LossTarget) : State :=
  let s := { s0 with fb := { s0.fb with lossDue := eraseFirst (fun x => x == t) s0.fb.lossDue } }
  if !s0.fb.lossDue.contains t then s0
  else match t with
  | .port _ => s
  | .slice p =>
    match s.slice p with
    | none => s
    | some sl =>
      if !sl.live then s
      else
        let again (s : State) (t : Tracker) : State :=
          (t.asnp.map (·.line)).eraseDups.foldl (fun s l =>
            match t.asnp.find? fun x => x.line == l with
            | some x =>
              let vic := t.isVic l
              let e := if vic then t.victim else t.holder
              let k := t.req.kind
              let amh := match t.holder with | some e => e.amh | none => false
              let ok := !vic && amh && (k == .rdShared || k == .rdOwn || k == .rdCur || k == .rdRes || (k == .atomicOp && t.atomNear == some false))
              s.sendRSnp p t.num x.kind l vic t.req.src ok (match e with | some e => e.fwd | none => 0) true (some t.req.cls)
            | none => s) s
        sl.trk.foldl again s

/-! ### Board-mesh links (R406) -/

/-- A link is faulty (R406): what follows for the part that it connects, in the order of R459. -/
def State.linkFaulty (s : State) (n : Nat) : State :=
  let s1 := { s with fb := { s.fb with linkFaults := s.fb.linkFaults ++ [n] } }
  let log (s : State) : State := s.logEv 0x15 2 srcMesh n 0
  let ill (s : State) : State := s.setHealth fun g => { g with linkFault := true }
  match (if n < 128 then endpointOf s.variant (n % 64) else none) with
  | some (.slice p) => (ill (log s1)).failSlice p .link
  | some (.host p) => ill (log (s1.portReset p))
  | some (.agent p) => ill (log (s1.disablePort p))
  | some (.mem _) => ill ((log s1).blockFail 0x15)
  | some .director => ill ((log s1).blockFail 0x15)
  | some .loader => ill ((log s1).blockFail 0x15)
  | none => ill ((log s1).blockFail 0x15)

/-- A hop refuses a flit with bad parity on a link (R406, R450): the third failure of the same flit there makes the link faulty. -/
def State.meshRefuse (s : State) (n : Nat) (hdr : BitVec 128) : State :=
  if !linkIn s.variant n || s.fb.linkFaults.contains n then s
  else
    let k := ((s.fb.meshFails.find? fun x => x.1 == (n, hdr)).map (·.2)).getD 0 + 1
    let rest := s.fb.meshFails.filter fun x => x.1 != (n, hdr)
    let s1 := { s with fb := { s.fb with meshFails := if k < 3 then rest ++ [((n, hdr), k)] else rest, parity := s.fb.parity + 1 } }
    if k < 3 then s1 else s1.linkFaulty n

/-- An uncorrectable error in a unit's control state is found (R411): the port is reset or its agents are disabled, as under R406; an
error of the director, the loader or the castling logic fails the block; the drain of R430 needs a director unaffected. -/
def State.ctlFault (s : State) : CtlUnit → State
  | .hostPort p => s.portReset p
  | .agentPort p => s.disablePort p
  | .director => s.failBlock 0
  | .loader => s.blockFail 0
  | .castling => s.blockFail 0

/-- Stored control-state errors are found (R411); the move boundary at the latest reads every unit's control state (log 9). -/
def State.ctlSettle (s : State) : State :=
  s.fb.ctlErrs.foldl State.ctlFault { s with fb := { s.fb with ctlErrs := [] } }

/-! ### Meanings -/

/-- RING_SNOOP_COPY (R253). -/
def execRingSnoopCopy (port phys trk : Nat) (line : LineAddr) (s : State) : Host.Outcome State Fault Refusal :=
  .next (s.snoopCopy port phys trk line)
/-- AGENT_PORT_SNOOP (R240). -/
def execAgentPortSnoop (port sq : Nat) (s : State) : Host.Outcome State Fault Refusal := .next (s.portSnoop port sq)
/-- AGENT_SNOOP_ANSWER (R242). -/
def execAgentSnoopAnswer (port : Nat) (header : BitVec 64) (data : Line) (s : State) : Host.Outcome State Fault Refusal :=
  .next (s.agentAnswers port header data)
/-- AGENT_SNOOP_TIMEOUT (R246). -/
def execAgentSnoopTimeout (port agent : Nat) (s : State) : Host.Outcome State Fault Refusal := .next (s.agentSilent port agent)
/-- RSPI (R208). -/
def execRspI (r : AgRsp) (s : State) : Host.Outcome State Fault Refusal := .next (s.agentAnswer .rspI .rspI r 0 false)
/-- RSPS (R211). -/
def execRspS (r : AgRsp) (s : State) : Host.Outcome State Fault Refusal := .next (s.agentAnswer .rspS .rspS r 0 false)
/-- RSPFWD (R208). -/
def execRspFwd (r : AgRsp) (s : State) : Host.Outcome State Fault Refusal := .next (s.agentAnswer .rspFwd .rspFwd r 0 false)
/-- RSPWBDATA (R208). -/
def execRspWbData (r : AgRsp) (data : Line) (poison : Bool) (s : State) : Host.Outcome State Fault Refusal :=
  .next (s.agentAnswer .rspWbData .rspWbData r data poison)
/-- RSPIW (R208). -/
def execRspIW (r : AgRsp) (s : State) : Host.Outcome State Fault Refusal := .next (s.agentAnswer .rspIW .rspIW r 0 false)
/-- RING_PARITY_FAIL (R408). -/
def execRingParityFail (stop : Nat) (kind : ParityKind) (flit : Nat) (s : State) : Host.Outcome State Fault Refusal :=
  .next (s.ringParity stop kind flit)
/-- RING_LOSS_NOTICE (R409). -/
def execRingLossNotice (target : LossTarget) (s : State) : Host.Outcome State Fault Refusal := .next (s.lossNotice target)
/-- RING_ESCALATION (R252). -/
def execRingEscalation (flit : Nat) (s : State) : Host.Outcome State Fault Refusal := .next (s.escalate flit)
/-- RING_INJECT_CLAIM (R251). -/
def execRingInjectClaim (stop : Nat) (s : State) : Host.Outcome State Fault Refusal := .next (s.claim stop)
/-- MESH_PARITY_REFUSE (R406). -/
def execMeshParityRefuse (link : LinkFlit) (s : State) : Host.Outcome State Fault Refusal := .next (s.meshRefuse link.link link.header)

end Sys2Proof.Machine
end

