-- ==== Sys2Proof/Machine/Responses.lean ====
section
/-! DEFINITION. The response lane of a slice: memory-port responses and timeouts, acknowledgements, bucket reads, MigStart and
MigDone, MoveTick, the self-check, re-evaluations (06 R206 to R215, 12 R410, 18 R549, R550). -/

namespace Sys2Proof.Machine

open Sys2Proof

/-! ### Acknowledgements (R199, R213) -/

/-- What an acknowledgement clears in a held completion; the mark of a held completion waits until no mark of the tracker is
outstanding. -/
def Held.acked (h : Held) (a : AckKind) (marks : Bool) : Held :=
  match a with
  | .lineWrite w => if h.write == some w then { h with write := none } else h
  | .mirror u => if h.mirror == some u then { h with mirror := none } else h
  | .dirtyMark => if marks then h else { h with mark := false }
  | .kFill _ => { h with fill := false }
  | .metaWrite => h
  | .bucket => h
  | .stamp => h

/-- The line that an acknowledgement of a tracker concerns. -/
def Tracker.ackLine (t : Tracker) (a : Ack) : LineAddr :=
  match a.vic, t.victim with | true, some v => v.line | _, _ => t.req.line

/-- Take one outstanding acknowledgement off a tracker: counted, and the completions it held released. -/
def State.takeAck (s : State) (p n : Nat) (a : Ack) : State :=
  match s.tracker p n with
  | none => s
  | some t =>
    if !t.acks.contains a then s
    else
      let acks := eraseFirst (fun x => x == a) t.acks
      let marks := acks.any fun x => x.kind == .dirtyMark
      let r := releaseHeld s (t.held.map fun h => h.acked a.kind marks)
      r.1.modTrk p n fun x => { x with acks := acks, held := r.2 }

/-- A slice takes a replay (R415). -/
def State.replayInto (s : State) (p : Nat) : Bool := s.cast.replays.any fun r => r.target == p

/-- Deliver one outstanding acknowledgement of a tracker: taken, then presented as MemAck. In CA it is discarded, and repeated after
REPLAY_END (R215). -/
def State.deliverAck (s : State) (p n : Nat) (a : Ack) : State :=
  match s.tracker p n with
  | none => s
  | some t =>
    if !t.acks.contains a || (t.st == .ca && s.replayInto p) then s
    else (s.takeAck p n a).feed p n { inp := .memAck, vic := a.vic, line := t.ackLine a }

/-- Deliver an acknowledgement to every tracker of a slice that awaits it. -/
def State.deliverAll (s : State) (p : Nat) (hit : Tracker → Ack → Bool) : State :=
  match s.slice p with
  | none => s
  | some sl =>
    (sl.trk.flatMap fun t => (t.acks.filter (hit t)).map fun a => (t.num, a)).foldl (fun s x => s.deliverAck p x.1 x.2) s

/-- Reservations of trackers that will write no bucket are released (R140). -/
def State.bktSettle (s : State) (p : Nat) : State :=
  match s.slice p with
  | none => s
  | some sl =>
    let keep (b : Nat × Nat) : Bool := match sl.tracker b.2 with
      | none => false
      | some t => t.bktOut.isSome || t.bktIn.isSome || t.stall.isSome || (t.acks.any fun a => a.kind == .bucket) || (t.direct && t.victim.isSome)
    if sl.dir.bkt.all keep then s
    else (s.modSlice p fun x => { x with dir := { x.dir with bkt := x.dir.bkt.filter keep } }).bktKick p

/-- An acknowledgement of a mirror update becomes that of a line write (R420). -/
def Tracker.ackByWrite (t : Tracker) (a : Ack) (u w : Nat) : Tracker :=
  { t with
    acks := eraseFirst (fun x => x == a) t.acks ++ [⟨.lineWrite w, a.vic⟩],
    held := t.held.map fun h => if h.mirror == some u then { h with mirror := none, write := some w } else h }

/-- In unprotected mode an update that the buddy will not take is acknowledged by the memory port's acknowledgement of the line's
write (R420): the line goes to the WPQ if it is dirty; a line already written needs none. -/
def State.unprotAck (s : State) (p n : Nat) (a : Ack) (u : Nat) : State :=
  match s.slice p, s.tracker p n with
  | some sl, some t =>
    let l := t.ackLine a
    let byWpq (s : State) : State :=
      match (s.slice p).bind fun x => x.wpqFind l with
      | some w => s.modTrk p n fun x => x.ackByWrite a u w.wid
      | none => s.deliverAck p n a
    (match sl.mscFind l with
     | some (i, c) => if !c.dirty then byWpq s else if sl.wpqFits l then byWpq (s.writeBack p i c) else s
     | none => if sl.msc.vb.any fun v => v.cl.line == l && v.cl.dirty && !v.inWpq then s else byWpq s)
  | _, _ => s

/-- Every such acknowledgement of an unprotected slice. -/
def State.unprotAcks (s : State) (p : Nat) : State :=
  match s.slice p with
  | none => s
  | some sl =>
    if !sl.ident.unprot then s
    else
      let due (a : Ack) : Option (Ack × Nat) := match a.kind with
        | .mirror u => if sl.mir.acked.contains u then none else some (a, u)
        | _ => none
      (sl.trk.flatMap fun t => (t.acks.filterMap due).map fun x => (t.num, x)).foldl (fun s x => s.unprotAck p x.1 x.2.1 x.2.2) s

/-- What ends a command that acted on a slice: acknowledgements of an unprotected slice, reservations, waiting messages, fenced
HIDs. -/
def State.settle (s : State) (p : Nat) : State := (((s.unprotAcks p).bktSettle p).settleIn p)

/-! ### Bucket reads (R141, R212) -/

/-- A bucket read returns to its tracker. One that is uncorrectable is logged, and the bucket is emptied (R141): a lookup's tracker
writes it under a reservation, or waits for one and reads again (R140); the other uses write it anyway. A tracker that awaits no such
read has an error in control state (F6). -/
def State.bucketIn (s : State) (p n : Nat) (use : BktUse) (line : LineAddr) (ue : Bool) : State :=
  match s.slice p, s.tracker p n with
  | some sl, some t =>
    if t.bktOut != some use then (if t.st == .ca || !sl.live then s else s.failSlice p .control)
    else
      let b := s.bucketNo line
      if ue && use == .lookup && !sl.bktRoom b n then
        let r := s.bktIssue p { t with bktOut := none } use
        r.1.modTrk p n fun _ => { r.2 with bktOut := none, bktWait := some use }
      else
        let hit := !ue && (bktFind s.gl.game (s.bucket b) line).isSome
        let s1 := s.count p (if hit then 0x15 else 0x16) none
        let s2 := if ue then (s1.setBucket b 0).logEv 0x11 1 p 0 (BitVec.ofNat 64 (s.bucketAddr b)) else s1
        let own := ue && use == .lookup
        let s3 := if own then (s2.modSlice p fun x => x.bktTake b n).writeBucket p t false line 0 else s2
        let s4 := s3.modTrk p n fun x => { x with bktIn := some ue, acks := if own then x.acks ++ [⟨.bucket, false⟩] else x.acks }
        (State.pump (pumpFuel t) s4 p n).settle p
  | _, _ => s

/-! ### Memory-port responses (R207, R410, R550) -/

/-- Count a response that no command awaits (R550). -/
def State.memFault (s : State) (port : Nat) : State := s.modMemPort port fun m => { m with faults := m.faults + 1 }

/-- The outstanding command that a response names; a given-up one's late answer is counted and frees its TAG (R410). -/
def State.memAnswer (s : State) (port tag : Nat) : State × Option MemCmd :=
  match (s.memPort port).bind fun m => m.cmd tag with
  | none => (if port < s.variant.mems then s.memFault port else s, none)
  | some c =>
    if c.givenUp then ((s.modMemPort port fun m => { m with late := m.late + 1 }).memFree port tag, none)
    else (s, some c)

/-- A line read returns to its tracker (R207); a nibble-only read's data is not kept (R125). Partial writes of the line that waited
for it follow at once (R159, R171); a read ordered for them alone, of a line that is not the tracker's own, is no input of its. -/
def State.lineIn (s : State) (p n : Nat) (l : LineAddr) (keep : Bool) (data : Line) (nib : Nib) (poison ue : Bool) : State :=
  match s.slice p, s.tracker p n with
  | some sl, some t =>
    if !sl.live then s
    else
      let own := t.req.line == l && t.req.kind != .migStart
      let d : InMsg := { inp := .memData, line := l, data := data, be := if keep then BitVec.allOnes 64 else 0, poison := poison, nib := nib,
                         ue := ue }
      let mine := (t.late.filter fun m => m.line == l).map fun m => { m with under := some (data, poison || ue) }
      let f (x : Tracker) : Tracker :=
        { x with inq := (if own then [d] else []) ++ mine ++ x.inq, late := x.late.filter fun m => m.line != l }
      let s1 := s.modSlice p fun y => { y.modTrk n f with ident := { y.ident with busyMove := true, gated := false } }
      ((State.pump (pumpFuel t + mine.length) s1 p n).sweepDone p n).settle p
  | _, _ => s

/-- A read command is answered with a line, or as an uncorrectable error. -/
def State.readDone (s : State) (c : MemCmd) (data : Line) (nib : Nib) (poison ue : Bool) : State :=
  match c.owner with
  | .lineRead p n keep => s.lineIn p n c.line keep data nib poison ue
  | .bucketRead p n use => (match s.tracker p n with | some t => s.bucketIn p n use (t.bktLine use) ue | none => s)
  | .resend p h => s.resendData p h data (poison || ue)
  | .sweepRead _ => s
  | .wpq .. => s
  | .metaW .. => s
  | .bucketW .. => s
  | .director => s

/-- A WPQ entry has been written: it and its mirror record go, its waiters go on (R308, R313). -/
def State.wpqDone (s : State) (p wid : Nat) : State :=
  let f (sl : Slice) : Slice := { sl with msc := { sl.msc with wpq := sl.msc.wpq.filter fun w => w.wid != wid }, ident := { sl.ident with busyMove := true, gated := false } }
  let s1 := ((s.modSlice p f).mirSend p [.delWpq wid]).1
  let s2 := s1.deliverAll p fun _ a => a.kind == .lineWrite wid
  ((s2.unstall p).quiesceKick p).settle p

/-- A write command is acknowledged, or taken as acknowledged. -/
def State.writeDone (s : State) (c : MemCmd) : State :=
  match c.owner with
  | .wpq p wid => s.wpqDone p wid
  | .metaW p n vic => (s.deliverAck p n ⟨.metaWrite, vic⟩).settle p
  | .bucketW p n vic => (s.deliverAck p n ⟨.bucket, vic⟩).settle p
  | .lineRead .. => s
  | .bucketRead .. => s
  | .sweepRead _ => s
  | .resend .. => s
  | .director => s.reconcile

/-- A read response of a memory port: line data, nibble, poison, an uncorrectable error (R549). -/
def State.memData (s : State) (port tag : Nat) (data : Line) (nib : Nib) (poison ue : Bool) : State :=
  match s.memAnswer port tag with
  | (s1, none) => s1
  | (s1, some c) => if c.kind == .read then ((s1.memFree port tag).memBack port c true poison).readDone c data nib poison ue else s1.memFault port

/-- A write acknowledgement of a memory port. -/
def State.memWritten (s : State) (port tag : Nat) : State :=
  match s.memAnswer port tag with
  | (s1, none) => s1
  | (s1, some c) => if c.kind == .read then s1.memFault port else ((s1.memFree port tag).memBack port c false false).writeDone c

/-- A command unanswered for 100 µs is given up (R410): its TAG stays reserved; a read counts as uncorrectable, a write as
acknowledged with its line recorded poisoned. -/
def State.memTimeout (s : State) (port tag : Nat) : State :=
  match (s.memPort port).bind fun m => m.cmd tag with
  | none => s
  | some c =>
    if c.givenUp then s
    else
      let give (x : MemCmd) : MemCmd := if x.tag == tag then { x with givenUp := true } else x
      let s0 := s.modMemPort port fun m => { m with out := m.out.map give }
      let src := (c.owner.phys).getD srcDirector
      let s1 := match (if c.kind == .read then none else c.owner.phys) with | some p => s0.logPoison p c.line 4 | none => s0
      let s2 := (s1.logEv 0x17 2 src port (addrDetail c.line 0)).setHealth fun g => { g with linkFault := true }
      if c.kind == .read then
        let f := s2.drawLine
        f.2.readDone c f.1 0 true true
      else s2.writeDone c

/-- A command SPILLHIT or SPILLMISS: the bucket read under a TAG returns; a name that the bucket's contents do not bear out
changes nothing (log 30). -/
def State.spillAnswer (s : State) (port tag : Nat) (hit ue : Bool) : State :=
  match (s.memPort port).bind fun m => m.cmd tag with
  | none => (s.memAnswer port tag).1
  | some c =>
    match c.owner with
    | .bucketRead p n use =>
      if c.givenUp then (s.memAnswer port tag).1
      else match s.tracker p n with
      | none => s.memFree port tag
      | some t =>
        let l := t.bktLine use
        let found := !ue && (bktFind s.gl.game (s.bucket (s.bucketNo l)) l).isSome
        if found != hit then s else ((s.memFree port tag).memBack port c true false).bucketIn p n use l ue
    | _ => s

/-- A tracker of a slice, placed or still to be placed by a replay, that awaits an acknowledgement. -/
def State.awaitsAck (s : State) (p : Nat) (hit : Tracker → Ack → Bool) : Bool :=
  (match s.slice p with | some sl => sl.trk.any fun t => t.acks.any (hit t) | none => false) ||
  (s.recordFor p fun t => t.acks.any (hit t)).isSome

/-- F6: an acknowledgement with no matching operation is an error in control state. -/
def State.strayAck (s : State) (p : Nat) : State :=
  match s.slice p with | some sl => if sl.live then s.failSlice p .control else s | none => s

/-- The director's acknowledgement of a stamp or a mark of a page reaches a slice: `sent`, its message; `hit`, who awaits it. -/
def State.dirAck (s : State) (p : Nat) (sent : NMsg) (out : Bool) (free : Slice → Slice) (hit : Tracker → Ack → Bool) : State :=
  let awaited := s.awaitsAck p hit
  if s.net.contains sent then
    let s1 := (s.takeMsg sent).modSlice p free
    if awaited then (s1.deliverAll p hit).settle p else s1.strayAck p
  else if awaited || out then s
  else s.strayAck p

/-- An acknowledgement as a command names it (R213, R313, R147, R352); one that has not been sent yet does not arrive, and one that
nothing awaits is F6. -/
def State.ackCmd (s : State) (a : AckSel) : State :=
  match a with
  | .mem port tag => s.memWritten port tag
  | .mirror p =>
    match s.slice p with
    | none => s
    | some sl =>
      match sl.mir.acked with
      | [] => if sl.mir.link.isEmpty then s.strayAck p else s
      | u :: r =>
        let free (v : VbEnt) : Bool := !(v.inWpq && v.mirror == some u)
        let f (x : Slice) : Slice := { x.setVb (x.msc.vb.filter free) with mir := { x.mir with acked := r } }
        (((s.modSlice p f).deliverAll p fun _ k => k.kind == .mirror u).quiesceKick p).settle p
  | .stamp p pg =>
    let out := match s.slice p with | some sl => sl.stamps.contains pg | none => false
    s.dirAck p (.stampAck p pg) out (fun x => { x with stamps := x.stamps.filter fun y => y != pg })
      fun t k => k.kind == .stamp && pageOf (t.ackLine k) == pg
  | .dirtyMark p pg =>
    let out := match s.slice p with | some sl => sl.marks.contains pg | none => false
    s.dirAck p (.markAck p pg) out (fun x => { x with marks := x.marks.filter fun y => y != pg })
      fun t k => k.kind == .dirtyMark && pageOf (t.ackLine k) == pg

/-! ### Page moves (R206, R214, R283, R349) -/

/-- No tracker holds a line of a page. -/
def Slice.pageIdle (sl : Slice) (pg : Page) : Bool :=
  !(sl.trk.any fun t => pageOf t.req.line == pg || (match t.victim with | some v => pageOf v.line == pg | none => false))

/-- The request record of a MigStart. -/
def migReq (pg : Page) (k : MigKind) : Req :=
  { kind := .migStart, src := .director, tag := 0, line := pageLine pg 0, off := 0, mv := .i, hdmH := false, ownCls := none, cls := .p,
    data := 0, be := 0, poison := false, size := 0, aop := 0, withK := false, mig := some k, seq := 0 }

/-- Open a page's maintenance tracker: its entries become open, and a demotion ends the page's reservations (R131, R283,
R284). -/
def State.openMig (s : State) (p : Nat) (q : Req) (o : Pool) : State :=
  let pg := pageOf q.line
  let f (sl : Slice) : Slice :=
    let sf := sl.dir.sf.map fun x => if pageOf x.2.line == pg then (x.1, { x.2 with opn := true }) else x
    let ms := if q.mig == some .demotion then sl.dir.monitors.filter fun m => pageOf m.granule != pg else sl.dir.monitors
    { sl with dir := { sl.dir with sf := sf, monitors := ms } }
  (((s.modSlice p f).openTracker p q o false).noteOcc p).settle p

/-- A MigStart of the director is accepted in a maintenance slot (R206): declined for a hot page (R349), in hold while a tracker
holds a line of the page, otherwise a maintenance tracker of its own. Without a tracker and a hold entry that it may use it stays at
the slice's input (R26). -/
def State.migStart (s : State) (p : Nat) (pg : Page) (k : MigKind) : State :=
  match s.slice p with
  | none => s
  | some sl =>
    if !sl.live || sl.ident.adoptStall || s.eg.drainReq || !(s.net.contains (.migStart p pg k)) || !room sl then s
    else
      let s1 := s.takeMsg (.migStart p pg k)
      let forced := match s.moveOf pg with | some m => m.forced | none => true
      match (if k == .demotion && !forced then sl.pmFind pg else none) with
      | some (_, w) => if s.pdCold < w.heat.toNat then s1.declineMove pg w.heat else go s1 sl
      | none => go s1 sl
where
  /-- Not declined. -/
  go (s1 : State) (sl : Slice) : State :=
    if sl.pageIdle pg && sl.poolFree .maint then s1.openMig p (migReq pg k) .maint
    else if sl.pageIdle pg && sl.poolFree .shared then s1.openMig p (migReq pg k) .shared
    else s1.enterHold p (migReq pg k)
  /-- A hold entry that a MigStart may use is free, and so is a tracker (R26). -/
  room (sl : Slice) : Bool := (sl.poolFree .maint || sl.poolFree .shared) && sl.holdFree

/-- A MigStart in hold is released once no tracker holds a line of its page (R206). -/
def State.releaseMig (s : State) (p : Nat) (pg : Page) : State :=
  match s.slice p with
  | none => s
  | some sl =>
    match sl.hold.find? fun h => h.req.kind == .migStart && pageOf h.req.line == pg with
    | some h =>
      if sl.live && !s.replaying p h.req.line && sl.pageIdle pg && (sl.poolFree .maint || sl.poolFree .shared) then
        (s.modSlice p fun x => { x with hold := x.hold.filter fun y => y.num != h.num }).openMig p h.req
          (if sl.poolFree .maint then .maint else .shared)
      else s
    | none => s

/-- Take MigDone for a page: it answers every tracker of the slice that asked for the page (R340), so the PROMOs of the page that are
still under way, and answers to them, go with it (log 53). -/
def State.takeMigDone (s : State) (p : Nat) (pg : Page) : State :=
  { s with net := s.net.filter fun m => m != .migDone p pg && m != .promo p pg }

/-- MigDone (R214): taken once every entry update of the page sent before it has reached the slice; presented to every tracker
in MG for the page. With none it matches no operation (F6), but for one that a slice takes over with a failed slice's range: the
tracker it was for has been re-evaluated (R215, R414). -/
def State.migDone (s : State) (p : Nat) (pg : Page) : State :=
  match s.slice p with
  | none => s
  | some sl =>
    let before := s.net.takeWhile fun m => m != .migDone p pg
    if !sl.live || !(s.net.contains (.migDone p pg)) || before.contains (.entry pg) then s
    else
      let mine := sl.trk.filter fun t => t.st == .mg && pageOf t.req.line == pg
      let replayed := s.cast.redirect.any fun r => r.2 == p
      if mine.isEmpty then (if replayed then s.takeMigDone p pg else (s.takeMigDone p pg).failSlice p .control)
      else (mine.foldl (fun s t => s.feed p t.num { inp := .migDone, line := t.req.line }) (s.takeMigDone p pg)).settle p

/-! ### MoveTick, the self-check, re-evaluation (R80, R81, R200) -/

/-- MoveTick reaches a tracker that had armed it at the move's start; trackers have their turns in ascending number (R81). What the
response path delivers ahead of it are commands that the sender gives first. -/
def State.moveTick (s : State) (p n : Nat) : State :=
  match s.slice p with
  | none => s
  | some sl =>
    match sl.trk.find? fun t => t.armed && t.tickDue with
    | none => s
    | some t =>
      if t.num != n then s
      else (((s.modTrk p n fun x => { x with tickDue := false }).count p 0x4E none).feed p n { inp := .moveTick, line := t.req.line }).settle p

/-- The self-check of a move (R29, R80), in the slice's first maintenance slot of the move, up to which the slots of the move are
given first: the two copies agree and the slice has its heartbeat, or it has failed. -/
def State.selfCheck (s0 : State) (p : Nat) (agree : Bool) : State :=
  let s := State.toSelfSlot 6 s0 p
  match s.slice p with
  | none => s
  | some sl =>
    if !sl.live || sl.arb.selfDone || !sl.arb.selfSlot then s
    else if !agree then s.failSlice p .mismatch
    else s.modSlice p fun x =>
      { x with arb := { x.arb with selfDone := true },
               ident := { x.ident with beatThisMove := true, beats := x.ident.beats + 1 } }

/-- A tracker's request is presented again (R200). -/
def State.reeval (s : State) (p n : Nat) : State :=
  match s.slice p, s.tracker p n with
  | some sl, some t => if sl.live && t.reevalDue && t.stall.isNone then (s.lookupPump p n).settle p else s
  | _, _ => s

/-! ### Meanings -/

/-- MEMDATA (R207). -/
def execMemData (port tag : Nat) (data : Line) (nib : Nib) (poison ue : Bool) (s : State) : Host.Outcome State Fault Refusal :=
  .next (s.memData port tag data nib poison ue)
/-- MEMACK (R213). -/
def execMemAck (a : AckSel) (s : State) : Host.Outcome State Fault Refusal := .next (s.ackCmd a)
/-- MEMORY_PORT_TIMEOUT (R410). -/
def execMemoryPortTimeout (port tag : Nat) (s : State) : Host.Outcome State Fault Refusal := .next (s.memTimeout port tag)
/-- SPILLHIT (R212). -/
def execSpillHit (port tag : Nat) (s : State) : Host.Outcome State Fault Refusal := .next (s.spillAnswer port tag true false)
/-- SPILLMISS (R212). -/
def execSpillMiss (port tag : Nat) (ue : Bool) (s : State) : Host.Outcome State Fault Refusal := .next (s.spillAnswer port tag false ue)
/-- MIGSTART (R206). -/
def execMigStart (phys : Nat) (page : Page) (kind : MigKind) (s : State) : Host.Outcome State Fault Refusal :=
  .next (s.migStart phys page kind)
/-- MIGDONE (R214). -/
def execMigDone (phys : Nat) (page : Page) (s : State) : Host.Outcome State Fault Refusal := .next (s.migDone phys page)
/-- MOVETICK (R81). -/
def execMoveTick (phys trk : Nat) (s : State) : Host.Outcome State Fault Refusal := .next (s.moveTick phys trk)
/-- SELFCHECK (R80). -/
def execSelfCheck (phys : Nat) (agree : Bool) (s : State) : Host.Outcome State Fault Refusal := .next (s.selfCheck phys agree)
/-- REEVAL (R200). -/
def execReeval (phys trk : Nat) (s : State) : Host.Outcome State Fault Refusal := .next (s.reeval phys trk)

end Sys2Proof.Machine
end

