-- ==== Sys2Proof/Machine/Arb.lean ====
section
/-! DEFINITION. Starvation limits, class-K credits and release from hold (03 R25, R92, R97, R98), and the commands of arbitration. -/

namespace Sys2Proof.Machine

open Sys2Proof

/-! ### Starvation limits and credits (R92, R98) -/

/-- An input's counter is at or above its limit in force: a forced win becomes due (R98). -/
def State.starved (s : State) (p n : Nat) : State :=
  match (s.slice p).bind fun sl => sl.arb.inputs[n]? with
  | none => s
  | some i =>
    let l := s.starveLimit p n
    if l != 0 && l ≤ i.starve && !i.forced then
      s.modSlice p fun sl => ({ sl with arb := { sl.arb with starved := setBit sl.arb.starved n true } }).modInput n fun x =>
        { x with forced := true }
    else s

/-- The input belongs to a port of the variant (R90). -/
def Variant.hasInput (v : Variant) (n : Nat) : Bool := if n < 8 then n < v.hosts else n - 8 < v.agents

/-- The pool of the tracker that a class-K credit reserves, if a tracker and a hold entry are free for it (R26, R92). -/
def Slice.creditPool (sl : Slice) : Option Pool :=
  if 512 ≤ sl.hold.length + sl.credits then none
  else if sl.poolFree .k then some .k
  else if sl.poolFree .shared then some .shared
  else none

/-- A class-K credit is issued to an input that holds none (R92); what its host port kept for want of it leaves. -/
def State.kcredit (s : State) (p n : Nat) : State :=
  match s.slice p with
  | none => s
  | some sl =>
    match sl.arb.inputs[n]?, sl.creditPool with
    | some i, some o =>
      if s.variant.hasInput n && sl.live && sl.ident.role.serves && i.kcredit.isNone then
        (s.modSlice p fun x => x.modInput n fun y => { y with kcredit := some o }).portRelease n
      else s
    | _, _ => s

/-! ### Meanings -/

/-- ISSUE_SLOT (R90). -/
def execIssueSlot (phys : Nat) (s : State) : Host.Outcome State Fault Refusal := .next (s.issueSlot phys)

/-- STARVATION_LIMIT (R98). -/
def execStarvationLimit (phys input : Nat) (s : State) : Host.Outcome State Fault Refusal := .next (s.starved phys input)

/-- HOLD_RELEASE (R25): a MigStart in hold waits for every line of its page (R206). -/
def execHoldRelease (phys : Nat) (line : LineAddr) (s : State) : Host.Outcome State Fault Refusal :=
  .next (match (s.slice phys).bind fun sl => sl.dueHold line with
    | some h => if h.req.kind == .migStart then s.releaseMig phys (pageOf line) else s.holdRelease phys line
    | none => s)

/-- KCREDIT_ISSUE (R92). -/
def execKcreditIssue (phys input : Nat) (s : State) : Host.Outcome State Fault Refusal := .next (s.kcredit phys input)

end Sys2Proof.Machine
end

