-- ==== Sys2Proof/Machine/Walks.lean ====
section
/-! DEFINITION. What a slice does beside requests: prefetches, the writeback, drain and preload walks, the victim buffer, WPQ and
mirror, ways retired and disabled, the blindfold sweeper (09 R301 to R321, 12 R423, 17 R540, 11 R382). -/

namespace Sys2Proof.Machine

open Sys2Proof

/-- A request of the slice's own for a line. -/
def ownReq (k : Inp) (src : Src) (tag : Nat) (l : LineAddr) (c : Cls) : Req :=
  { kind := k, src := src, tag := tag, line := l, off := 0, mv := .i, hdmH := false, ownCls := none, cls := c, data := 0, be := 0,
    poison := false, size := 0, aop := 0, withK := false, mig := none, seq := 0 }

/-- The buddy of a slice: the other slice of its castling channel (R64, R65). -/
def State.buddyOf (s : State) (p : Nat) : Option Nat :=
  s.cast.channels.findSome? fun c => match c with
    | some (a, b) => if a = p then some b else if b = p then some a else none
    | none => none

/-! ### Unprotected mode (R420) -/

/-- A buddy is there to replay from: neither isolated nor failed. -/
def State.castleLive (s : State) (p : Nat) : Bool :=
  match s.slice p with | some sl => !sl.ident.isolated && sl.ident.failed.isNone | none => false

/-- The castling channel of a slice. -/
def State.channelOf (s : State) (p : Nat) : Nat :=
  s.cast.channels.findIdx fun c => match c with | some (a, b) => a == p || b == p | none => false

/-- A slice enters unprotected mode (R420) unless it is in it: updates not taken are not sent, victim-buffer entries that the WPQ holds are free. -/
def State.enterUnprot (s : State) (b : Nat) : State :=
  let f (sl : Slice) : Slice :=
    let sl1 := sl.setVb (sl.msc.vb.filter fun v => !(v.inWpq && (match v.mirror with | some u => !sl.mir.acked.contains u | none => true)))
    { sl1 with ident := { sl1.ident with unprot := true }, mir := { sl1.mir with link := [] } }
  let was := match s.slice b with | some sl => sl.ident.unprot | none => true
  if s.castleLive b && !was then ((s.modSlice b f).unprotAcks b).settle b else s

/-- As `enterUnprot`, with the record of an unprotected pair and its cause (R437); a takeover logs one record only (R418). -/
def State.pairUnprot (s : State) (b cause : Nat) : State :=
  match s.slice b with
  | some sl =>
    if sl.ident.unprot || !s.castleLive b then s
    else
      let c := s.channelOf b
      let s1 := { s with cast := { s.cast with reported := if s.cast.reported.contains c then s.cast.reported else s.cast.reported ++ [c] } }
      (s1.enterUnprot b).logEv 0x06 1 srcCastle c (BitVec.ofNat 64 cause)
  | none => s

/-- The castling link of a slice has failed (R404, R420): both slices of the pair are unprotected until a block power-on reset. -/
def State.linkFail (s : State) (p : Nat) : State :=
  let s1 := { s with cast := { s.cast with linkFailed := s.cast.linkFailed.set (s.channelOf p) true } }
  let s2 := (s1.pairUnprot p 1).setHealth fun g => { g with unprotected := true }
  match s2.buddyOf p with | some b => s2.enterUnprot b | none => s2

/-! ### Prefetch (R302) -/

/-- The oldest queued prefetch is accepted, while at least 16 shared trackers remain free. -/
def State.prefetchAccept (s : State) (p : Nat) : State :=
  match s.slice p with
  | none => s
  | some sl =>
    match sl.msc.pfq with
    | [] => s
    | (l, c) :: r =>
      if !sl.live || sl.ident.adoptStall || s.eg.drainReq || 128 < sl.poolUsed .shared + sl.creditsOf .shared || !sl.holdFree then s
      else
        let s1 := (s.modSlice p fun x => { x with msc := { x.msc with pfq := r } }).count p 0x27 (some c)
        (s1.present p (ownReq .memSpecRd .prefetch 0 l c) .shared).settle p

/-! ### Walks over sets (R310, R320, R321, R382) -/

/-- The lines of a set, by way. -/
def Slice.setLines (sl : Slice) (set : Nat) : List (Nat × CLine) :=
  (List.range 16).filterMap fun w => (kget (set * 16 + w) sl.msc.lines).map fun c => (w, c)

/-- Visit a set: the dirty lines that are chosen go to the WPQ, then the lines chosen to be dropped become invalid. None where
the WPQ has fewer free entries than the set's dirty lines: the walk waits (R310). -/
def State.visitSet (s : State) (p set : Nat) (take drop : Nat × CLine → Bool) : Option State :=
  match s.slice p with
  | none => none
  | some sl =>
    let ls := sl.setLines set
    let dirty := ls.filter fun x => x.2.dirty && take x
    if sl.wpqRoom < (ls.filter fun x => x.2.dirty).length then none
    else
      let s1 := dirty.foldl (fun s x => s.writeBack p (set * 16 + x.1) x.2) s
      some ((ls.filter drop).foldl (fun s x => s.modSlice p fun y => y.mscDel (set * 16 + x.1)) s1)

/-- Change the cache's control state. -/
def State.modMsc (s : State) (p : Nat) (f : Msc → Msc) : State := s.modSlice p fun sl => { sl with msc := f sl.msc }

/-- One turn of the walk that empties a way being retired (R321): a line with a waiting hold entry keeps it at its set. Answers
none when it cannot go on. -/
def State.retireTurn (s : State) (p : Nat) (sl : Slice) : Option State :=
  sl.msc.retiring.findSome? fun r =>
    let (w, set, auto) := r
    let waits := match kget (set * 16 + w) sl.msc.lines with | some c => sl.holdWaits c.line | none => false
    if waits then none
    else match s.visitSet p set (fun x => x.1 == w) (fun x => x.1 == w) with
      | none => none
      | some s1 =>
        if set + 1 < 4096 then
          let f (y : Nat × Nat × Bool) : Nat × Nat × Bool := if y.1 == w then (w, set + 1, auto) else y
          some (s1.modMsc p fun m => { m with retiring := m.retiring.map f })
        else
          let s2 := s1.modMsc p fun m =>
            { m with retiring := m.retiring.filter fun y => y.1 != w, auto := if auto then setBit m.auto w true else m.auto }
          some (if auto then (s2.logEv 0x18 1 p w 0).setHealth fun g => { g with wayRetired := true } else s2)

/-- One turn of the writeback walk (R310, R321, R420): a way being retired, else the next set while the dirty count calls for
it. -/
def State.writebackTurn (s : State) (p : Nat) : State :=
  match s.slice p with
  | none => s
  | some sl =>
    if !sl.live then s
    else match s.retireTurn p sl with
      | some s1 => (s1.noteOcc p).settle p
      | none =>
        let on := sl.msc.walkBusy || s.dirtyHigh p < sl.dirtyCount || (sl.ident.unprot && sl.dirtyCount != 0)
        if !on then s
        else match s.visitSet p sl.msc.walkSet (fun _ => true) (fun _ => false) with
          | none => s.modMsc p fun m => { m with walkBusy := true }
          | some s1 =>
            let left := match s1.slice p with | some x => x.dirtyCount | none => 0
            let go := s.dirtyLow p < left || (sl.ident.unprot && left != 0)
            ((s1.modMsc p fun m => { m with walkSet := (m.walkSet + 1) % 4096, walkBusy := go }).noteOcc p).settle p

/-- One turn of the walk while Draining (R320). -/
def State.cacheDrainTurn (s : State) (p : Nat) : State :=
  match s.slice p with
  | none => s
  | some sl =>
    if !sl.live || sl.msc.state != .draining then s
    else
      let goes (x : Nat × CLine) : Bool := !sl.holdWaits x.2.line
      match s.visitSet p sl.msc.drainSet goes goes with
      | none => s
      | some s1 =>
        let left := sl.msc.drainLeft || (sl.setLines sl.msc.drainSet).any fun x => !goes x
        let f (m : Msc) : Msc :=
          if sl.msc.drainSet + 1 < 4096 then { m with drainSet := sl.msc.drainSet + 1, drainLeft := left }
          else if left || !m.vb.isEmpty then { m with drainSet := 0, drainLeft := false }
          else { m with drainSet := 0, drainLeft := false, state := .disabled }
        ((s1.modMsc p f).noteOcc p).settle p

/-- The drain walk of a slice empties its cache: a P2 entry is under way, no drain of the Endgame unit with it (R503). -/
def State.p2Drain (s : State) : Bool := s.pwr.phase == .entering && !s.eg.drainReq

/-- One cycle of the drain walk (R382): a set's dirty lines go to the WPQ and stay valid; for P2, once no tracker is open,
every line goes (R503). A slice passes again over sets in which lines remain. -/
def State.drainTurn (s : State) (p : Nat) : State :=
  match s.slice p with
  | none => s
  | some sl =>
    let p2 := s.p2Drain
    let done := sl.ident.drainPass && (if p2 then sl.msc.lines.isEmpty else !(sl.msc.lines.any fun x => x.2.dirty))
    if !sl.ident.draining || sl.ident.frozen || sl.ident.asleep || sl.ident.isolated || sl.ident.failed.isSome || done ||
       (p2 && !(sl.trk.isEmpty && sl.hold.isEmpty)) then s
    else match s.visitSet p sl.ident.drainSet (fun _ => true) (fun _ => p2) with
      | none => s
      | some s1 =>
        let f (x : Slice) : Slice :=
          { x with ident := { x.ident with drainSet := (x.ident.drainSet + 1) % 4096, drainPass := x.ident.drainPass || x.ident.drainSet + 1 == 4096 } }
        ((s1.modSlice p f).noteOcc p).settle p

/-! ### Victim buffer, WPQ, mirror (R305, R308, R313) -/

/-- A victim-buffer entry takes a WPQ entry; it is freed when the buddy has acknowledged, at once in unprotected mode (R420). -/
def State.victimToWpq (s : State) (p v : Nat) : State :=
  match s.slice p with
  | none => s
  | some sl =>
    match sl.msc.vb.find? fun x => x.num == v && !x.inWpq with
    | none => s
    | some x =>
      let c := x.cl
      if sl.ident.isolated || sl.ident.failed.isSome || !sl.wpqFits c.line then s
      else
        let d := s.readBuf p .vb v c.line
        let s0 := d.1.modSlice p fun y => y.setVb (y.msc.vb.map fun z => if z.num == v then { z with inWpq := true } else z)
        -- A newer copy that the victim buffer holds keeps the line's record; else older ones are superseded (R307, R313).
        let newer := ((sl.msc.vb.dropWhile fun z => z.num != v).drop 1).any fun z => z.cl.line == c.line && !z.inWpq
        let e := if newer then s0.toWpq p c.line c.data c.nib (c.poison || d.2) false
          else s0.newestToWpq p c.line c.data c.nib (c.poison || d.2) false
        let r := e.s.mirSend p (if newer then e.ops.filter fun o => o != .delDirty c.line else e.ops)
        let f (y : Slice) : Slice :=
          match r.2 with
          | some u => y.setVb (y.msc.vb.map fun z => if z.num == v then { z with inWpq := true, mirror := some u } else z)
          | none => y.setVb (y.msc.vb.filter fun z => z.num != v)
        (((r.1.modSlice p f).noteOcc p).quiesceKick p).settle p

/-- The oldest WPQ entry not yet issued is issued to its memory port (R308). -/
def State.wpqIssue (s : State) (p : Nat) : State :=
  match s.slice p with
  | none => s
  | some sl =>
    if sl.ident.isolated || sl.ident.failed.isSome then s
    else match sl.msc.wpq.find? fun w => !w.issued with
      | none => s
      | some w =>
        let e := s.lineEnt sl w.line
        let d := s.readBuf p .wpq w.wid w.line
        let c := memCmd .write w.ktag (e.na w.line) w.line w.nib w.data (w.poison || d.2) (.wpq p w.wid)
        let s1 := d.1.modMsc p fun m =>
          { m with wpq := m.wpq.map fun x => if x.wid == w.wid then { x with issued := true, poison := c.poison } else x }
        let s2 := (s1.memSubmit c).count p 0x41 none
        if w.ktag then s2.count p 0x43 none else s2

/-- The pending fill of a class-K line is made into a way that has become eligible, and presented as MemAck (R306). -/
def State.kpinFill (s : State) (p n : Nat) : State :=
  match s.slice p, s.tracker p n with
  | some sl, some t =>
    match t.acks.find? fun a => a.kind == .kFill true || a.kind == .kFill false, t.buf with
    | some a, some d =>
      let l := t.req.line
      let nib := t.nib.getD (s.nibNow 0b01)
      let k := (s.lineEnt sl l).kpin
      let e := if a.kind == .kFill true then s.writeDirty p l d nib t.poison k false t.ktag
        else s.fillClean p l d nib t.poison k t.pfFill
      if e.pend || (e.wid.isSome && !sl.wpqFits l) then s
      else
        let r := if e.ops.isEmpty then (e.s, none) else e.s.mirSend p e.ops
        let unp := sl.ident.unprot
        let put (x : Tracker) : Tracker :=
          { x with
            acks := x.acks ++ (match r.2 with | some u => [Ack.mk (.mirror u) false] | none => []) ++
              (match e.wid with | some w => if unp then [Ack.mk (.lineWrite w) false] else [] | none => []),
            held := x.held.map fun h => if h.fill then { h with mirror := r.2, write := if unp then e.wid else none } else h }
        (((r.1.modTrk p n put).deliverAck p n a).noteOcc p).settle p
    | _, _ => s
  | _, _ => s

/-- The buddy takes the oldest update a slice has sent with the slice's journal as it has left, stores it and acknowledges it
(R32, R313, R413). The link checks the beat (R404): one error is corrected and counted, two fail the link. -/
def State.mirrorUpdate (s : State) (p : Nat) : State :=
  match s.slice p, s.buddyOf p with
  | some sl, some b =>
    match sl.mir.link with
    | [] => s
    | u :: r =>
      let d := s.meetErr p .link none 7 fun _ => true
      if d.2 then d.1.linkFail p
      else
      let s1 := d.1.modSlice p fun x => { x with mir := { x.mir with link := r, acked := x.mir.acked ++ [u.uid] } }
      s1.modSlice b fun x =>
        let d := u.ops.foldl (fun a op => op.apply a.1 a.2) (x.mir.dirty, x.mir.wpq)
        { x with mir := { x.mir with dirty := d.1, wpq := d.2, jTrk := sl.trk, jHold := sl.hold } }
  | _, _ => s

/-! ### Preload (R314 to R316) -/

/-- Lines in the target ways. -/
def State.inTargets (s : State) (p : Nat) (sl : Slice) : Nat := (sl.msc.lines.filter fun x => s.wayTarget p (x.1 % 16)).length

/-- A line that the walk has ordered is still outstanding. -/
def Slice.preloading (sl : Slice) : Bool :=
  let mine (q : Req) : Bool := q.src == .preload && q.tag == 1
  (sl.trk.any fun t => mine t.req) || (sl.hold.any fun h => mine h.req)

/-- The walk ends or is stopped, when the lines that it has ordered are there (R315, R316; log 31). -/
def State.preloadEnd (s : State) (p : Nat) : State :=
  match s.slice p with
  | none => s
  | some sl =>
    if sl.preloading then s.modMsc p fun m => { m with pre := { m.pre with left := 0, clearing := none } }
    else s.modMsc p fun m => { m with pre := { m.pre with busy := false, done := true, clearing := none, loaded := s.inTargets p sl } }

/-- The next page of the range that is homed in the slice, and the pages left from it on; deciding the home takes no slot. -/
def State.nextHomed (s : State) (p : Nat) : (left : Nat) → (pg : Page) → Option (Page × Nat)
  | 0, _ => none
  | n + 1, pg => if s.homeSlice pg == some p then some (pg, n + 1) else State.nextHomed s p n (pg + 1)

/-- What the walk does with one line (R315); none where it waits for a maintenance tracker. -/
def State.preloadLine (s : State) (p : Nat) (sl : Slice) (l : LineAddr) : Option State :=
  let skip := s.modMsc p fun m => { m with pre := { m.pre with skipped := m.pre.skipped + 1 } }
  if !(s.lineEnt sl l).near then some skip
  else if (match sl.sfFind l with | some (_, e) => e.st == HState.e || e.st == HState.x | none => false) then some skip
  else
    let set := mscSet l
    match sl.mscFind l, s.targetSlot p sl set with
    | some (i, c), slot =>
      if s.wayTarget p (i % 16) then some s
      else if sl.msc.state != MscState.enabled then some skip
      else (match slot with
        | some w => some (s.modSlice p fun x => ((x.mscDel i).mscPut (set * 16 + w) c).mscTouch (set * 16 + w))
        | none => some skip)
    | none, some _ =>
      if sl.present l || sl.msc.state != MscState.enabled then some skip
      else if !sl.poolFree .maint then none
      else some ((s.present p (ownReq .memSpecRd .preload 1 l .p) .maint).settle p)
    | none, none => some skip

/-- One turn of the preload walk. -/
def State.preloadTurn (s : State) (p : Nat) : State :=
  match s.slice p with
  | none => s
  | some sl =>
    let pre := sl.msc.pre
    if !sl.live || !pre.busy then s
    else match pre.clearing with
      | some set =>
        let target (x : Nat × CLine) : Bool := s.wayTarget p x.1
        (match s.visitSet p set target target with
         | none => s
         | some s1 =>
           ((s1.modMsc p fun m => { m with pre := { m.pre with clearing := if set + 1 < 4096 then some (set + 1) else none } }).noteOcc p).settle p)
      | none =>
        match s.nextHomed p pre.left pre.page with
        | none => s.preloadEnd p
        | some (pg, left) =>
          let n := if pg = pre.page then pre.lineNo else 0
          match s.preloadLine p sl (pageLine pg n) with
          | none => s
          | some s1 =>
            let last := n = 63
            let s2 := s1.modMsc p fun m =>
              { m with pre := { m.pre with page := if last then pg + 1 else pg, left := if last then left - 1 else left,
                                           lineNo := if last then 0 else n + 1 } }
            if last && (s2.nextHomed p (left - 1) (pg + 1)).isNone then s2.preloadEnd p else s2

/-! ### Ways (R321, R322, R540) -/

/-- Enabled ways of the cache: not disabled, not retired, not being retired (R322). -/
def State.waysOn (s : State) (p : Nat) (sl : Slice) : Nat :=
  ((List.range 16).filter fun w => !s.mscDis p w && !bitAt sl.msc.auto w && !(sl.msc.retiring.any fun r => r.1 == w)).length

/-- A way whose count has reached THRESH is retired, or its retirement refused under MIN_WAYS. -/
def State.wayRetire (s : State) (p w : Nat) : State :=
  match s.slice p with
  | none => s
  | some sl =>
    let ctl := s.slReg p 0x120
    let thresh := fieldN ctl 24 8
    let least := clamp 4 16 (fieldN ctl 8 8)
    let gone := s.mscDis p w || bitAt sl.msc.auto w || sl.msc.retiring.any fun r => r.1 == w
    if !sl.live || 16 ≤ w || thresh = 0 || (kget w sl.msc.wayErr).getD 0 < thresh || gone then s
    else if s.waysOn p sl ≤ least then s.logEv 0x19 1 p w 0
    else s.modMsc p fun m => { m with retiring := m.retiring ++ [(w, 0, true)] }

/-- The window of the ways' error counts restarts (R321). -/
def State.errWindow (s : State) (p : Nat) : State :=
  let win := 65536 * max 1 (fieldN (s.slReg p 0x120) 16 8)
  if s.gl.move.toNat % win = 0 then s.modMsc p fun m => { m with wayErr := [] } else s

/-- A maintenance tracker that resolves an entry of a disabled way as a victim (R540, R134, R142, R108); it has no line of its
own. -/
def State.evictEntry (s : State) (p i : Nat) (v : Entry) : State :=
  match s.slice p with
  | none => s
  | some sl =>
    match lowestFree (sl.trk.map (·.num)) 192 with
    | none => s
    | some n =>
      let bi := !s.spillOn || v.kpin
      let t : Tracker := { newTracker n .maint (ownReq .memSpecRd .wayWalk 0 v.line .p) false with st := .lrW }
      let put (x : Slice) : Slice :=
        { x with trk := (x.trk.filter fun y => y.num < n) ++ [t] ++ (x.trk.filter fun y => n < y.num),
                 dir := { x.dir with sf := kdel i x.dir.sf } }
      let m : InMsg := { inp := .memSpecRd, vic := true, line := v.line }
      let r0 := Run.start (s.modSlice p put) p t m {} false
      let r1 := r0.startVictim v bi
      let w : Word := if bi then { bisnp := 0b101, rsnp := if v.amh then 0b100 else 0, next := 0x0B } else { next := 0x0C }
      let s1 := ((r1.s.modTrk p n fun _ => r1.t).applyWord p r1.t m w false).noteOcc p
      (match s1.tracker p n with | some t1 => State.pump (pumpFuel t1) s1 p n | none => s1)

/-- One turn of the snoop-filter way-disable walk (R540): the set's entries in disabled ways are resolved as victims, open ones
on the next pass; it stays at the set while no maintenance tracker is free. -/
def State.sfWalkTurn (s : State) (p : Nat) : State :=
  match s.slice p with
  | none => s
  | some sl =>
    match sl.dir.wdSet with
    | none => s
    | some set =>
      if !sl.live then s
      else
        let mine : List (Nat × Entry) := ((List.range 16).filter fun w => s.sfDis p w).filterMap fun w =>
          (sl.sfAt set w).map fun e => (w, e)
        let s1 := (mine.filter fun x => !x.2.opn).foldl (fun s x =>
          match s.slice p with
          | some y => if y.poolFree .maint then s.evictEntry p (set * 16 + x.1) x.2 else s
          | none => s) s
        match s1.slice p with
        | none => s1
        | some sl1 =>
          let still := mine.filter fun x => (sl1.sfAt set x.1).isSome
          if still.any fun x => !x.2.opn then s1.settle p
          else
            let left := still.foldl (fun b x => setBit b x.1 true) sl1.dir.wdLeft
            let f (d : DirSt) : DirSt :=
              if set + 1 < 32768 then { d with wdSet := some (set + 1), wdLeft := left }
              else
                let dis := (s.slReg p 0x024).extractLsb' 0 16
                { d with wdSet := if left = 0 then none else some 0, wdLeft := 0, empty := d.empty ||| (dis &&& ~~~left) }
            (s1.modSlice p fun x => { x with dir := f x.dir }).settle p

/-! ### The blindfold sweeper (R423, R424) -/

/-- The sweeper's trackers. -/
def Slice.sweepers (sl : Slice) : List Tracker := sl.trk.filter fun t => t.req.src == .sweeper

/-- Nibble of a line as the slice holds it: in the cache, the victim buffer or the WPQ. -/
def Slice.nibHere (sl : Slice) (l : LineAddr) : Option Nib := (sl.lineData l).map fun x => x.2.1

/-- Open a sweeper's tracker for a line; a nibble-only read is ordered where the slice does not hold its nibble. -/
def State.sweepOpen (s : State) (p : Nat) (l : LineAddr) : State :=
  match s.slice p with
  | none => s
  | some sl =>
    match lowestFree (sl.trk.map (·.num)) 192 with
    | none => s
    | some n =>
      let nib := sl.nibHere l
      let t : Tracker := { newTracker n .maint (ownReq .memSpecRd .sweeper 0 l .p) false with st := .isD, nib := nib, rdOut := nib.isNone }
      let s1 := s.modSlice p fun x => { x with trk := (x.trk.filter fun y => y.num < n) ++ [t] ++ (x.trk.filter fun y => n < y.num) }
      (if nib.isNone then s1.readLine p t (s.lineEnt sl l) l false else s1).noteOcc p

/-- Send a group's snoops (R423): BISnpCurBlk to every HID valid in the table whose snoop port is up, but for an HDM-H page
(R162), SnpCur for each line that needs it. A HID that is not Bound is taken as answering BIRspI (R169). -/
def State.sweepSnoop (s : State) (p : Nat) (ts : List Tracker) : State :=
  match s.slice p with
  | none => s
  | some sl =>
    let need := ts.filter fun t => s.sweepNeeds sl t
    let hs := (List.range s.hids.length).filter fun h => s.hidValid h && (s.snoopPort h).isSome &&
      (match s.hid h with | some x => x.st == .bound | none => false)
    let base := (ts.map fun t => t.req.line).headD 0 &&& ~~~(3 : LineAddr)
    let hs := if s.isHdmH (pageOf base) then [] else hs
    let s1 := hs.foldl (fun s h => s.sendBISnp p h base .cur 4 (some .p) false) s
    let s2 := ts.foldl (fun s t =>
      let ag := need.any fun x => x.num == t.num
      let outs : List ASnpOut := if ag then (List.range s.variant.agents).map fun q => ASnpOut.mk q t.req.line .cur else []
      let f (x : Tracker) : Tracker :=
        { x with snoopAll := true, hsnp := hs.map fun h => HSnpOut.mk h x.req.line .cur false, asnp := outs }
      let sa := s.modTrk p t.num f
      if ag then sa.sendRSnp p t.num .cur t.req.line false .sweeper false 0 false (some .p) else sa) s1
    -- Writebacks and evictions that wait in hold become side messages of the trackers that snoop their senders (R170).
    ts.foldl (fun s t =>
      match s.slice p with
      | none => s
      | some sl2 =>
        let isSide (h : HoldEnt) : Bool := match sl2.sideTrk h.req with | some x => x.num == t.num | none => false
        let mine := sl2.hold.filter isSide
        let sb := s.modSlice p fun x => { x with hold := x.hold.filter fun h => !isSide h }
        let sc := mine.foldl (fun s h => s.feed p t.num (sideMsg h.req false)) sb
        sc.sweepDone p t.num) s2

/-- The pages still to visit: the class-K pages, then the plain near pages of the range by frame (R423). Answers the page and
its frame. -/
def State.sweepPage (s : State) (b : Blind) : Option (Page × Option Nat) :=
  match b.kpages with
  | pg :: _ => some (pg, none)
  | [] =>
    (s.dir.frames.find? fun x => b.frame ≤ x.1 && s.homeOf x.2.page == b.log && s.entFrame (s.pageEnt x.2.page) == some x.1).map
      fun x => (x.2.page, some x.1)

/-- The sweeper has finished a range (R424). -/
def State.sweepEndRange (s : State) (p : Nat) (b : Blind) : State :=
  let s1 := (s.modSlice p fun x => { x with blind := x.blind.drop 1 }).logEv 0x05 0 p b.log 0
  if s1.slices.any fun x => !x.blind.isEmpty then s1 else s1.setHealth fun g => { g with blind := false }

/-- Pass to the next group, or past the page. -/
def Blind.next (b : Blind) (frame : Option Nat) : Blind :=
  if b.group < 15 then { b with group := b.group + 1, frame := match frame with | some f => f | none => b.frame }
  else match frame with
    | some f => { b with group := 0, frame := f + 1 }
    | none => { b with group := 0, kpages := b.kpages.drop 1 }

/-- One group of the sweeper (R423): a group whose nibbles are in is snooped or left, and the position passes it (its lines are
held by the sweeper's trackers until their holders are recorded); otherwise the next group is begun. -/
def State.sweepGroup (s : State) (p : Nat) : State :=
  match s.slice p with
  | none => s
  | some sl =>
    match sl.blind with
    | [] => s
    | b :: rest =>
      if !sl.live || sl.ident.adoptStall || s.eg.drainReq then s
      else
        let setB (x : Slice) (frame : Option Nat) : Slice := { x with blind := b.next frame :: rest }
        match s.sweepPage b with
        | none => s.sweepEndRange p b
        | some (pg, frame) =>
          let lines := (List.range 4).map fun i => pageLine pg (4 * b.group + i)
          let ts := sl.sweepers
          if !ts.isEmpty then
            if ts.any fun t => t.rdOut then s
            else if ts.all fun t => !t.snoopAll then
              if ts.any fun t => s.sweepNeeds sl t then ((s.sweepSnoop p ts).modSlice p fun x => setB x frame).settle p
              else (((ts.foldl (fun s t => s.retire p t.num) s)).modSlice p fun x => setB x frame).settle p
            else
              let s1 := (ts.filter fun t => t.hsnp.isEmpty && t.asnp.isEmpty).foldl (fun s t => s.sweepDone p t.num) s
              s1.settle p
          else if (sl.pmFind pg).isNone then s.pmRequest p pg
          else if !(s.pageEnt pg).near then s.modSlice p fun x => { x with blind := (Blind.next { b with group := 15 } frame) :: rest }
          else
            let known := lines.all fun l => match sl.nibHere l with
              | some n => !(s.nibCurrent (s.lineEnt sl l).game n && Nib.dir n == 0b01) || (sl.sfFind l).isSome
              | none => (sl.sfFind l).isSome
            if known then s.modSlice p fun x => setB x frame
            else if (lines.any fun l => (sl.holderTrk l).isSome || sl.lineWaits l) || 16 < sl.poolUsed .maint + sl.creditsOf .maint + 4 then s
            else (lines.foldl (fun s l => s.sweepOpen p l) s)

/-! ### Meanings -/

/-- PREFETCH_ACCEPT (R302). -/
def execPrefetchAccept (phys : Nat) (s : State) : Host.Outcome State Fault Refusal := .next (s.prefetchAccept phys)
/-- WRITEBACK_WALK_TURN (R310). -/
def execWritebackWalkTurn (phys : Nat) (s : State) : Host.Outcome State Fault Refusal := .next (s.writebackTurn phys)
/-- CACHE_DRAIN_WALK_TURN (R320). -/
def execCacheDrainWalkTurn (phys : Nat) (s : State) : Host.Outcome State Fault Refusal := .next (s.cacheDrainTurn phys)
/-- VICTIM_TO_WPQ (R305). -/
def execVictimToWpq (phys entry : Nat) (s : State) : Host.Outcome State Fault Refusal := .next (s.victimToWpq phys entry)
/-- WPQ_ISSUE (R308). -/
def execWpqIssue (phys : Nat) (s : State) : Host.Outcome State Fault Refusal := .next (s.wpqIssue phys)
/-- PENDING_KPIN_FILL (R306). -/
def execPendingKpinFill (phys trk : Nat) (s : State) : Host.Outcome State Fault Refusal := .next (s.kpinFill phys trk)
/-- MIRROR_UPDATE: the update is that of slice `phys`, taken by its buddy (R313). -/
def execMirrorUpdate (phys : Nat) (s : State) : Host.Outcome State Fault Refusal := .next (s.mirrorUpdate phys)
/-- PRELOAD_WALK_TURN (R315). -/
def execPreloadWalkTurn (phys : Nat) (s : State) : Host.Outcome State Fault Refusal := .next (s.preloadTurn phys)
/-- WAY_RETIRE (R321). -/
def execWayRetire (phys way : Nat) (s : State) : Host.Outcome State Fault Refusal := .next (s.wayRetire phys way)
/-- ERROR_WINDOW_RESTART (R321). -/
def execErrorWindowRestart (phys : Nat) (s : State) : Host.Outcome State Fault Refusal := .next (s.errWindow phys)
/-- SF_WAY_DISABLE_WALK (R540). -/
def execSfWayDisableWalk (phys : Nat) (s : State) : Host.Outcome State Fault Refusal := .next (s.sfWalkTurn phys)
/-- BLINDFOLD_SWEEP_GROUP (R423). -/
def execBlindfoldSweepGroup (phys : Nat) (s : State) : Host.Outcome State Fault Refusal := .next (s.sweepGroup phys)
/-- DRAIN_WALK_TURN (R382). -/
def execDrainWalkTurn (phys : Nat) (s : State) : Host.Outcome State Fault Refusal := .next (s.drainTurn phys)

end Sys2Proof.Machine
end

