-- ==== Sys2Proof/Machine/Director.lean ====
section
/-! DEFINITION. Messages between the slices and the director: entries filled and updated, clean commands, heat, and the responses
of the tier engines (10 R334, R335, R348, R354; 18 R557). -/

namespace Sys2Proof.Machine

open Sys2Proof

/-- Act on a message that is under way, which is thereby taken; nothing happens where it is not. -/
def State.onMsg (s : State) (m : NMsg) (f : State → State) : State := if s.net.contains m then f (s.takeMsg m) else s

/-! ### The page-map cache (R334, R335) -/

/-- The page-map cache way a fill takes: the page's own, a free one, else the least recently used one that holds no class-K page
(R334). -/
def Slice.pmWay (sl : Slice) (pg : Page) : Option Nat :=
  let set := pmSet pg
  let soft (w : Nat) : Bool := match kget (set * 8 + w) sl.pm with | some x => !x.ent.kpin | none => true
  match sl.pmFind pg with
  | some (i, _) => if i / 8 = set then some (i % 8) else none
  | none =>
    match (List.range 8).find? fun w => (kget (set * 8 + w) sl.pm).isNone with
    | some w => some w
    | none => plruPick 3 sl.pmPlru set soft

/-- Install an entry in a slice; the heat of the way it evicts goes to the director (R334). KLINE of the page's lines follows it
(R295). -/
def State.pmInstall (s : State) (p : Nat) (pg : Page) (e : PEnt) (w : Nat) : State :=
  match s.slice p with
  | none => s
  | some sl =>
    let i := pmSet pg * 8 + w
    let s1 := s.modSlice p fun x => (({ x with pm := kset i ⟨pg, e, 0⟩ x.pm }).pmTouch i).kFollow pg e.kpin
    match kget i sl.pm with
    | some o => if o.page == pg then s1 else s1.send (.heat p o.page o.heat)
    | none => s1

/-- Lookups that waited for a page's entry are repeated, in ascending tracker number (R335). -/
def State.pmWake (s : State) (p : Nat) (pg : Page) : State :=
  match s.slice p with
  | none => s
  | some sl =>
    (sl.trk.filter fun t => t.pmWait && pageOf t.req.line == pg).foldl (fun s t => s.lookupPump p t.num) s

/-- An entry read for a slice arrives (R335): a read overtaken by an update is made again; a corrupt entry is rewritten first
(R332). With every way of the set held by class-K pages the lookups use the entry without its being kept (R105). -/
def State.pageMapFill (s : State) (p : Nat) (pg : Page) (ue : Bool) : State :=
  if !s.chunkIn pg then s
  else s.onMsg (.pmRead p pg) fun s =>
    match s.slice p with
    | none => s
    | some sl =>
      match sl.pmOut.find? fun x => x.1 == pg with
      | none => s
      | some (_, again) =>
        if !sl.live then s.send (.pmRead p pg)
        else if again then
          (s.modSlice p fun x => { x with pmOut := x.pmOut.map fun y => if y.1 == pg then (pg, false) else y }).send (.pmRead p pg)
        else
          let s1 := (s.modSlice p fun x => { x with pmOut := x.pmOut.filter fun y => y.1 != pg }).kpLoaded p pg
          let s2 := if ue || s1.entBad pg then s1.rewriteCorrupt pg else s1
          let e := s2.pageEnt pg
          match sl.pmWay pg with
          | some w => ((s2.pmInstall p pg e w).pmWake p pg).settle p
          | none =>
            let tmp := 65536 + pmSet pg
            let s3 := (s2.modSlice p fun x => { x with pm := kset tmp ⟨pg, e, 0⟩ x.pm }).pmWake p pg
            (s3.modSlice p fun x => { x with pm := kdel tmp x.pm }).settle p

/-- An entry update reaches the home slice (R335): a cached copy is replaced, a fill under way discarded; KLINE of the page's
lines follows it (R295). -/
def State.pageMapUpdate (s : State) (pg : Page) : State :=
  s.onMsg (.entry pg) fun s =>
    match s.homeSlice pg with
    | none => s
    | some h =>
      let e := s.pageEnt pg
      let put (x : Nat × PmWay) : Nat × PmWay := if x.2.page == pg then (x.1, { x.2 with ent := e }) else x
      let out (x : Page × Bool) : Page × Bool := if x.1 == pg then (pg, true) else x
      s.modSlice h fun sl => ({ sl with pm := sl.pm.map put, pmOut := sl.pmOut.map out }).kFollow pg e.kpin

/-- Every way's heat is halved, once a period (R348). -/
def State.heatDecay (s : State) : State :=
  let cool (x : Nat × PmWay) : Nat × PmWay := (x.1, { x.2 with heat := x.2.heat >>> 1 })
  if !s.dctl.decayDue then s
  else { s with dctl := { s.dctl with decayDue := false },
                slices := s.slices.map fun sl => { sl with pm := sl.pm.map cool } }

/-! ### The clean command (R354) -/

/-- A clean command at its slice: DIRTY goes from the cached copy, and in the same cycle the page's dirty lines go to the WPQ,
valid and clean; the slice acknowledges when the page's WPQ entries have been written. The command waits while the WPQ has too few
free entries. -/
def State.cleanAt (s : State) (p : Nat) (pg : Page) : State :=
  match s.slice p with
  | none => s
  | some sl =>
    let ls := sl.msc.lines.filter fun x => x.2.dirty && pageOf x.2.line == pg
    let vs := sl.msc.vb.filter fun v => !v.inWpq && pageOf v.cl.line == pg
    if !sl.live || sl.wpqRoom < ls.length + vs.length then s
    else s.onMsg (.clean p pg) fun s =>
      let put (x : Nat × PmWay) : Nat × PmWay := if x.2.page == pg then (x.1, { x.2 with ent := { x.2.ent with dirty := false } }) else x
      let s1 := s.modSlice p fun x => { x with pm := x.pm.map put }
      let s2 := ls.foldl (fun s x => s.writeBack p x.1 x.2) s1
      let s3 := vs.foldl (fun s v => s.victimToWpq p v.num) s2
      match s3.slice p with
      | none => s3
      | some sl3 =>
        let ids := (sl3.msc.wpq.filter fun w => pageOf w.line == pg).map fun w => w.wid
        (((s3.modSlice p fun x => { x with quiesce := x.quiesce ++ [(pg, ids, true)] }).quiesceKick p).noteOcc p).settle p

/-! ### Tier-engine responses (R557) -/

/-- Act on the response to a tier-engine command under an issued CTAG: the CTAG frees, and a reserved status is logged. -/
def State.onTe (s : State) (t : Nat) (st : BitVec 4) (f : TeCmd → State → State) : State :=
  match (if t < 256 then s.teCmd t else none) with
  | none => s
  | some c => f c ((s.teFree t).teStatus st)

/-- A copy or decompression into a frame has ended (R340, R398). -/
def State.copyDone (s : State) (t : Nat) (st : BitVec 4) : State :=
  match s.teCmd t with
  | some ⟨_, .copyToFrame .., .restart p f poison⟩ => s.onTe t st fun _ s => s.restartCopied p f poison
  | some ⟨_, .copyToFrame .., .none⟩ => promo
  | some ⟨_, .decompToFrame .., .none⟩ => promo
  | _ => s
where
  /-- The command of a promotion. -/
  promo : State :=
    match s.moveByTag t [.copy] with
    | some m => s.onTe t st fun _ s => s.promotionCopied m st
    | none => s.onTe t st fun _ s => s

/-- A compression has ended (R345); one that a flush has ended is the flush's concern (R343). -/
def State.compressDone (s : State) (t : Nat) (st : BitVec 4) (len : Nat) : State :=
  match s.teCmd t with
  | some ⟨_, .compress .., _⟩ =>
    (match s.moveByTag t [.compress] with
     | some m => s.onTe t st fun _ s => s.compressed m st len
     | none => s.onTe t st fun _ s => s)
  | _ => s

/-- The compressor has answered a flush (R343); the answer to a discard comes here too and frees its CTAG (log 34). -/
def State.flushAnswer (s : State) (t : Nat) (st : BitVec 4) : State :=
  match s.teCmd t with
  | some ⟨_, .flush _, _⟩ => (s.flushDone t).onTe t st fun _ s => s
  | some ⟨_, .discard _, _⟩ => s.onTe t st fun _ s => s
  | _ => s

/-- A slot write has ended (R342). -/
def State.storeDone (s : State) (t : Nat) (st : BitVec 4) : State :=
  match s.teCmd t with
  | some ⟨_, .storeSlot .., _⟩ =>
    (match s.moveByTag t [.store] with
     | some m => s.onTe t st fun _ s => s.slotStored m st
     | none => s.onTe t st fun _ s => s)
  | _ => s

/-- The migration buffer has taken or declined a clean victim; either way the line is gone (R304). -/
def State.offerDone (s : State) (t : Nat) (st : BitVec 4) : State :=
  match s.teCmd t with
  | some ⟨_, .offerVictim .., _⟩ => s.onTe t st fun _ s => s
  | _ => s

/-- A copy of a cleaned frame has ended (R354). -/
def State.cleanCopied (s : State) (t : Nat) (st : BitVec 4) : State :=
  match s.teCmd t, s.dir.cleaning.find? fun c => c.copying && c.ctag == t with
  | some ⟨_, .copyToPersist .., _⟩, some c => s.onTe t st fun _ s => s.cleaned c st
  | _, _ => s

/-- A copy of a demoted frame to the persistent tier has ended (R342). -/
def State.persistDone (s : State) (t : Nat) (st : BitVec 4) : State :=
  match s.teCmd t, s.moveByTag t [.persist] with
  | some ⟨_, .copyToPersist .., _⟩, some m => s.onTe t st fun _ s => s.demotedToPersist m st
  | _, _ => s

/-- A decompression of an evicted slot has ended (R338). -/
def State.evictDone (s : State) (t : Nat) (st : BitVec 4) : State :=
  match s.teCmd t, s.moveByTag t [.persist] with
  | some ⟨_, .decompToPersist .., _⟩, some m => s.onTe t st fun _ s => s.evicted m st
  | _, _ => s

/-- The persistent tier acknowledges a write of the block (R394); a write it could not make is sent again (log 33). -/
def State.writeAcked (s : State) (t : Nat) (st : BitVec 4) : State :=
  match s.teCmd t with
  | some ⟨_, .persistWrite a ls, use⟩ =>
    s.onTe t st fun _ s =>
      if st != 0 then (s.teSend (.persistWrite a ls) use).1
      else match use with
        | .rootWrite => s.rootWritten
        | _ => s
  | _ => s

/-- A persistent read of the block has returned (R396, R398). -/
def State.readReturned (s : State) (t : Nat) (st : BitVec 4) (ls : List PLine) : State :=
  match s.teCmd t with
  | some ⟨_, .persistRead .., .rootHdr second⟩ => s.onTe t st fun _ s => s.headerRead second st ls
  | some ⟨_, .persistRead .., .rootPins second⟩ => s.onTe t st fun _ s => s.pinsRead second st ls
  | some ⟨_, .persistRead .., .manifestRead first⟩ => s.onTe t st fun _ s => (s.manifestRead first ls).reconcile
  | _ => s

/-- The save engine has finished a manifest page (R384). -/
def State.saveDone (s : State) (t : Nat) (st : BitVec 4) : State :=
  match s.teCmd t with
  | some ⟨_, .savePage _ _ _ poison, .save i⟩ => s.onTe t st fun _ s => s.pageSaved i st s.eg.causes.shutdown poison
  | _ => s

/-- A chunk of the page map is loaded, in its turn (R337): its pinned pages are promoted, the restart goes on. -/
def State.chunkLoad (s : State) (n : Nat) (pins : List (Page × BitVec 3)) : State :=
  if s.gl.phase.toNat != 4 && s.gl.phase.toNat != 5 then s
  else if (kget n s.dir.loaded).isSome || s.chunkCount ≤ n || !s.chunkTurn n then s
  else ((s.loadChunk n pins).promotePinned (pins.filter fun x => chunkOf x.1 == n)).reconcile

end Sys2Proof.Machine
end

