-- ==== Sys2Proof/Machine/Hints.lean ====
section
/-! DEFINITION. Hints: rings and their slots, results, pins, page lists (10 R357 to R365, 15 R499, R500). -/

namespace Sys2Proof.Machine

open Sys2Proof

/-! ### Slots and results (R359, R360, R365) -/

/-- Byte k of a line. -/
def lineByte (l : Line) (k : Nat) : Nat := fieldN l (8 * k) 8

/-- Line of a ring slot, or of a result slot (R359). -/
def State.ringLine (s : State) (ring slot : Nat) (result : Bool) : Option LineAddr :=
  s.hintWindow.map fun w =>
    BitVec.ofNat 42 (w.firstPage * 64 + ring * 64 + slot + if result then 0x100000 else 0)

/-- OPC of a slot. -/
def slotOpc (l : Line) : Nat := lineByte l 0
/-- FLAGS.RESULT. -/
def slotResult (l : Line) : Bool := bitAt l 8
/-- COUNT. -/
def slotPages (l : Line) : Nat := fieldN l 32 32
/-- The n-th page of the hint. -/
def slotPage (l : Line) (n : Nat) : Page := l.extractLsb' 64 36 + BitVec.ofNat 36 n
/-- ARG. -/
def slotArg (l : Line) : BitVec 2 := l.extractLsb' 128 2
/-- OWN. -/
def slotOwn (l : Line) : Bool := bitAt l 504

/-- The status with which a slot is refused before any page (R360, R361, R365). -/
def slotRefused (l : Line) (priv : Bool) : Option (BitVec 8) :=
  let opc := slotOpc l
  let n := slotPages l
  if opc = 0 || 8 ≤ opc then some 0x02
  else if fieldN l 9 7 != 0 || n = 0 || 65536 < n || fieldN l 100 28 != 0 || fieldN l 130 6 != 0 || l.extractLsb' 136 368 != 0 ||
      fieldN l 505 7 != 0 || (opc = 7 && n != 1) then some 0x03
  else if !priv && (opc = 6 || (opc = 1 && slotArg l = 0)) then some 0x0A
  else none

/-- The result line (R365): status, SEQ, RSEQ, pages acted on, the page that stopped the hint, ENTRY. -/
def resultLine (slot : Line) (st : BitVec 8) (rseq : W32) (done : Nat) (entry : W64) : Line :=
  (0 : BitVec 320) ++ entry ++ BitVec.ofNat 32 (if st = 0 then 0 else done) ++ BitVec.ofNat 32 done ++ rseq ++
    slot.extractLsb' 16 16 ++ st ++ (1 : BitVec 8)

/-- The director's read or write of a slot or result at its home slice (R364, R88): taken with a maintenance tracker, else a
shared one. None while the home takes no new work or has no tracker or hold entry free. -/
def State.dirAccess (s : State) (kind : Inp) (tag : Nat) (l : LineAddr) (d : Line) : Option State :=
  match s.targetOf l with
  | none => none
  | some p =>
    match s.slice p with
    | none => none
    | some sl =>
      let q : Req := { ownReq kind .director tag l .p with data := d, be := BitVec.allOnes 64 }
      if !s.takesNew sl q || !sl.holdFree || !(sl.poolFree .maint || sl.poolFree .shared) then none
      else some ((s.present p q (if sl.poolFree .maint then .maint else .shared)).settle p)

/-! ### Pins (R106, R357, R358) -/

/-- Set of class-K pages pinned whose home a slice is. -/
def State.kpinsAt (s : State) (h : Nat) : List Page :=
  s.kpinList.filter fun p => s.homeSlice p == some h

/-- The status with which the pin of a page is refused (R357, R356). -/
def State.pinRefused (s : State) (p : Page) (arg : BitVec 2) : Option (BitVec 8) :=
  let e := s.pageEnt p
  if !e.pinned && s.pinLimit ≤ s.pinnedFrames then some 0x09
  else if arg != 0 || e.kpin then none
  else
    match s.homeSlice p with
    | none => none
    | some h =>
      let ks := s.kpinsAt h
      if 16384 ≤ ks.length || 6 ≤ (ks.filter fun q => pmSet q == pmSet p).length then some 0x05
      else if !s.mscEnable h then some 0x06
      else if s.dctl.pinRefuse || s.budgetPages < s.kpinned + 1 + 262144 then some 0x07
      else none

/-- The line of the persistent page map that holds a page's CLASSPIN, as it is to be written (R336). -/
def State.pmapLine (s : State) (p : Page) : Line :=
  (List.range 8).foldl (fun l i =>
    let k := p.toNat / 8 * 8 + i
    l ||| (((kget k s.dir.classPins).getD 0).setWidth 512 <<< (64 * i + 15))) 0

/-- Give a page a CLASSPIN (R357, R358, R336): the entry, its home's copy, and the persistent write. -/
def State.setPin (s : State) (p : Page) (cp : BitVec 3) : State :=
  let pins := if cp = 0 then kdel p.toNat s.dir.classPins else kset p.toNat cp s.dir.classPins
  let s1 := { s with dir := { s.dir with classPins := pins } }.modEnt p fun e => { e with classPin := cp }
  (s1.teSend (.persistWrite (s.cfg.pmapPbase + p.toNat / 8 * 64) [s1.pmapLine p]) (.pinWrite p)).1.checkBudget

/-- The pin of a near page: the steps of R106 and R355 for class K, then its CLASSPIN. -/
def State.pinPage (s : State) (p : Page) (arg : BitVec 2) : State :=
  if arg = 0 then (((s.stampPage p).pinDirty p).setPin p 0b100).installPm p else s.setPin p (0b1#1 ++ arg)

/-- A write of a page's CLASSPIN is outstanding. -/
def State.pinWriting (s : State) (p : Page) : Bool :=
  s.dctl.te.any fun c => match c.use with | .pinWrite q => q == p | _ => false

/-! ### One page of a hint (R361) -/

/-- What becomes of the page of a hint: done, the hint stops, or the page is at a stage with its count of lines begun. -/
inductive HintOut where
  | done
  | stop (st : BitVec 8)
  | at (stage : HintStage) (lines : Nat)

/-- Ask for a promotion, if a move may start and a frame is free. -/
def State.hintPromote (s : State) (p : Page) : State × HintOut :=
  if s.moveRoom && (s.homeSlice p).isSome then
    let s1 := s.startHintPromotion p
    (s1, .at (if (s1.moveOf p).isSome then .moving else .page) 0)
  else (s, .at .page 0)

/-- Begin the page. -/
def State.hintBegin (s0 : State) (op : Nat) (arg : BitVec 2) (p : Page) : State × HintOut :=
  let s := if s0.chunkIn p && (s0.moveOf p).isNone then s0.readEnt p else s0
  let e := s.pageEnt p
  if (s.windowOf p).isNone then (s, .stop 0x04)
  else if !s.chunkIn p || (s.moveOf p).isSome || s.pwr.phase != .p0 || s.pwr.warm || s.gl.phase.toNat != 5 then (s, .at .page 0)
  else
    match op with
    | 1 =>
      if (s.homeSlice p).isNone || s.dir.cleaning.any fun c => c.page == p then (s, .at .page 0)
      else match s.pinRefused p arg with
        | some st => (s, .stop st)
        | none => if e.near then (s, .at .pinning 0) else s.hintPromote p
    | 2 => if e.pinned then (s.setPin p (if e.kpin then 0 else e.classPin &&& 0b011), .at .pinWrite 0) else (s, .done)
    | 3 => if e.near then (s, .done) else s.hintPromote p
    | 4 =>
      if e.pinned then (s, .stop 0x08)
      else if s.dir.cleaning.any fun c => c.page == p then (s, .at .page 0)
      else if !e.near then (s, .done)
      else if s.moveRoom && (s.homeSlice p).isSome then (s.startDemotion p true, .at .moving 0) else (s, .at .page 0)
    | 5 => if e.near then (s, .at .prefetch 0) else s.hintPromote p
    | 6 => if e.pinned then (s, .stop 0x08) else (s.setPin p (0b0#1 ++ arg), .at .pinWrite 0)
    | _ => (s, .done)

/-- A page's move has ended. -/
def State.hintMoved (s : State) (op : Nat) (p : Page) : HintOut :=
  let near := (s.pageEnt p).near
  match op with
  | 1 => if near then .at .pinning 0 else .at .page 0
  | 3 => if near then .done else .at .page 0
  | 5 => if near then .at .prefetch 0 else .at .page 0
  | _ => .done

/-- Fill one line of a page under the rules of R161 (R361, PREFETCH); none while its home has no tracker for it. -/
def State.hintFill (s : State) (l : LineAddr) : Option State :=
  match s.targetOf l with
  | none => none
  | some p =>
    match s.slice p with
    | none => none
    | some sl =>
      let q := ownReq .memSpecRd .preload 0 l .p
      if !s.takesNew sl q || !sl.holdFree || !sl.poolFree .maint then none else some ((s.present p q .maint).settle p)

/-- One step of a hint on a page. -/
def State.hintStep (s : State) (op : Nat) (arg : BitVec 2) (p : Page) (stage : HintStage) (lines : Nat) : State × HintOut :=
  match stage with
  | .page => s.hintBegin op arg p
  | .moving => if (s.moveOf p).isSome then (s, .at .moving 0) else (s, s.hintMoved op p)
  | .pinning =>
    if !(s.pageEnt p).near || (s.moveOf p).isSome then (s, .at .page 0)
    else (match s.pinRefused p arg with
      | some st => (s, .stop st)
      | none => (s.pinPage p arg, .at .pinWrite 0))
  | .pinWrite => if op = 1 || s.pinWriting p then (s, .at .pinWrite 0) else (s, .done)
  | .pinned => (s, .done)
  | .prefetch =>
    if 64 ≤ lines then (s, .done)
    else (match s.hintFill (pageLine p lines) with
      | some s1 => (s1, .at .prefetch (lines + 1))
      | none => (s, .at .prefetch lines))
  | st => (s, .at st lines)

/-! ### Rings (R361 to R365) -/

/-- Tags of the director's accesses for a ring: the read of a slot, the result, the write of the slot. -/
def ringTag (ring k : Nat) : Nat := 4 * ring + k

/-- Take a completed access. -/
def State.takeDone (s : State) (tag : Nat) : Option (Option Line × State) :=
  (kget tag s.dctl.slotDone).map fun d => (d, { s with dctl := { s.dctl with slotDone := kdel tag s.dctl.slotDone } })

/-- The ring's next result sequence number (R365). -/
def nextRseq (r : W32) : W32 := if r = 0xFFFFFFFF then 1 else r + 1

/-- A hint ends: a result is due, or the slot is handed back at once. -/
def HintCtx.finish (c : HintCtx) (st : BitVec 8) : HintCtx :=
  { c with status := st, entry := if slotOpc c.line = 5 then 0 else c.entry, stage := if slotResult c.line then .result else .slotWrite }

/-- One step of a ring's hint; none: the ring needs nothing more. -/
def State.ctxStep (s : State) (c : HintCtx) : State × Option HintCtx :=
  match c.stage with
  | .read =>
    if !s.ringOn c.ring then (s, none)
    else (match (s.ringLine c.ring c.slot false).bind fun l => s.dirAccess .memRd (ringTag c.ring 0) l 0 with
      | some s1 => (s1, some { c with stage := .readWait })
      | none => (s, some c))
  | .readWait => (s, some c)
  | .result =>
    let r := nextRseq ((kget c.ring s.dctl.rseqs).getD 0)
    (match (s.ringLine c.ring c.slot true).bind fun l =>
        s.dirAccess .memWr (ringTag c.ring 1) l (resultLine c.line c.status r c.idx c.entry) with
      | some s1 => ({ s1 with dctl := { s1.dctl with rseqs := kset c.ring r s1.dctl.rseqs } }, some { c with stage := .resultWait })
      | none => (s, some c))
  | .resultWait => (match s.takeDone (ringTag c.ring 1) with
      | some (_, s1) => (s1, some { c with stage := .slotWrite })
      | none => (s, some c))
  | .slotWrite =>
    (match (s.ringLine c.ring c.slot false).bind fun l => s.dirAccess .memWr (ringTag c.ring 2) l (setBit c.line 504 false) with
      | some s1 => (s1, some { c with stage := .slotWait })
      | none => (s, some c))
  | .slotWait => (match s.takeDone (ringTag c.ring 2) with
      | some (_, s1) =>
        let h : BitVec 6 := BitVec.ofNat 6 (c.slot + 1)
        ({ s1 with dctl := { s1.dctl with heads := kset c.ring h s1.dctl.heads } },
         some { c with slot := h.toNat, idx := 0, status := 0, entry := 0, line := 0, stage := .read })
      | none => (s, some c))
  | st =>
    let op := slotOpc c.line
    let p := slotPage c.line c.idx
    if st = .page && slotPages c.line ≤ c.idx then (s, some (c.finish 0))
    else if st = .page && 2 ^ 36 ≤ fieldN c.line 64 36 + c.idx then (s, some ({ c with entry := 0 }.finish 0x04))
    else
      let r := s.hintStep op (slotArg c.line) p st c.entry.toNat
      match r.2 with
      | .done =>
        let e := s.pageEnt p
        let shown : W64 := if op = 7 then { e with frame := 0 }.bits else 0
        (r.1, some { c with idx := c.idx + 1, stage := .page, entry := shown })
      | .stop x => (r.1, some ({ c with entry := 0 }.finish x))
      | .at x n => (r.1, some { c with stage := x, entry := BitVec.ofNat 64 n })

/-- Go on with a ring's hint until it waits. -/
def State.ctxRun : (fuel : Nat) → State → HintCtx → State × Option HintCtx
  | 0, s, c => (s, some c)
  | n + 1, s, c =>
    match s.ctxStep c with
    | (s1, none) => (s1, none)
    | (s1, some c1) => if c1 = c then (s1, some c) else State.ctxRun n s1 c1

/-- Hint contexts in use: the rings acted on and a running list (R364, R500). -/
def State.ctxsUsed (s : State) : Nat := s.dctl.ctxs.length + n1 s.dctl.list.busy

/-- Take up rings whose doorbells wait, round robin, while contexts are free (R364). -/
def State.takeBells : (fuel : Nat) → State → State
  | 0, s => s
  | n + 1, s =>
    let free (r : Nat) : Bool := !(s.dctl.ctxs.any fun c => c.ring == r)
    let due := s.dctl.bells.filter free
    let least (l : List Nat) : Option Nat := l.find? fun r => l.all fun x => r ≤ x
    if 64 ≤ s.ctxsUsed then s
    else match (match least (due.filter fun r => s.dctl.ringNext ≤ r) with | some r => some r | none => least due) with
      | none => s
      | some r =>
        let head := ((kget r s.dctl.heads).getD 0).toNat
        let c : HintCtx := ⟨r, head, 0, 0, .read, 0, 0⟩
        State.takeBells n
          { s with dctl := { s.dctl with bells := s.dctl.bells.filter fun x => x != r, ringNext := r + 1, ctxs := s.dctl.ctxs ++ [c] } }

/-- Go on with every ring acted on. -/
def State.ringsRun (s : State) : State :=
  (s.dctl.ctxs.map (·.ring)).foldl (fun s r =>
    match s.dctl.ctxs.find? fun c => c.ring == r with
    | none => s
    | some c =>
      let x := s.ctxRun 70000 c
      let put (y : HintCtx) : Option HintCtx := if y.ring == r then x.2 else some y
      { x.1 with dctl := { x.1.dctl with ctxs := x.1.dctl.ctxs.filterMap put } }) s

/-- A ring's doorbell (R363). -/
def State.addBell (s : State) (r : Nat) : State :=
  if s.dctl.bells.contains r then s else { s with dctl := { s.dctl with bells := s.dctl.bells ++ [r] } }

/-! ### Page lists (R499, R500) -/

/-- Change the page list. -/
def State.modList (s : State) (f : PList → PList) : State := { s with dctl := { s.dctl with list := f s.dctl.list } }

/-- The list ends: DONE is set and INT_PLACE requested; reads still outstanding are no longer wanted. -/
def State.listEnd (s : State) (st : BitVec 8) : State :=
  let s1 := s.modList fun l =>
    { l with busy := false, done := true, status := st, cur := none, stage := .page, lines := 0, entries := [], stopping := none,
             reads := l.reads.map fun r => (r.1, r.2.1, false) }
  { s1 with dctl := { s1.dctl with listInt := true } }

/-- The list is to stop after the current page. -/
def State.listStop (s : State) (st : BitVec 8) : State :=
  if s.dctl.list.busy then s.modList fun l => { l with stopping := match l.stopping with | some x => some x | none => some st }
  else s

/-- Order reads of the list, at most eight at once, with tags the loader does not hold (R498, R500); without bus mastering a read
ends at once as an error (R499). -/
def State.listReads : (fuel : Nat) → State → State
  | 0, s => s
  | n + 1, s =>
    let l := s.dctl.list
    let tags := (match s.ld.fetch with | some f => f.tags | none => []) ++ l.reads.map (·.1)
    if !l.busy || l.stopping.isSome || l.count ≤ l.next || 8 ≤ (l.reads.filter fun r => r.2.2).length then s
    else if !s.pins.mstEn then s.listStop 0x0B
    else match lowestFree tags 32 with
      | none => s
      | some t => State.listReads n (s.modList fun l => { l with reads := l.reads ++ [(t, l.next, true)], next := l.next + 8 })

/-- One step of a running list. -/
def State.listStep (s : State) : State :=
  let l := s.dctl.list
  let k := l.pages.toNat
  if !l.busy then s
  else match l.cur with
    | none =>
      match l.stopping with
      | some st => s.listEnd st
      | none =>
        if l.count ≤ k then s.listEnd 0
        else match kget k l.entries with
          | none => s
          | some e =>
            if e.extractLsb' 36 28 != 0 then s.listEnd 0x03
            else s.modList fun l => { l with cur := some (e.extractLsb' 0 36), stage := .page, lines := 0, entries := kdel k l.entries }
    | some p =>
      let r := s.hintStep l.op.toNat l.arg p l.stage l.lines
      match r.2 with
      | .done => r.1.modList fun l => { l with cur := none, stage := .page, lines := 0, pages := l.pages + 1 }
      | .stop st => r.1.listEnd st
      | .at x n => r.1.modList fun l => { l with stage := x, lines := n }

/-- Go on with the list until it waits; it takes its place among the hint contexts first (R500). -/
def State.listRun : (fuel : Nat) → State → State
  | 0, s => s
  | n + 1, s =>
    if 64 < s.ctxsUsed then s
    else
      let s1 := (s.listReads 8).listStep
      if s1.dctl.list = s.dctl.list then s1 else State.listRun n s1

/-- A write of PD_LIST_CTL.START (R500): OPC, ARG and COUNT are those of the register. -/
def State.listStart (s : State) (addr : BitVec 64) (opc : Nat) (arg : BitVec 2) (count : Nat) : State :=
  if s.dctl.list.busy then { s with dctl := { s.dctl with cfgErr := satInc s.dctl.cfgErr } }
  else
    let s1 := s.modList fun l =>
      { l with busy := true, pages := 0, addr := addr &&& ~~~(63 : BitVec 64), count := count, op := BitVec.ofNat 3 opc, arg := arg,
               next := 0, entries := [], cur := none, stage := .page, lines := 0, stopping := none }
    if opc = 0 || 7 ≤ opc then s1.listEnd 0x02 else if count = 0 then s1.listEnd 0x03 else s1

/-- Entries read are kept until they are acted on. -/
def State.listRead (s : State) (tag : Nat) (lines : List Line) : State :=
  match s.dctl.list.reads.find? fun r => r.1 == tag with
  | none => s
  | some (_, first, wanted) =>
    let s1 := s.modList fun l => { l with reads := l.reads.filter fun r => r.1 != tag }
    if !wanted then s1
    else
      let d := lines.headD 0
      s1.modList fun l =>
        { l with entries := (List.range 8).foldl (fun es i => if first + i < l.count then kset (first + i) (d.extractLsb' (64 * i) 64) es else es)
                   l.entries }

/-- A master read of the list has ended without data. -/
def State.listReadError (s : State) (tag : Nat) : State :=
  match s.dctl.list.reads.find? fun r => r.1 == tag with
  | none => s
  | some (_, _, wanted) =>
    let s1 := s.modList fun l => { l with reads := l.reads.filter fun r => r.1 != tag }
    if wanted then s1.listStop 0x0B else s1

/-! ### The director goes on (log 32) -/

/-- The director goes on with what waits: pinned pages found in loaded chunks, the list, the rings. -/
def State.hintSettle (s : State) : State :=
  let pins : List (Page × BitVec 3) := (s.dir.classPins.filter fun x => s.chunkIn (BitVec.ofNat 36 x.1)).map fun x => (BitVec.ofNat 36 x.1, x.2)
  (((s.promotePinned pins).listRun 10000).takeBells 64).ringsRun

/-- A ring slot that has been read (R361, R362): with OWN 0 the ring needs nothing more; otherwise its hint begins. -/
def State.hintSlot (s : State) (r : Nat) : State :=
  match s.dctl.ctxs.find? fun c => c.ring == r && c.stage == .readWait with
  | none => s
  | some c =>
    match s.takeDone (ringTag r 0) with
    | none => s
    | some (d, s1) =>
      let l := d.getD 0
      let put (x : Option HintCtx) : State :=
        { s1 with dctl := { s1.dctl with ctxs := s1.dctl.ctxs.filterMap fun y => if y.ring == r then x else some y } }
      if !slotOwn l then put none
      else
        let c1 : HintCtx := { c with line := l, idx := 0, entry := 0, stage := .page }
        put (some (match slotRefused l (r < s.pdPrivRings) with | some st => c1.finish st | none => c1))

/-- The pin of a page completes (R357): its nibbles and its CLASSPIN have been written. -/
def State.pinComplete (s : State) (p : Page) : State :=
  if s.pinWriting p || s.stampsOut p then s
  else
    let f (c : HintCtx) : HintCtx :=
      if c.stage == .pinWrite && slotOpc c.line == 1 && slotPage c.line c.idx == p then { c with stage := .pinned } else c
    let g (l : PList) : PList := if l.busy && l.op == 1 && l.cur == some p && l.stage == .pinWrite then { l with stage := .pinned } else l
    ({ s with dctl := { s.dctl with ctxs := s.dctl.ctxs.map f } }).modList g

end Sys2Proof.Machine
end

