-- ==== Sys2Proof/Machine/DirCmds.lean ====
section
/-! DEFINITION. The commands of the placement director: what its messages, clocks, engines, rings and lists do (10, 11, 15). After
each of them the director goes on with the hints and moves that wait (log 32). -/

namespace Sys2Proof.Machine

open Sys2Proof

/-- Poll every enabled ring, once a period (R363). -/
def State.ringPoll (s : State) : State :=
  if !s.dctl.pollDue then s
  else
    let more := (List.range s.pdRings).filter fun r => !s.dctl.bells.contains r
    { s with dctl := { s.dctl with pollDue := false, bells := s.dctl.bells ++ more } }

/-- A master read has ended without data (R499): the list stops, or the fetch ends. -/
def State.masterError (s : State) (tag : Nat) : State :=
  if s.dctl.list.reads.any fun r => r.1 == tag then s.listReadError tag
  else match s.ld.fetch with
    | some f => if f.tags.contains tag then s.fetchEnd 5 else s
    | none => s

/-- PROMO (R340): the entry's chunk is loaded first (R337). -/
def execPromo (phys : Nat) (page : Page) (s : State) : Host.Outcome State Fault Refusal :=
  .next (if s.chunkIn page then (s.onMsg (.promo phys page) fun s => s.takePromo phys page).hintSettle else s)

/-- DACK (R338). -/
def execDack (phys : Nat) (page : Page) (s : State) : Host.Outcome State Fault Refusal :=
  .next (s.onMsg (.dack phys page) fun s => s.takeDack page).hintSettle

/-- DNOTE (R343). -/
def execDnote (phys : Nat) (page : Page) (s : State) : Host.Outcome State Fault Refusal :=
  .next (s.onMsg (.dnote phys page) fun s => s.takeDnote page).hintSettle

/-- DIRTY_MARK (R353). -/
def execDirtyMark (phys : Nat) (page : Page) (s : State) : Host.Outcome State Fault Refusal :=
  .next (s.onMsg (.mark phys page) fun s => s.takeMark phys page).hintSettle

/-- DIRTY_MARK_RELEASE (R353). -/
def execDirtyMarkRelease (s : State) : Host.Outcome State Fault Refusal := .next s.releaseMark.hintSettle

/-- STAMP (R147). -/
def execStamp (phys : Nat) (page : Page) (s : State) : Host.Outcome State Fault Refusal :=
  .next (s.onMsg (.stamp phys page) fun s => s.takeStamp phys page).hintSettle

/-- HEAT_REPORT (R334). -/
def execHeatReport (phys : Nat) (page : Page) (heat : BitVec 8) (s : State) : Host.Outcome State Fault Refusal :=
  .next (s.onMsg (.heat phys page heat) fun s => s.putHeat page heat).hintSettle

/-- PAGE_MAP_FILL (R335). -/
def execPageMapFill (phys : Nat) (page : Page) (ue : Bool) (s : State) : Host.Outcome State Fault Refusal :=
  .next (s.pageMapFill phys page ue)

/-- PAGE_MAP_ENTRY_UPDATE (R335). -/
def execPageMapEntryUpdate (page : Page) (s : State) : Host.Outcome State Fault Refusal := .next (s.pageMapUpdate page)

/-- DEMOTION_CLOCK_STEP (R349). -/
def execDemotionClockStep (s : State) : Host.Outcome State Fault Refusal := .next s.demotionClock.hintSettle

/-- SLOT_EVICTION_CLOCK_STEP (R350). -/
def execSlotEvictionClockStep (pool : Nat) (s : State) : Host.Outcome State Fault Refusal :=
  .next (if pool < 3 then (s.evictionClock pool).hintSettle else s)

/-- CLEANING_START (R354). -/
def execCleaningStart (s : State) : Host.Outcome State Fault Refusal := .next s.startCleaning.hintSettle

/-- CLEAN_COMMAND (R354). -/
def execCleanCommand (phys : Nat) (page : Page) (s : State) : Host.Outcome State Fault Refusal := .next (s.cleanAt phys page)

/-- CLEAN_ACK (R354). -/
def execCleanAck (phys : Nat) (page : Page) (s : State) : Host.Outcome State Fault Refusal :=
  .next (s.onMsg (.cleanAck phys page) fun s => s.takeCleanAck page).hintSettle

/-- GAME_SWEEPER_STEP (R149). -/
def execGameSweeperStep (s : State) : Host.Outcome State Fault Refusal := .next s.sweep.hintSettle

/-- HEAT_DECAY (R348). -/
def execHeatDecay (s : State) : Host.Outcome State Fault Refusal := .next s.heatDecay

/-- PAGE_MAP_CHUNK_LOAD (R337). -/
def execPageMapChunkLoad (chunk : Nat) (pins : List (Page × BitVec 3)) (s : State) : Host.Outcome State Fault Refusal :=
  .next (s.chunkLoad chunk pins).hintSettle

/-- COPY_DONE (R340). -/
def execCopyDone (ctag : Nat) (status : BitVec 4) (s : State) : Host.Outcome State Fault Refusal :=
  .next (s.copyDone ctag status).hintSettle

/-- COMPRESS_DONE (R345). The slot's CRC is in the response; the model keeps no slot contents (log 12). -/
def execCompressDone (ctag : Nat) (status : BitVec 4) (len : Nat) (_crc : W32) (s : State) : Host.Outcome State Fault Refusal :=
  .next (s.compressDone ctag status len).hintSettle

/-- FLUSH_DONE (R343). -/
def execFlushDone (ctag : Nat) (status : BitVec 4) (s : State) : Host.Outcome State Fault Refusal :=
  .next (s.flushAnswer ctag status).hintSettle

/-- STAGING_STORE_DONE (R342). -/
def execStagingStoreDone (ctag : Nat) (status : BitVec 4) (s : State) : Host.Outcome State Fault Refusal :=
  .next (s.storeDone ctag status).hintSettle

/-- VICTIM_OFFER_RESPONSE (R304). -/
def execVictimOfferResponse (ctag : Nat) (status : BitVec 4) (s : State) : Host.Outcome State Fault Refusal :=
  .next (s.offerDone ctag status)

/-- CLEAN_COPY_DONE (R354). -/
def execCleanCopyDone (ctag : Nat) (status : BitVec 4) (s : State) : Host.Outcome State Fault Refusal :=
  .next (s.cleanCopied ctag status).hintSettle

/-- DEMOTION_TO_PERSISTENT_DONE (R342). -/
def execDemotionToPersistentDone (ctag : Nat) (status : BitVec 4) (s : State) : Host.Outcome State Fault Refusal :=
  .next (s.persistDone ctag status).hintSettle

/-- EVICTION_FROM_COMPRESSED_DONE (R338). -/
def execEvictionFromCompressedDone (ctag : Nat) (status : BitVec 4) (s : State) : Host.Outcome State Fault Refusal :=
  .next (s.evictDone ctag status).hintSettle

/-- PERSISTENT_WRITE_DONE (R394). -/
def execPersistentWriteDone (ctag : Nat) (status : BitVec 4) (s : State) : Host.Outcome State Fault Refusal :=
  .next (s.writeAcked ctag status).hintSettle

/-- PERSISTENT_READ_DONE (R396). -/
def execPersistentReadDone (ctag : Nat) (status : BitVec 4) (lines : List PLine) (s : State) : Host.Outcome State Fault Refusal :=
  .next (s.readReturned ctag status lines)

/-- SAVE_PAGE_DONE (R384). -/
def execSavePageDone (ctag : Nat) (status : BitVec 4) (s : State) : Host.Outcome State Fault Refusal :=
  .next (s.saveDone ctag status)

/-- DOORBELL (R363). -/
def execDoorbell (ring : Nat) (s : State) : Host.Outcome State Fault Refusal :=
  .next (s.onMsg (.doorbell ring) fun s => if s.ringOn ring then s.addBell ring else s).hintSettle

/-- RING_POLL (R363). -/
def execRingPoll (s : State) : Host.Outcome State Fault Refusal := .next s.ringPoll.hintSettle

/-- HINT_SLOT (R361). -/
def execHintSlot (ring : Nat) (s : State) : Host.Outcome State Fault Refusal := .next (s.hintSlot ring).hintSettle

/-- PIN_COMPLETE (R357). -/
def execPinComplete (page : Page) (s : State) : Host.Outcome State Fault Refusal := .next (s.pinComplete page).hintSettle

/-- LIST_READ_DONE (R500). -/
def execListReadDone (tag : Nat) (lines : List Line) (s : State) : Host.Outcome State Fault Refusal :=
  .next (s.listRead tag lines).hintSettle

/-- MASTER_READ_ERROR (R499): the four causes have one effect. -/
def execMasterReadError (tag : Nat) (_why : MasterErr) (s : State) : Host.Outcome State Fault Refusal :=
  .next (s.masterError tag).hintSettle

end Sys2Proof.Machine
end

