-- ==== Sys2Proof/Machine/Castling.lean ====
section
/-! DEFINITION. The castling logic: a slice's failure, isolation, takeover by the reserve, adoption by the buddy, lost ranges,
the replay of records and the resync (12 R412 to R430, 06 R215, 10 R344, 17 R535). -/

namespace Sys2Proof.Machine

open Sys2Proof

/-! ### The failed slice's records (R413, R415) -/

/-- Cause of a failure as record 0x01 codes it (R437). -/
def FailCause.code : FailCause → Nat
  | .mismatch => 0
  | .heartbeat => 1
  | .control => 2
  | .link => 3

/-- Updates that have left a slice reach its buddy though the slice has failed, and its journal with them: no message of a step leaves
before the step's journal update (R413). -/
def State.landUpdates (s : State) (f b : Nat) : State :=
  match s.slice f with
  | none => s
  | some sl =>
    s.modSlice b fun x =>
      let d := (sl.mir.link.flatMap (·.ops)).foldl (fun a op => op.apply a.1 a.2) (x.mir.dirty, x.mir.wpq)
      { x with mir := { x.mir with dirty := d.1, wpq := d.2, jTrk := sl.trk, jHold := sl.hold } }

/-- Where a slice holds a dirty line. -/
def Slice.dirtySlot (sl : Slice) (l : LineAddr) : Nat :=
  match sl.mscFind l with
  | some (i, _) => i
  | none => match sl.msc.vb.find? fun v => v.cl.line == l && !v.inWpq with
    | some v => 65536 + v.num
    | none => 131072

/-- The items of a replay in their order (R415), from the mirror and the journal that the buddy holds; the slice's own walks leave no
records. -/
def replayItems (f b : Slice) : List RItem :=
  let ts := b.mir.jTrk.filter fun t => t.req.src != .sweeper && t.req.src != .wayWalk
  b.mir.wpq.map (fun x => RItem.wpq x.1 x.2) ++ b.mir.dirty.map (fun r => RItem.dirty (f.dirtySlot r.line) r) ++
  ts.map RItem.trk ++ b.mir.jHold.map RItem.hold ++ [RItem.replayEnd]

/-- A tracker's record as it enters CA (R215, R417). What only the failed slice knew is gone: reads under way, nibbles and data
read; mirror acknowledgements count as received. A message that waited to be evaluated is still to be. -/
def Tracker.restored (t : Tracker) (num : Nat) (pool : Pool) : Tracker :=
  let known := t.committed || t.holder.isSome
  let first : List InMsg := match t.stall with
    | some x => if x.msg.who.isNone && !x.msg.side then [] else [x.msg]
    | none => []
  { t with
    num := num, pool := pool, st := .ca, was := t.st, rdOut := false, bktOut := none, bktIn := none, bktWait := none, armed := false, tickDue := false,
    direct := t.direct && t.committed, buf := if t.committed then t.buf else none, merged := t.merged && t.committed,
    nib := if known then t.nib else none, ue := t.ue && known, stall := none, inq := first ++ t.late ++ t.inq, late := [], reevalDue := false, reevals := 0,
    pmWait := false, snoopAll := t.snoopAll && t.committed,
    acks := t.acks.filter fun a => match a.kind with
      | .mirror _ => false
      | .kFill _ => t.committed
      | _ => true,
    held := t.held.map fun h => { h with mirror := none } }

/-! ### Messages and waits pass to the slice that replays (R414) -/

/-- A message between a slice and the director as it stands after the redirection; a page-map read is made again by the new
slice. -/
def NMsg.retarget (f g : Nat) (m : NMsg) : Option NMsg :=
  let dst (p : Nat) : Nat := if p = f then g else p
  match m with
  | .promo p pg => some (.promo (dst p) pg)
  | .dack p pg => some (.dack (dst p) pg)
  | .dnote p pg => some (.dnote (dst p) pg)
  | .stamp p pg => some (.stamp (dst p) pg)
  | .mark p pg => some (.mark (dst p) pg)
  | .heat p pg h => some (.heat (dst p) pg h)
  | .pmRead p pg => if p = f then none else some (.pmRead p pg)
  | .cleanAck p pg => some (.cleanAck (dst p) pg)
  | .doorbell r => some (.doorbell r)
  | .migStart p pg k => some (.migStart (dst p) pg k)
  | .migDone p pg => some (.migDone (dst p) pg)
  | .stampAck p pg => some (.stampAck (dst p) pg)
  | .markAck p pg => some (.markAck (dst p) pg)
  | .clean p pg => some (.clean (dst p) pg)
  | .entry pg => some (.entry pg)

/-- The slice of a message between a slice and the director. -/
def NMsg.phys : NMsg → Option Nat
  | .promo p _ => some p
  | .dack p _ => some p
  | .dnote p _ => some p
  | .stamp p _ => some p
  | .mark p _ => some p
  | .heat p _ _ => some p
  | .pmRead p _ => some p
  | .cleanAck p _ => some p
  | .doorbell _ => none
  | .migStart p _ _ => some p
  | .migDone p _ => some p
  | .stampAck p _ => some p
  | .markAck p _ => some p
  | .clean p _ => some p
  | .entry _ => none

/-- The inputs of a failed slice as the target takes them: requests that wait there, without its credits (R414). -/
def joinInputs (a b : InputQ) : InputQ := { b with waiting := b.waiting ++ a.waiting.map fun q => { q with withK := false } }

/-- Everything under way that names the failed slice goes on to the target. -/
def State.retarget (s : State) (f g : Nat) : State :=
  match s.slice f with
  | none => s
  | some sl =>
    let dst (p : Nat) : Nat := if p = f then g else p
    let fm (m : S2M) : S2M := { m with phys := m.phys.map dst }
    let fh (h : HostPort) : HostPort := { h with egress := h.egress.map fm }
    let fa (a : AgentPort) : AgentPort := { a with held := a.held.map fun r => { r with fenceWait := (r.fenceWait.map dst).eraseDups } }
    let fd (d : Director) : Director :=
      { d with
        moves := d.moves.map fun m => { m with askers := (m.askers.map dst).eraseDups },
        waiting := d.waiting.map fun x => (dst x.1, x.2),
        marks := d.marks.map fun x => (dst x.1, x.2) }
    let ft (x : Slice) : Slice :=
      { x with
        retq := x.retq ++ sl.retq.map fm, sent := max x.sent sl.sent,
        dir := { x.dir with fences := (x.dir.fences ++ sl.dir.fences).eraseDups },
        arb := { x.arb with inputs := List.zipWith joinInputs sl.arb.inputs x.arb.inputs, seq := max x.arb.seq sl.arb.seq } }
    { s with
      net := s.net.filterMap (NMsg.retarget f g),
      hostPorts := s.hostPorts.map fh,
      agentPorts := s.agentPorts.map fa,
      dir := fd s.dir }.modSlice g ft

/-! ### Isolation, registers (R44, R414, R516, R535) -/

/-- A register of a slice's block. -/
def inBlock (p o : Nat) : Bool := slBase p ≤ o && o < slBase (p + 1)

/-- The slice-isolation reset (R44): the slice's state, its registers and its pending values go. -/
def State.isolate (s : State) (p : Nat) : State :=
  let f (sl : Slice) : Slice :=
    let b := Slice.blank 16 8
    { b with ident := { b.ident with walk := sl.ident.walk, selfTest := sl.ident.selfTest, isolated := true } }
  let keep (x : Nat × W32) : Bool := !inBlock p x.1
  { s with
    regs := ⟨s.regs.base.filter keep, s.regs.act.filter keep⟩,
    fb := { s.fb with inject := s.fb.inject.filter fun w => w.stop s.variant != stopOf s.variant true p },
    gl := { s.gl with commit := s.gl.commit.filter keep } }.modSlice p f

/-- Registers of which the reserve keeps its own value (R535): the LFSR seed, the disabled snoop-filter ways, the peek window. -/
def keepsOwn (o : Nat) : Bool := o = 0x024 || o = 0x0C4 || o = 0x300

/-- The reserve takes the failed slice's values in force, its counters start anew (R535, R516). -/
def State.takeRegs (s : State) (f g : Nat) : State :=
  let own (l : List (Nat × W32)) := l.filter fun x => !inBlock g x.1 || keepsOwn (x.1 % 0x40000)
  let new := (s.regs.act.filter fun x => inBlock f x.1 && !keepsOwn (x.1 % 0x40000) && x.1 % 0x40000 < 0x800).map fun x =>
    (slBase g + x.1 % 0x40000, x.2)
  let put (l : List (Nat × W32)) := new.foldl (fun l x => kset x.1 x.2 l) (own l)
  { s with regs := ⟨put s.regs.base, put s.regs.act⟩ }.modSlice g fun sl =>
    { sl with obs := { sl.obs with pmc := sl.obs.pmc.map fun _ => Ctr48.zero, cyc := Ctr48.zero } }

/-- A home-table entry changes. -/
def State.modHome (s : State) (n : Nat) (f : Home → Home) : State :=
  { s with cast := { s.cast with homes := s.cast.homes.modify n f } }

/-- Flits of a failed slice go to the target from now on (R414, R416). -/
def State.redirectTo (s : State) (f g : Nat) : State :=
  let dst (p : Nat) : Nat := if p = f then g else p
  { s with cast := { s.cast with redirect := (s.cast.redirect.map fun r => (r.1, dst r.2)) ++ [(f, g)] } }

/-! ### Placing an item (R415, R426) -/

/-- Put a tracker into a slice, trackers ascending. -/
def Slice.putTrk (sl : Slice) (t : Tracker) : Slice :=
  { sl with trk := (sl.trk.filter fun x => x.num < t.num) ++ [t] ++ (sl.trk.filter fun x => t.num < x.num) }

/-- A cached line from a mirror's record. -/
def State.mirCLine (s : State) (r : MirLine) : CLine :=
  ⟨r.line, true, r.nib, r.poison, false, (s.pageEnt (pageOf r.line)).kpin, r.data⟩

/-- The reserve places an item in the structure and under the number it had (R415). -/
def State.placeSame (s : State) (g : Nat) (it : RItem) : State :=
  match it with
  | .wpq w r => s.modSlice g fun sl =>
      { sl with msc := { sl.msc with wpq := sl.msc.wpq ++ [⟨w, r.line, r.data, r.nib, r.poison, false, false⟩],
                                     widNext := max sl.msc.widNext (w + 1) } }
  | .dirty n r =>
    let c := s.mirCLine r
    s.modSlice g fun sl =>
      if n < 65536 then (sl.mscPut n c).mscTouch n
      else if n < 131072 then sl.setVb (sl.msc.vb ++ [⟨n % 65536, c, false, false, none⟩])
      else match (List.range 16).find? fun w => (kget (mscSet r.line * 16 + w) sl.msc.lines).isNone with
        | some w => (sl.mscPut (mscSet r.line * 16 + w) c).mscTouch (mscSet r.line * 16 + w)
        | none => (sl.wpqPut r.line r.data r.nib r.poison false).1
  | .trk t => s.modSlice g fun sl => sl.putTrk (t.restored t.num t.pool)
  | .hold h => s.modSlice g fun sl => { sl with hold := sl.hold ++ [h], holdSeq := max sl.holdSeq (h.order + 1) }
  | .replayEnd => s

/-- The free pool that an adopting slice takes a record's tracker from (R426, R427). -/
def State.adoptPool (s : State) (sl : Slice) (t : Tracker) : Option Pool :=
  let half := t.pool != .k || (sl.trk.filter fun x => x.pool == .k && s.homeOf (pageOf x.req.line) == s.homeOf (pageOf t.req.line)).length < 16
  if sl.poolFree t.pool && half then some t.pool else if sl.poolFree .shared then some .shared else none

/-- The adopting slice places an item where its structure has room; none: the item waits (R426). Lines go to the WPQ and are not
cached. -/
def State.placeFree (s : State) (g : Nat) (it : RItem) : Option State :=
  match s.slice g with
  | none => none
  | some sl =>
    let line (r : MirLine) : Option State := if sl.wpqFits r.line then some (s.toWpq g r.line r.data r.nib r.poison false).s else none
    match it with
    | .wpq _ r => line r
    | .dirty _ r => line r
    | .trk t =>
      (match s.adoptPool sl t, lowestFree (sl.trk.map (·.num)) 192 with
       | some o, some n => some (s.modSlice g fun x => x.putTrk (t.restored n o))
       | _, _ => none)
    | .hold h =>
      (match lowestFree (sl.hold.map (·.num)) 512 with
       | some n =>
         if sl.hold.length + sl.credits < 512 then
           some (s.modSlice g fun x => { x with hold := x.hold ++ [{ h with num := n, order := x.holdSeq }], holdSeq := x.holdSeq + 1 })
         else none
       | none => none)
    | .replayEnd => some s

/-! ### REPLAY_END (R215, R416, R417, R422 to R427) -/

/-- Send again a tracker's snoops of a line that are unanswered (R215). -/
def State.resnoop (s : State) (g n : Nat) (l : LineAddr) (vic : Bool) : State :=
  match s.tracker g n with
  | none => s
  | some t =>
    let one (s : State) (x : HSnpOut) : State :=
      match s.hid x.hid with
      | some h =>
        if h.st == .bound || h.st == .absent then s.sendBISnp g x.hid l x.kind 1 (some t.req.cls) t.ktag
        else s.modTrk g n fun y => { y with inq := y.inq ++ [autoAnswer h x vic] }
      | none => s
    let s1 := (t.hsnp.filter fun x => x.line == l).foldl one s
    match t.asnp.find? fun x => x.line == l with
    | some x =>
      let e := if vic then t.victim else t.holder
      s1.sendRSnp g n x.kind l vic t.req.src false (match e with | some e => e.fwd | none => 0) false (some t.req.cls)
    | none => s1

/-- An acknowledgement that a record still awaits, by its kind (R417); one that came while the tracker was in CA, and was discarded, is
repeated (R215). -/
def State.reissue (s : State) (g n : Nat) (a : Ack) : State :=
  match s.slice g, s.tracker g n with
  | some sl, some t =>
    let l := t.ackLine a
    let pg := pageOf l
    let e := s.lineEnt sl l
    match a.kind with
    | .metaWrite =>
      let spilled := (bktFind s.gl.game (s.bucket (s.bucketNo l)) l).isSome
      let nib := if a.vic then s.nibNow (if spilled then 0b10 else 0b00) else t.nib.getD (s.nibNow 0b01)
      s.writeNib g t a.vic e l nib
    | .bucket => s.writeBucket g t a.vic l (s.bucket (s.bucketNo l))
    | .stamp =>
      let s1 := s.modSlice g fun x => { x with stamps := if x.stamps.contains pg then x.stamps else x.stamps ++ [pg] }
      if s1.net.contains (.stamp g pg) || s1.net.contains (.stampAck g pg) then s1 else s1.send (.stamp g pg)
    | .dirtyMark =>
      let s1 := s.modSlice g fun x => { x with marks := if x.marks.contains pg then x.marks else x.marks ++ [pg] }
      let kept := s1.dir.marks.any fun m => m == (g, pg)
      if kept || s1.net.contains (.mark g pg) || s1.net.contains (.markAck g pg) then s1 else s1.send (.mark g pg)
    | .lineWrite _ =>
      let put (w : Nat) (x : Tracker) : Tracker :=
        { x with acks := eraseFirst (fun y => y == a) x.acks ++ [⟨.lineWrite w, a.vic⟩],
                 held := x.held.map fun h => if h.write.isSome then { h with write := some w } else h }
      (match sl.wpqFind l with
       | some w => s.modTrk g n (put w.wid)
       | none => s.takeAck g n a)
    | .mirror u => if sl.mir.acked.contains u || sl.mir.link.any (fun x => x.uid == u) then s else s.takeAck g n a
    | .kFill _ => if (sl.mscFind l).isSome then s.takeAck g n a else s
  | _, _ => s

/-- A victim of a record resumes (R215). -/
def State.resumeVictim (s : State) (g n : Nat) : State :=
  match s.tracker g n with
  | none => s
  | some t =>
    match t.victim with
    | none => s
    | some v =>
      let unwritten := t.acks.any fun a => a == ⟨.bucket, true⟩
      if t.vst == some .bc || t.vst == some .xsW then s.resnoop g n v.line true
      else if t.vst == some .spF || (t.vst == some .spW && unwritten) then
        let t1 := { t with vst := some .spF, acks := t.acks.filter fun a => !a.vic }
        let x := s.bktIssue g t1 .victim
        x.1.modTrk g n fun _ => x.2
      else if t.acks.any fun a => a.vic then s
      else s.modTrk g n fun x => x.resolved

/-- A record goes on at REPLAY_END: the completions it still owes are sent; a committed one only awaits what is outstanding; every
other is presented again, and stays in CA until it is (R215, R417; log 40). -/
def State.resumeTrk (s : State) (g n : Nat) : State :=
  match s.tracker g n with
  | none => s
  | some t =>
    let l := t.req.line
    let f (x : Tracker) : Tracker := if x.committed then { x.leaveCA with st := .lrW } else x
    let victimBucket := t.acks.any fun a => a == ⟨.bucket, true⟩
    let again := t.acks.filter fun a => !(a.vic && victimBucket)
    let s1 := again.foldl (fun s a => s.reissue g n a) (s.modTrk g n f)
    let s2 := s1.resumeVictim g n
    match s2.tracker g n with
    | none => s2
    | some t2 =>
      let r := releaseHeld s2 t2.held
      let s4 := r.1.modTrk g n fun x => { x with held := r.2 }
      if t.committed then State.pump (pumpFuel t2) (s4.tryRetire g n) g n
      else s4.feed g n { inp := .castleReplay, line := l, replayEnd := true }

/-- Copies of the range's moves that have not completed are started again (R344). -/
def State.restartCopies (s : State) (log : Nat) : State :=
  s.dir.moves.foldl (fun s m =>
    if s.homeOf m.page != log || m.aborted then s
    else if m.stage == MoveStage.copy then s.startCopy m
    else if m.stage == MoveStage.persist && m.kind == .demotion then s.demoteToPersist m
    else s) s

/-- Clean commands that the failed slice had not acknowledged go to the slice that now serves the range. -/
def State.recleans (s : State) (g log : Nat) : State :=
  s.dir.cleaning.foldl (fun s c =>
    if s.homeOf c.page != log || c.copying || s.net.contains (.clean g c.page) || s.net.contains (.cleanAck g c.page) then s
    else s.send (.clean g c.page)) s

/-- Drawn nanoseconds of a stall, for a record (log 7). -/
def State.drawStall (s : State) : W32 × State := (Config.stallNs s.free, { s with free := s.free + 1 })

/-- A healthy reserve that serves nothing and takes no replay. -/
def State.reserveFree (s : State) : Option Nat :=
  (List.range s.variant.phys).find? fun p =>
    (match s.slice p with | some sl => sl.ident.role == .reserve | none => false) && s.castleLive p &&
    !(s.cast.replays.any fun r => r.target == p)

/-- REPLAY_END is taken (R416, R426): the target serves the range, in blindfold mode; the class-K entries are asked for; the
records go on. -/
def State.replayEnd (s : State) (r : Replay) : State :=
  let g := r.target
  let kp := s.kpinList.filter fun pg => s.homeOf pg == r.log
  let fs (sl : Slice) : Slice :=
    let i := sl.ident
    let i1 := if r.adoption then { i with role := .adopting, logB := r.log, adoptStall := false }
      else { i with role := .takeover, logA := r.log, adoptStall := false }
    { sl with ident := i1, blind := sl.blind ++ [⟨r.log, kp, 0, 0⟩] }
  let fc (c : Option (Nat × Nat)) : Option (Nat × Nat) := match c with
    | some (a, b) => if a = r.failed then some (g, b) else if b = r.failed then some (a, g) else c
    | none => none
  let c := s.cast
  let s1 := { s with cast := { c with replays := c.replays.filter fun x => x.target != g,
                                      channels := if r.adoption then c.channels else c.channels.map fc } }
  let s2 := (s1.modHome r.log fun h => { h with valid := true, stalled := false, phys := g }).modSlice g fs
  let d := s2.drawStall
  let s3 := if r.adoption then
      let none_ := (d.2.reserveFree).isNone
      d.2.setHealthWith (fun x => { x with adopted := true, blind := true, noReserve := x.noReserve || (none_ && !x.reserveUsed) }) 0x02 2 r.log
        (BitVec.ofNat 64 g ||| (d.1.setWidth 64 <<< 5))
    else d.2.setHealthWith (fun x => { x with reserveUsed := true, blind := true }) 0x01 1 r.log
        (BitVec.ofNat 64 r.cause.code ||| (d.1.setWidth 64 <<< 4))
  let s4 := { s3 with dctl := { s3.dctl with kpLoad := s3.dctl.kpLoad ++ kp.map fun pg => (g, pg, false) } }.kpLoads
  let s5 := if s4.eg.drainReq then s4.modSlice g Slice.startDrain else s4
  let s6 := (s5.restartCopies r.log).recleans g r.log
  let ns : List Nat := match s6.slice g with
    | some sl => (sl.trk.filter fun t => t.st == TSt.ca).map (·.num)
    | none => []
  let s7 := (List.range s6.hids.length).foldl (fun s h => State.resendSlice 257 s g h none) s6
  ((ns.foldl (fun s n => s.resumeTrk g n) s7).settle g).portsRelease

/-- An item crosses the replay bus (R415): the beat is checked (R404), and one that arrives twice beyond correction has lost its item;
answers whether it has. -/
def State.busBeat (s : State) (b : Nat) : State × Bool :=
  match s.slice b with
  | none => (s, false)
  | some sl =>
    let mine := sl.obs.errs.filter fun e => e.arr == .bus
    let bad := mine.filter fun e => e.ue
    let f (x : Slice) : Slice :=
      { x with obs := { x.obs with errs := (x.obs.errs.filter fun e => e.arr != .bus) ++ bad.drop 2,
                                   ce := x.obs.ce.modify 7 fun c => min 0xFFFF (c + (mine.length - bad.length)) } }
    (s.modSlice b f, 2 ≤ bad.length)

/-- A request whose record is lost gets the error response of its port; the block's own requests go on with their record (R415). -/
def State.lostRecord (s : State) (g : Nat) (q : Req) : Option State :=
  match q.src with
  | .host port hid => some ((s.poisonHere g q.line 5).hostError port hid q.kind q.tag q.line)
  | .agent port agent thread =>
    some ((s.poisonHere g q.line 5).emitARsp port
      { phys := g, kind := .error 0b011, tag := BitVec.ofNat 7 q.tag, agent := agent, thread := thread, line := q.line, data := none,
        poison := false, lost := false, fwded := false, dirty := false, wcok := false, fwd := false, k := false })
  | _ => none

/-- The reserve takes an item whose beat has failed twice (R415): its line is poisoned. -/
def State.placeLost (s : State) (g : Nat) (it : RItem) : State :=
  match it with
  | .wpq w r => (s.placeSame g (.wpq w { r with poison := true })).logPoison g r.line 5
  | .dirty n r => (s.placeSame g (.dirty n { r with poison := true })).logPoison g r.line 5
  | .trk t => (s.lostRecord g t.req).getD (s.placeSame g it)
  | .hold h => (s.lostRecord g h.req).getD (s.placeSame g it)
  | .replayEnd => s

/-- The next item of a replay is placed. -/
def State.replayStep (s0 : State) (r : Replay) : State :=
  let g := r.target
  match r.items with
  | [] => s0
  | it :: rest =>
    if it == .replayEnd then s0.replayEnd r
    else
      let d := if r.adoption then (s0, false) else s0.busBeat r.buddy
      let s := d.1
      match (if r.adoption then s.placeFree g it else if d.2 then some (s.placeLost g it) else some (s.placeSame g it)) with
      | none => s
      | some s1 =>
        let put (x : Replay) : Replay := if x.target == g then { x with items := rest } else x
        let s2 := { s1 with cast := { s1.cast with replays := s1.cast.replays.map put } }
        let s3 := match it with
          | .trk t => (match (s2.slice g).bind fun (sl : Slice) => sl.trk.find? fun (x : Tracker) => x.st == TSt.ca && x.req.line == t.req.line with
              | some x => State.pump (pumpFuel x) s2 g x.num
              | none => s2)
          | _ => s2
        ((s3.cleanStart g).noteOcc g).settle g

/-! ### Takeover, adoption, loss (R414, R415, R421, R425 to R430) -/

/-- The replay of a failed slice's range into a target begins: isolation, stall, redirection (R414). -/
def State.startReplay (s : State) (r : Replay) : State :=
  let s1 := (s.retarget r.failed r.target).isolate r.failed
  let s2 := (s1.modHome r.log fun h => { h with stalled := true }).redirectTo r.failed r.target
  let fs (sl : Slice) : Slice := { sl with ident := { sl.ident with adoptStall := true, gated := false } }
  { s2 with cast := { s2.cast with replays := s2.cast.replays ++ [r] } }.modSlice r.target fs

/-- The reserve replays (R415). -/
def State.takeover (s : State) (f b g log : Nat) (c : FailCause) (items : List RItem) : State :=
  ((s.takeRegs f g).startReplay ⟨f, g, b, log, false, c, items, items⟩).enterUnprot b

/-- The buddy adopts (R426). -/
def State.adopt (s : State) (f b log : Nat) (c : FailCause) (items : List RItem) : State :=
  (s.pairUnprot b 0).startReplay ⟨f, b, b, log, true, c, items, items⟩

/-- Logical numbers that a slice serves or whose replay it takes or supplies. -/
def State.logsOf (s : State) (p : Nat) : List Nat :=
  (List.range s.variant.active).filter fun n => match s.cast.homes[n]? with
    | some h => h.valid && !h.lost && (h.phys == p || (s.cast.replays.any fun r => r.log == n && (r.target == p || r.buddy == p)))
    | none => false

/-- What the director holds of a lost range (R429): moves end, a cleaning not yet copying leaves its page dirty, waits go. -/
def State.dropMoves (s : State) (n : Nat) (p : Nat) : State :=
  let mine (pg : Page) : Bool := s.homeOf pg == n
  let d := s.dir
  let s1 := { s with
    net := s.net.filter fun m => m.phys != some p,
    dir := { d with waiting := d.waiting.filter fun x => !mine x.2, marks := d.marks.filter fun x => !mine x.2,
                    cleaning := d.cleaning.filter fun c => c.copying || !mine c.page } }
  let s2 := (d.cleaning.filter fun c => !c.copying && mine c.page).foldl (fun s c => s.modEnt c.page fun e => { e with dirty := true }) s1
  (d.moves.filter fun m => mine m.page).foldl (fun s m =>
    match m.stage with
    | .quiesce => s.abortMove { m with askers := [] }
    | _ => s.modMove m.page fun x => { x with aborted := true, askers := [] }) s2

/-- Requests that wait at a host port for a lost range get their error response (R163, R429). -/
def State.lostWaiting (s : State) (port : Nat) : State :=
  match s.hostPort port with
  | none => s
  | some hp =>
    let lost := hp.waiting.filter fun q => s.lineLost q.line
    let s1 := s.modHostPort port fun h => { h with waiting := h.waiting.filter fun q => !s.lineLost q.line }
    lost.foldl (fun s q => (s.hostErr port 5).hostError port (q.hid.getD 64) q.kind q.tag q.line) s1

/-- A logical number is lost with its slice (R428, R429): record 0x03; flits waiting there are discarded and counted. -/
def State.loseOne (s : State) (n p : Nat) : State :=
  let flits : Nat := match s.slice p with
    | some sl => sl.arb.inputs.foldl (fun k (i : InputQ) => k + i.waiting.length) 0
    | none => 0
  let s1 : State := (List.range flits).foldl (fun s _ => s.dropFlit) s
  let live : Bool := match s1.slice p with | some sl => !sl.ident.isolated | none => false
  let s2 := if live then s1.isolate p else s1
  let c := s2.cast
  let s3 := { s2 with cast := { c with replays := c.replays.filter fun r => r.log != n,
                                       redirect := c.redirect.filter fun r => r.1 != p && r.2 != p } }
  let s4 := s3.modHome n fun h => { h with stalled := false, lost := true }
  (s4.setHealthWith (fun g => { g with rangeLost := true }) 0x03 3 n (BitVec.ofNat 64 p)).dropMoves n p

/-- A reserve whose replay has been given up holds nothing again. -/
def Slice.unused (sl : Slice) : Slice :=
  let b := Slice.blank 16 8
  { b with ident := { sl.ident with adoptStall := false }, arb := { sl.arb with inputs := b.arb.inputs }, obs := sl.obs }

/-- A slice's numbers are lost; its partner goes on unprotected; with no number left the block fails (R430). -/
def State.lose (s : State) (p : Nat) : State :=
  let physOf (n : Nat) : Nat := match s.cast.homes[n]? with | some h => h.phys | none => p
  let back (s : State) (r : Replay) : State :=
    if r.buddy == p && !r.adoption then
      s.modSlice r.target Slice.unused
    else s
  let partner := s.buddyOf p
  let ns := s.logsOf p
  let s1 := ns.foldl (fun s n => s.loseOne n (physOf n)) (s.cast.replays.foldl back s)
  let s2 := match s1.slice p with | some sl => if sl.ident.isolated then s1 else s1.isolate p | none => s1
  let s3 := match partner with | some b => s2.pairUnprot b 0 | none => s2
  let s4 := (List.range s3.hostPorts.length).foldl State.lostWaiting s3
  let all := (List.range s4.variant.active).all fun n => match s4.cast.homes[n]? with | some h => !h.valid || h.lost | none => true
  if all then s4.blockFail 0x03 else s4

/-- The reserve fails while it takes a replay: the buddy adopts from the mirror it still holds (R421). -/
def State.reserveLost (s : State) (p : Nat) (r : Replay) : State :=
  if s.castleLive r.buddy then
    let s1 := { s with cast := { s.cast with replays := s.cast.replays.filter fun x => x.target != p } }
    let s2 := ((s1.retarget p r.buddy).isolate p).redirectTo p r.buddy
    let s3 := s2.pairUnprot r.buddy 0
    let fs (sl : Slice) : Slice := { sl with ident := { sl.ident with adoptStall := true, gated := false } }
    { s3 with cast := { s3.cast with replays := s3.cast.replays ++ [{ r with target := r.buddy, adoption := true, items := r.all }] } }.modSlice r.buddy fs
  else s.lose p

/-- A serving slice fails (R414, R415, R421, R425, R428). -/
def State.servingFails (s : State) (p : Nat) (sl : Slice) (c : FailCause) : State :=
  let busy := s.cast.replays.any fun r => r.target == p || r.buddy == p
  match s.buddyOf p with
  | some b =>
    if busy || sl.ident.role == .adopting || sl.ident.unprot || !s.castleLive b || (s.cast.replays.any fun r => r.target == b) then s.lose p
    else
      -- The buddy reads its mirror storage (R404): an uncorrectable error there leaves no valid mirror (R420, R428).
      let d := (s.landUpdates p b).meetErr b .mirror none 6 fun _ => true
      let s1 := d.1
      match s1.slice b with
      | none => s1.lose p
      | some sb =>
        if d.2 then s1.lose p else
        let items := replayItems sl sb
        match (if s1.cast.replays.any fun r => !r.adoption then none else s1.reserveFree) with
        | some g => s1.takeover p b g sl.ident.logA c items
        | none => s1.adopt p b sl.ident.logA c items
  | none => s.lose p

/-- The castling logic declares a slice failed (R412, R414, R421). -/
def State.declare (s : State) (p : Nat) (cause : BitVec 4) : State :=
  match s.slice p with
  | none => s
  | some sl =>
    match sl.ident.failed with
    | none => s
    | some c =>
      if sl.ident.isolated || c.code != cause.toNat then s
      else if sl.ident.role.serves then s.servingFails p sl c
      else match s.cast.replays.find? fun r => r.target == p with
        | some r => s.reserveLost p r
        | none =>
          if sl.ident.role == .reserve then
            (s.isolate p).setHealthWith (fun g => { g with noReserve := g.noReserve || !g.reserveUsed }) 0x04 1 0 0
          else s.isolate p

/-- The reserve takes an item of the replay bus (R215, R415); outside a replay it is discarded and logged (F8). -/
def State.castleReplay (s : State) (p : Nat) : State :=
  match s.cast.replays.find? fun r => r.target == p && !r.adoption with
  | some r => if s.castleLive p && s.castleLive r.buddy then s.replayStep r else s
  | none =>
    if (match s.slice p with | some sl => sl.live | none => false) then s.logEv 0x29 0 p 0 0 else s

/-- The adopting slice moves the next item of the mirror it holds (R426). -/
def State.adoptionMove (s : State) (p : Nat) : State :=
  match s.cast.replays.find? fun r => r.target == p && r.adoption with
  | some r => if s.castleLive p then s.replayStep r else s
  | none => s

/-- The pair of a slice that was reported unprotected is protected again (R437). -/
def State.pairProtected (s : State) (p : Nat) : State :=
  let c := s.channelOf p
  if s.cast.reported.contains c then
    { s with cast := { s.cast with reported := s.cast.reported.filter (· != c) } }.logEv 0x07 0 srcCastle c 0
  else s

/-- The partner has acknowledged the last item of a slice's resync, and the slice leaves unprotected mode (R420). An uncorrectable error
that the resync finds in the mirror storage leaves it there (R404), and the next resync writes the storage anew. -/
def State.resyncDone (s : State) (p : Nat) : State :=
  match s.slice p, s.buddyOf p with
  | some sl, some b =>
    let e := s.meetErr b .mirror none 6 fun _ => true
    let served := match s.slice b with | some x => x.ident.role.serves && x.ident.role != .adopting && !x.ident.adoptStall | none => false
    let link := (s.cast.linkFailed[s.channelOf p]?).getD false
    if !sl.ident.unprot || !s.castleLive p || !s.castleLive b || !served || link || sl.ident.role == .adopting || sl.ident.adoptStall then s
    else if e.2 then
      let c := s.channelOf p
      let fix (x : Slice) : Slice := { x with obs := { x.obs with errs := x.obs.errs.filter fun e => e.arr != .mirror } }
      { s.modSlice b fix with cast := { s.cast with reported := (s.cast.reported.filter (· != c)) ++ [c] } }.logEv 0x06 1 srcCastle c 2
    else
      let dirty := (sl.msc.lines.filter fun x => x.2.dirty).map (fun x => x.2.mir) ++
        (sl.msc.vb.filter fun v => v.cl.dirty && !v.inWpq).map fun v => v.cl.mir
      let wpq := sl.msc.wpq.map fun w => (w.wid, MirLine.mk w.line w.data w.nib w.poison)
      (((e.1.modSlice b fun x => { x with mir := { x.mir with dirty := dirty, wpq := wpq, jTrk := sl.trk, jHold := sl.hold } }).modSlice p fun x =>
        { x with ident := { x.ident with unprot := false } }).pairProtected p).settle p
  | _, _ => s

/-! ### Meanings -/

/-- SLICE_FAILURE_DECLARED (R412). -/
def execSliceFailureDeclared (phys : Nat) (cause : BitVec 4) (s : State) : Host.Outcome State Fault Refusal :=
  .next (s.declare phys cause)
/-- CASTLEREPLAY (R215). -/
def execCastleReplay (phys : Nat) (s : State) : Host.Outcome State Fault Refusal := .next (s.castleReplay phys)
/-- ADOPTION_ITEM_MOVE (R426). -/
def execAdoptionItemMove (phys : Nat) (s : State) : Host.Outcome State Fault Refusal := .next (s.adoptionMove phys)
/-- RESYNC_COMPLETE (R420). -/
def execResyncComplete (phys : Nat) (s : State) : Host.Outcome State Fault Refusal := .next (s.resyncDone phys)

end Sys2Proof.Machine
end

