-- ==== Sys2Proof/Machine/Fabric.lean ====
section
/-! DEFINITION. Probes, the trace FIFO and the event FIFO of the fabric block (13 R450 to R463). -/

namespace Sys2Proof.Machine

open Sys2Proof

/-! ### Probes (R451 to R453) -/

/-- A flit matches a probe's filter (R453). -/
def State.probeHits (s : State) (n : Nat) (h : BitVec 128) : Bool :=
  let top := h.extractLsb' 64 64
  let m := s.prb n 0x04 ++ s.prb n 0x08
  let k := s.prb n 0x0C ++ s.prb n 0x10
  let line := fieldN h 46 42
  let lo := 4294967296 * ((s.prb n 0x14).toNat % 1024) + (s.prb n 0x18).toNat
  let hi := 4294967296 * ((s.prb n 0x1C).toNat % 1024) + (s.prb n 0x20).toNat
  (top ^^^ m) &&& k == 0 && (!bitAt (s.prb n 0) 26 || (lo ≤ line && line ≤ hi))

/-- LEN of a flit's header (R445). -/
def flitLen (h : BitVec 128) : Bool := bitAt h 105

/-- What a matching flit adds to the counter (R452). -/
def probeAdds (ctl : W32) (f : Flit) : Nat :=
  let len := flitLen f.header
  match fieldN ctl 28 3 with
  | 1 => if len then 1 else 0
  | 2 => if len then 64 else 0
  | 3 => if f.first then 1 else 0
  | 4 => f.waited
  | _ => 1

/-- A flit passes the link of a probe (R451 to R453, R456). -/
def State.probeFlit (s : State) (n : Nat) (fl : Flit) : State :=
  let ctl := s.prb n 0
  let link := fieldN ctl 13 8
  if 12 ≤ n || !bitAt ctl 31 || !linkIn s.variant link || !s.probeHits n fl.header then s
  else
    let s1 := { s with fb := s.fb.modProbe n fun p => { p with cnt := p.cnt.add (probeAdds ctl fl) } }
    if bitAt ctl 27 && bitAt (s.actReg 0x50000) 31
    then s1.traceFlit n ⟨link, fl.lane, fl.header, (s.gl.move <<< 10) ||| fl.cycle.setWidth 48⟩ else s1

/-- Packets of probes whose ENABLE or TRACE has gone out of force are closed (R457), with the records that were still in their
buffers. -/
def State.probesFollow (s0 : State) : State :=
  let s := s0.traceAll
  let step (f : Fabric) (n : Nat) : Fabric :=
    let c := s.prb n 0
    if bitAt c 31 && bitAt c 27 then f else f.close n false
  { s with fb := (List.range 12).foldl step s.fb }

/-- CLEAR of a probe's counter (R451). -/
def Fabric.clearProbe (f : Fabric) (n : Nat) : Fabric := f.modProbe n fun p => { p with cnt := p.cnt.clear }

/-! ### Meanings -/

/-- PROBE_MATCH (R451). -/
def execProbeMatch (probe : Nat) (flit : Flit) (s : State) : Host.Outcome State Fault Refusal := .next (s.probeFlit probe flit)

/-- TRACE_PACKET_GAP (R457): GAP cycles have passed without a match. -/
def execTracePacketGap (probe : Nat) (s : State) : Host.Outcome State Fault Refusal :=
  let s1 := s.traceAll
  .next { s1 with fb := s1.fb.close probe false }

/-- TRACE_PORT_TRANSFER (R458): with SINK 1 the trace port takes the head word, unless it is the reserved slot of an open
packet. -/
def execTracePortTransfer (s : State) : Host.Outcome State Fault Refusal :=
  .next (if bitAt (s.actReg 0x50000) 30 then
    let s1 := s.traceAll
    match s1.fb.trace with
    | .word w :: r => { s1 with fb := { s1.fb with trace := r, trcData := w } }
    | .slot _ :: _ => s1
    | [] => s1
  else s)

/-- EVENT_FIFO_STALE (R462): the stale timer has reached STALE_MS. -/
def execEventFifoStale (s : State) : Host.Outcome State Fault Refusal :=
  .next (if s.ev.fifo.isEmpty || s.ev.staleHalt || fieldN (s.actReg 0x50020) 10 10 = 0 then s
    else { s with ev := { s.ev with stale := true, staleHalt := true } })

/-- EVENT_REQUEST_ACCEPT (R438): the surroundings take the request offered; the one kept is offered next. -/
def execEventRequestAccept (s : State) : Host.Outcome State Fault Refusal :=
  .next { s with ev := { s.ev with offer := s.ev.kept, kept := none } }

end Sys2Proof.Machine
end

