-- ==== Sys2Proof/Machine/Boundary.lean ====
section
/-! DEFINITION. The move boundary (03 R77 to R81, R97, R98), the heartbeat check (R80, R537), and the gating of slice clocks
(15 R502). -/

namespace Sys2Proof.Machine

open Sys2Proof

/-! ### Commits (R79) -/

/-- Captured values come into force together; a commit written in P2 waits for the exit (R504). -/
def State.commitForce (s : State) : State :=
  if !s.gl.anyCommit then s
  else
    let put (s : State) (x : Nat × W32) : State := s.putForce x.1 x.2
    let s1 := s.gl.commit.foldl put { s with gl := { s.gl with commit := [], anyCommit := false } }
    s1.inForce s (s.gl.commit.map (·.1))

/-- A starvation limit of 0 in force zeroes its counter and cancels a forced win (R97); one at or below the count is reached at
the boundary at which it comes into force (R98). -/
def State.limitsFollow (s : State) (p : Nat) (offs : List Nat) : State :=
  let zero (s : State) (n : Nat) : State :=
    if s.starveLimit p n = 0 then s.modSlice p fun sl => sl.modInput n fun i => { i with starve := 0, forced := false }
    else if offs.contains (slBase p + 0x080 + 4 * n) then s.starved p n else s
  (List.range 16).foldl zero s

/-! ### Heartbeats (R80, R504, R537) -/

/-- The slice produces heartbeats: marked active or reserve by the setup walk, in service or in reserve, its clock not
stopped; a slice frozen for a save evaluates no input, the self-check among them (R383, log 47). -/
def Slice.beating (sl : Slice) : Bool :=
  (sl.ident.role.serves || sl.ident.role == .reserve) && !sl.ident.isolated && sl.ident.failed.isNone && !sl.ident.asleep &&
  !sl.ident.frozen

/-- The check of the move just ended: a second miss in a row makes the slice failed (R412). -/
def SliceId.beatCheck (i : SliceId) : SliceId :=
  if i.beatThisMove then
    { i with beatThisMove := false, missedLast := false, singleMiss := if i.missedLast then satInc i.singleMiss else i.singleMiss }
  else if i.missedLast then { i with failed := some .heartbeat }
  else { i with missedLast := true }

/-! ### Idle slices (R502) -/

/-- Nothing is open, waits or runs in the slice. -/
def Slice.idle (sl : Slice) : Bool :=
  sl.trk.isEmpty && sl.hold.isEmpty && sl.arb.inputs.all (fun i => i.waiting.isEmpty) && sl.msc.wpq.isEmpty && sl.msc.vb.isEmpty &&
  !sl.msc.walkBusy && sl.msc.state != .draining && sl.msc.retiring.isEmpty && !sl.msc.pre.busy && sl.dir.wdSet.isNone &&
  sl.blind.isEmpty && !sl.ident.draining && sl.msc.pfq.isEmpty

/-! ### The boundary (R78) -/

/-- Cycle 0 of a move in a slice: budgets and counts at zero, the heartbeat check, MoveTick due for the armed trackers; the clock
runs (R502). -/
def Slice.boundary (sl : Slice) : Slice :=
  let quiet := sl.idle && !sl.ident.busyMove
  let i := if sl.beating then sl.ident.beatCheck else sl.ident
  { sl with
    ident := { i with idleMoves := if quiet then i.idleMoves + 1 else 0, busyMove := false, gated := false },
    arb := { sl.arb with cyc := 0, kAccept := 0, kAcceptB := 0, qCount := 0, maintCount := 0, selfDone := false, selfSlot := false },
    trk := sl.trk.map fun t => { t with moves := t.moves + 1, tickDue := t.armed },
    obs := { sl.obs with poisonLogged := 0 } }

/-- A move begins for a slice that is not isolated and whose clock runs. -/
def State.sliceBoundary (s : State) (offs : List Nat) (p : Nat) : State :=
  match s.slice p with
  | none => s
  | some sl => if sl.ident.isolated || sl.ident.asleep then s else (((s.modSlice p Slice.boundary).limitsFollow p offs).mscFollow p)

/-- The limits of records per move start anew (R164, R252, R434). -/
def State.logsAnew (s : State) : State :=
  { s with
    hostPorts := s.hostPorts.map fun h => { h with logged := [] },
    ev := { s.ev with escLogged := [], poisonDir := 0 } }

/-- The sweeper's position goes into the root record every 16,384 moves (R150). -/
def State.rootTick (s : State) : State :=
  if s.gl.move.toNat % 16384 = 0 && s.root.stage == .ready && s.gl.phase.toNat == 5 && s.root.save == .idle then s.writeRoot 0 0 0 else s

/-- What the director does by the move comes due: the sweeper's entries in every move (R150), the halving of heat every 2^HEAT_DECAY
moves (R348), the reading of the rings' heads every POLL × 65,536 moves, never with POLL 0 (R363). -/
def State.directorDue (s : State) : State :=
  let m := s.gl.move.toNat
  { s with dctl := { s.dctl with
      sweepDue := true
      decayDue := s.dctl.decayDue || m % 2 ^ s.pdHeatDecay == 0
      pollDue := s.dctl.pollDue || (s.pdPoll != 0 && m % (s.pdPoll * 65536) == 0) } }

/-- A move boundary (R77, R78): the count goes up; with the blocks' reset asserted nothing runs. -/
def State.moveBoundary (s : State) : State :=
  if !s.pins.blkPor then s
  else
    let s1 := ({ s with gl := { s.gl with move := s.gl.move + 1 } }).logsAnew
    if s.pwr.phase == .p2 then s1
    else
      let offs := s1.gl.commit.map (·.1)
      let s2 := s1.meshMove.ctlSettle.commitForce
      (((List.range s2.variant.phys).foldl (fun (s : State) p => s.sliceBoundary offs p) s2).probesFollow).rootTick.directorDue

/-! ### Gating (R502) -/

/-- Idle moves before a slice gates: GL_PWR.P1_IDLE, 0 taken as 1. -/
def State.p1Idle (s : State) : Nat := max 1 (fieldN (s.actReg 0x010) 8 12)

/-- A slice gates its clock, once its self-check of the move is done. -/
def State.p1Gate (s : State) (p : Nat) : State :=
  match s.slice p with
  | none => s
  | some sl =>
    if bitAt (s.actReg 0x010) 29 && s.pwr.phase == .p0 && sl.live && sl.beating && sl.idle && sl.arb.selfDone && !sl.ident.busyMove &&
       s.p1Idle ≤ sl.ident.idleMoves
    then s.modSlice p fun x => { x with ident := { x.ident with gated := true } }
    else s

/-! ### Meanings -/

/-- MOVE_BOUNDARY (R78). -/
def execMoveBoundary (s : State) : Host.Outcome State Fault Refusal := .next s.moveBoundary
/-- P1_GATE (R502). -/
def execP1Gate (phys : Nat) (s : State) : Host.Outcome State Fault Refusal := .next (s.p1Gate phys)
/-- P1_UNGATE (R502). -/
def execP1Ungate (phys : Nat) (s : State) : Host.Outcome State Fault Refusal :=
  .next (s.modSlice phys fun x => { x with ident := { x.ident with gated := false } })

end Sys2Proof.Machine
end

