-- ==== Sys2Proof/Machine/Start.lean ====
section
/-! DEFINITION. Commands of start-up and of the loader: the releases of the power-on resets, self-tests, headers, slots, the setup
walk, the end of the restart, reloads and fetches (01 R44 to R46, 02 R58 to R62, 11 R396 to R402, 14 R465 to R486). -/

namespace Sys2Proof.Machine

open Sys2Proof

/-! ### Power-on resets (R44, R510) -/

/-- The offset lies in the Endgame block. -/
def inEndgame (o : Nat) : Bool := 0x20000 ≤ o && o < 0x30000

/-- eg_por_n rises: filters, decisions and user calibration of the Endgame domain are as after its reset. -/
def State.egReset (s : State) : State :=
  let other (l : List (Nat × W32)) := l.filter fun x => !inEndgame x.1
  { s with eg := Endgame.blank, pins := { s.pins with egPor := true }, regs := ⟨other s.regs.base, other s.regs.act⟩,
           gl := { s.gl with commit := other s.gl.commit } }

/-- blk_por_n rises: every structure outside the Endgame unit is as after its reset, self-tests begin in the slices, and the loader
resets the NOR and reads its SFDP tables (R488). Near memory is no structure of the block, and the levels of its inputs are not its
own: the links stay up or down (log 46). -/
def State.blkReset (s : State) : State :=
  let own (l : List (Nat × W32)) := l.filter fun x => inEndgame x.1
  let port (h : HostPort) : HostPort := { HostPort.blank with linkUp := h.linkUp, inReset := h.inReset }
  { State.reset with
    variant := s.variant, pending := s.pending, free := s.free, spill := s.spill, eg := s.eg,
    pins := { s.pins with blkPor := true, regRdata := 0, regUr := false },
    regs := ⟨own s.regs.base, own s.regs.act⟩,
    gl := { Gl.blank with phase := 1, sensor := s.eg.sensor, shrunk := s.eg.shrunk },
    ld := { Loader.blank with state := .sfdp },
    hostPorts := s.hostPorts.map port,
    hids := s.hids.map fun _ => Hid.blank,
    agentPorts := s.agentPorts.map fun _ => AgentPort.blank 17,
    slices := s.slices.map fun _ => Slice.blank 16 8,
    memPorts := s.memPorts.map fun _ => ⟨[], [], 0, 0⟩ }

/-- A slice has finished its SRAM clear and self-test (R58); a slice fused off has none. -/
def State.selfTest (s : State) (p : Nat) (pass : Bool) : State :=
  match s.slice p with
  | none => s
  | some sl =>
    if !s.pins.blkPor || s.variant.phys ≤ p || bitAt s.pins.fuseOff p || sl.ident.selfTest.isSome then s
    else
      let s1 := s.modSlice p fun x => { x with ident := { x.ident with selfTest := some pass } }
      if s1.testsDone && s1.gl.phase == 1 then { s1 with gl := { s1.gl with phase := 3 } } else s1

/-! ### Slots (R466, R475 to R481) -/

/-- The loader has read both headers: at power-on with the SFDP tables, after RETRY without reading them anew. Without SFDP tables no
slot is valid (R466). -/
def State.headersRead (s : State) (a b : List Byte) (x : Option Sfdp) : State :=
  let first := s.ld.state == .sfdp
  let again := s.ld.state == .loading && s.ld.toTry.isEmpty && !s.ld.accepted && s.gl.phase != 6
  if !first && !again then s
  else
    let s1 := { s with ld := { s.ld with state := .loading, sfdp := if first then x.filter Sfdp.ok else s.ld.sfdp } }
    let s2 := if s1.ld.sfdp.isSome then s1.headersIn a b else s1.headersIn [] []
    if s2.ld.toTry.isEmpty then s2.noImage else s2

/-- A slot has been read and checked (R476, R477): it passes, it waits for the root of trust, or the other slot is next. -/
def State.slotLoaded (s : State) (bytes : List Byte) : State :=
  if s.ld.state != .loading || s.ld.accepted || s.ld.toTry.isEmpty || s.gl.phase == 6 then s
  else
    let s1 := s.slotRead bytes
    if s1.ld.toTry.isEmpty then s1.noImage else s1

/-- The setup walk runs once the self-tests are done and a slot is accepted (R62), and the slot's contents are written (R479). The
move in which the slices begin is no full move for the heartbeat check. -/
def State.setup (s : State) : State :=
  if s.testsDone && s.ld.accepted && s.ld.state == .loading then
    let s1 := s.startImage
    { s1 with slices := s1.slices.map fun sl => { sl with ident := { sl.ident with beatThisMove := true } } }
  else s

/-! ### The end of a restart (R399, R402) -/

/-- A slice begins serving: its LFSR loads SEED, 0 as 1 (R94, R539). -/
def State.seedLfsr (s : State) (p : Nat) : State :=
  let d := (s.slReg p 0x0C4).extractLsb' 0 16
  s.modSlice p fun sl => { sl with arb := { sl.arb with lfsr := if d = 0 then 1 else d } }

/-- A declared host identity starts Unbound (R177). -/
def Hid.unbound (h : Hid) : Hid := { h with st := if h.valid then .unbound else .undeclared, windowLeft := 0 }

/-- The entry to P2 begins (R503). -/
def State.p2Enter (s : State) : State :=
  let port (a : AgentPort) : AgentPort := { a with stopped := true }
  let walk (sl : Slice) : Slice := if sl.ident.role.serves && !sl.ident.isolated then sl.startDrain else sl
  let s1 := { s with pwr := { s.pwr with dstate := 3, phase := .entering, later := none, ack := false },
                     agentPorts := s.agentPorts.map port }
  let s2 := (s1.abandonMoves).listStop 0x0C
  let s3 := if s2.ld.fetch.isSome then s2.fetchEnd 8 else s2
  if s3.eg.drainReq then s3 else { s3 with slices := s3.slices.map walk }

/-- What was asked for before the block served is acted on now: a P3 request, a D-state, a warm request. -/
def State.asked (s : State) : State :=
  let s1 := if s.pwr.p3 then s.drainCause 4 else s
  let s2 := if s1.pwr.phase == .p0 && s1.pwr.later == some 3 then s1.p2Enter else s1
  s2.warmDrain

/-- Before service the director gives a range adopted at the walk its class-K pages, which its sweeper visits first (R61, R423). -/
def State.blindPins (s : State) : State :=
  let fb (b : Blind) : Blind := { b with kpages := s.kpinList.filter fun pg => s.homeOf pg == b.log }
  { s with slices := s.slices.map fun sl => { sl with blind := sl.blind.map fb } }

/-- The restart is complete: the block accepts its first request, START gives way to NORMAL, and the declared identities whose
links are up bind (R177, R402). -/
def State.restartDone (s : State) : State :=
  let up := s.eg.pstate == .start || s.eg.pstate == .normal || s.eg.pstate == .ride
  if !up || s.root.stage != .ready || s.gl.phase != 4 then s
  else
    let s1 := { s with
      gl := { s.gl with phase := 5, serving := true },
      eg := if s.eg.pstate == .start then { s.eg with pstate := .normal, frozen := false, causes := Causes.none } else s.eg }
    let s2 := (List.range s.variant.phys).foldl State.seedLfsr (if s.gl.serving then s1 else s1.blindPins)
    let s3 := (List.range s.variant.agents).foldl State.dealCredits s2
    s3.bindHids.kick.asked

/-! ### Reload (R483) -/

/-- After warm_ack with a reload armed the loader loads a slot; without SFDP tables no slot is valid. -/
def State.reload (s : State) (a b : List Byte) : State :=
  if !(s.pwr.warm && s.pwr.warmAck && s.ld.armed) || s.ld.busy then s
  else if s.ld.sfdp.isSome then s.beginReload a b else s.beginReload [] []

/-! ### Meanings -/

/-- EG_POR_RELEASE (R44). -/
def execEgPorRelease (s : State) : Host.Outcome State Fault Refusal := .next s.egReset
/-- BLK_POR_RELEASE (R488). -/
def execBlkPorRelease (s : State) : Host.Outcome State Fault Refusal := .next s.blkReset
/-- SELF_TEST_DONE (R58). -/
def execSelfTestDone (phys : Nat) (found : SelfTest) (s : State) : Host.Outcome State Fault Refusal := .next (s.selfTest phys found.passes)
/-- SLOT_HEADERS_READ (R475). -/
def execSlotHeadersRead (slotA slotB : SlotBytes) (sfdp : Option Sfdp) (s : State) : Host.Outcome State Fault Refusal :=
  .next (s.headersRead slotA slotB sfdp)
/-- IMAGE_SLOT_LOADED (R476). -/
def execImageSlotLoaded (bytes : List (BitVec 8)) (s : State) : Host.Outcome State Fault Refusal := .next (s.slotLoaded bytes)
/-- ROOT_OF_TRUST_TIMEOUT (R478). -/
def execRootOfTrustTimeout (s : State) : Host.Outcome State Fault Refusal := .next (s.rotDecide false)
/-- SETUP_WALK (R59). -/
def execSetupWalk (s : State) : Host.Outcome State Fault Refusal := .next s.setup
/-- RESTART_COMPLETE (R402). -/
def execRestartComplete (s : State) : Host.Outcome State Fault Refusal := .next s.restartDone
/-- WARM_RELOAD (R483). -/
def execWarmReload (slotA slotB : SlotBytes) (s : State) : Host.Outcome State Fault Refusal := .next (s.reload slotA slotB)
/-- FETCH_STEP_DONE (R485). -/
def execFetchStepDone (e : FetchEvent) (s : State) : Host.Outcome State Fault Refusal := .next (s.fetchStep e)
/-- NOR_ERASE_PROGRAM_TIMEOUT (R486). -/
def execNorEraseProgramTimeout (s : State) : Host.Outcome State Fault Refusal := .next s.norTimeout

end Sys2Proof.Machine
end

