-- ==== Sys2Proof/Machine/Power.lean ====
section
/-! DEFINITION. Commands of the Endgame unit, of GPF, of the power states and of the warm reset (01 R44, R45; 11 R367 to R392;
15 R501 to R507; 18 R562). -/

namespace Sys2Proof.Machine

open Sys2Proof

/-! ### The Endgame unit (R367 to R388) -/

/-- The Endgame unit is out of reset. -/
def State.egRuns (s : State) (f : State → State) : State := if s.pins.egPor then f s else s

/-- The feed has been good for 50 ms. -/
def State.debounced (s : State) : State :=
  if s.eg.pstate == .debounce && s.eg.good then { s with eg := { s.eg with pstate := .start, pg := true } } else s

/-- The ride-through time has ended. -/
def State.rideEnds (s : State) : State := if s.eg.pstate == .ride then s.drainCause 2 else s

/-- The feed has been good for RECOVER. -/
def State.rideRecovers (s : State) : State :=
  if s.eg.pstate == .ride && s.eg.good then
    ({ s with eg := { s.eg with pstate := .normal, frozen := false } }).logEv 0x32 0 srcEndgame 0 0
  else s

/-! ### The end of a drain (R382, R383) -/

/-- A store-buffer entry that is not yet committed: still in the buffer, or sent and not answered. -/
def AgentPort.uncommitted (a : AgentPort) (r : PortReq) : Bool :=
  r.inBuf && (r.stage == .buffered ||
    (r.stage == .sent && r.req.kind != .fence && !(a.inbound.any fun x => x.agent == r.agent && x.tag.toNat == r.req.tag)))

/-- A slice has drained; one whose arrays P2 has powered down has nothing to drain (R506). -/
def Slice.drained (sl : Slice) : Bool :=
  !sl.ident.role.serves || sl.ident.isolated ||
  (sl.ident.failed.isNone && (sl.ident.asleep ||
    (sl.ident.drainPass && !(sl.msc.lines.any fun x => x.2.dirty) && sl.msc.vb.isEmpty && sl.msc.wpq.isEmpty)))

/-- Every slice has completed its drain, and no takeover or adoption is under way. -/
def State.drained (s : State) : Bool :=
  s.slices.all Slice.drained && s.cast.replays.isEmpty && !s.anyStalled &&
  s.agentPorts.all fun a => !(a.held.any a.uncommitted)

/-- The drain is complete: SAVE begins with the slices frozen, or a warm request is acknowledged. -/
def State.drainDone (s : State) : State :=
  if !s.drained then s
  else if s.eg.pstate == .drain then
    let stop (sl : Slice) : Slice := { sl with ident := { sl.ident with frozen := true, draining := false } }
    ({ s with eg := { s.eg with pstate := .save }, slices := s.slices.map stop }).beginSave s.eg.causes.shutdown
  else if s.pwr.warm && s.pwr.phase == .p0 && (s.eg.pstate == .normal || s.eg.pstate == .ride) then
    let rest (sl : Slice) : Slice := { sl with ident := { sl.ident with draining := false } }
    { s with pwr := { s.pwr with warmAck := true }, slices := s.slices.map rest }
  else s

/-! ### GPF (R390, R391, R562) -/

/-- Phase 1: Flush is presented to every enabled caching agent. -/
def State.gpfOne (s : State) : State :=
  let want (p : Nat) : BitVec 4 :=
    BitVec.ofNat 4 (bitsOf ((List.range 4).map fun g => p < s.variant.agents && s.agentOn p g && s.agentCaching p g &&
      (match s.agentPort p with | some a => !bitAt a.silent g | none => false)))
  { s with pwr := { s.pwr with gpf1 := true, gpf1Ack := false },
           agentPorts := s.agentPorts.mapIdx fun p a => { a with flush := want p } }

/-- Phase 2: DRAIN with GPF as the cause. -/
def State.gpfTwo (s : State) : State :=
  ({ s with pwr := { s.pwr with gpf2 := true, gpf2Ack := false } }).drainCause 5

/-- A phase request; during an entry to P2 it waits for the entry's end. -/
def State.gpf (s : State) (n : Nat) : State :=
  if s.pwr.phase == .entering then { s with pwr := { s.pwr with gpfLater := s.pwr.gpfLater ++ [n] } }
  else if n = 1 then s.gpfOne else s.gpfTwo

/-- Phase 1 is done: every Flush answered, every WbDirty complete, every store buffer empty. -/
def State.gpfOneDone (s : State) : State :=
  let clear (a : AgentPort) : Bool :=
    a.flush = 0 && !(a.held.any fun r => (r.req.kind == .wbDirty && r.stage != .received) || r.buffers)
  if s.pwr.gpf1 && s.agentPorts.all clear then { s with pwr := { s.pwr with gpf1Ack := true } } else s

/-! ### P2 and P3 (R501 to R507) -/

/-- The exit from P2: the clocks run, the unpowered arrays are clear, the ports return credits; the heartbeat check resumes with the
first full move. -/
def State.p2Exit (s : State) : State :=
  let wake (sl : Slice) : Slice := { sl with ident := { sl.ident with asleep := false, beatThisMove := true, missedLast := false } }
  let port (a : AgentPort) : AgentPort := { a with stopped := s.eg.drainReq }
  ({ s with pwr := { s.pwr with dstate := 0, phase := .p0, later := none, ack := true }, slices := s.slices.map wake,
            agentPorts := s.agentPorts.map port }).kick

/-- A slice has finished step 4 of the entry. -/
def Slice.p2Ready (sl : Slice) : Bool :=
  !sl.ident.role.serves || sl.ident.isolated ||
  (sl.ident.failed.isNone && !sl.ident.frozen && sl.trk.isEmpty && sl.hold.isEmpty && sl.ident.drainPass && sl.msc.lines.isEmpty &&
    sl.msc.vb.isEmpty && sl.msc.wpq.isEmpty)

/-- Step 5: monitors, predictor and prefetch queue are cleared, and the arrays lose power. -/
def Slice.p2Sleep (sl : Slice) : Slice :=
  { sl with
    ident := { sl.ident with asleep := true, draining := false, gated := false },
    dir := { sl.dir with monitors := [], pred := [] },
    msc := { sl.msc with pfq := [], plru := [] } }

/-- What waited for the end of an entry is acted on: GPF phases (R562), a warm request (R506), a D-state (R505). -/
def State.p2After (s : State) : State :=
  let s1 := s.pwr.gpfLater.foldl (fun s n => s.gpf n) { s with pwr := { s.pwr with gpfLater := [] } }
  let s2 := s1.warmDrain
  if s2.pwr.later == some 0 then s2.p2Exit else s2

/-- The entry is complete: the agents' reservations go too (R283), and pm_ack is asserted. -/
def State.p2Done (s : State) : State :=
  if s.pwr.phase != .entering || !s.slices.all Slice.p2Ready || !s.cast.replays.isEmpty || s.agentPorts.any (fun a => a.held.any a.uncommitted) then s
  else
    ({ s with pwr := { s.pwr with phase := .p2, ack := true }, slices := s.slices.map Slice.p2Sleep,
              agentPorts := s.agentPorts.map fun (a : AgentPort) => { a with resv := [] } }).p2After

/-- D3hot is accepted; before the block serves it waits. -/
def State.d3hot (s : State) : State :=
  match s.pwr.phase with
  | .p0 => if s.gl.serving then s.p2Enter else { s with pwr := { s.pwr with later := some 3 } }
  | .entering => { s with pwr := { s.pwr with later := none } }
  | .p2 => s

/-- D0 is accepted; during an entry it waits for the entry's end. -/
def State.d0 (s : State) : State :=
  match s.pwr.phase with
  | .p0 => { s with pwr := { s.pwr with dstate := 0, later := none } }
  | .entering => { s with pwr := { s.pwr with later := some 0 } }
  | .p2 => s.p2Exit

/-- pm_p3_req is latched (R507): DRAIN with shutdown as the cause; a fetch and a page list end (R486, R500). Reservation registers and
monitors are clear (R283). -/
def State.p3 (s : State) : State :=
  if s.pwr.p3 then s
  else
    let s1 := { s with pwr := { s.pwr with p3 := true, ack := s.pwr.ack || s.eg.pstate == PState.saved } }
    let fm (sl : Slice) : Slice := { sl with dir := { sl.dir with monitors := [] } }
    let s2 := ({ s1 with agentPorts := s1.agentPorts.map fun (a : AgentPort) => a.clearRes fun _ => true, slices := s1.slices.map fm }).listStop 0x0C
    (if s2.ld.fetch.isSome then s2.fetchEnd 8 else s2).drainCause 4

/-! ### The warm reset (R44, R45, R146, R506) -/

/-- warm_req: the ports stop taking requests, the block drains. -/
def State.warmAsk (s : State) : State :=
  if s.pwr.warm then s else ({ s with pwr := { s.pwr with warm := true, warmAck := false } }).warmDrain

/-- A slice after a warm reset: trackers, hold, snoop filter, spill bindings, monitors, predictor, prefetch queue and cache contents are
clear, and with them what they waited for; registers, the page-map cache, the return queues and host requests that wait at the inputs
stay. -/
def Slice.warmReset (sl : Slice) : Slice :=
  { sl with
    trk := [], hold := [], pmOut := [], stamps := [], marks := [], quiesce := [], rereads := [],
    arb := { sl.arb with inputs := sl.arb.inputs.map fun i =>
      { i with waiting := (i.waiting.filter fun q => q.hid.isSome).map fun q => { q with withK := false }, kcredit := none } },
    dir := { sl.dir with sf := [], plru := [], bkt := [], pred := [], monitors := [], fences := [] },
    msc := { sl.msc with lines := [], plru := [], vb := [], wpq := [], walkBusy := false, pfq := [] },
    mir := ⟨[], [], [], [], [], [], sl.mir.uidNext⟩ }

/-- An agent port after a warm reset: reservations go, and requests that were sent and whose response is not on its way; requests not
yet sent stay. -/
def AgentPort.warmReset (a : AgentPort) : AgentPort :=
  let coming (r : PortReq) : Bool := a.inbound.any fun x => x.agent == r.agent && x.tag.toNat == r.req.tag
  { a with resv := [], snq := [], kept := [],
           held := a.held.filter fun r => r.stage != .sent || (r.req.kind != .fence && coming r) }

/-- A memory port after a warm reset: commands of cleared trackers not yet issued go; those the memory still has to answer keep their
TAGs, and their answers are discarded. -/
def MemPort.warmReset (m : MemPort) : MemPort :=
  let dir (c : MemCmd) : Bool := c.owner == .director
  { m with waiting := m.waiting.filter dir, out := m.out.map fun c => { c with givenUp := c.givenUp || !dir c } }

/-- A hint whose slot access was lost makes it again. -/
def HintCtx.warmReset (c : HintCtx) : HintCtx :=
  { c with stage := match c.stage with
    | .readWait => .read
    | .resultWait => .result
    | .slotWait => .slotWrite
    | st => st }

/-- Messages under way that a warm reset leaves: entry updates, heat and doorbells. -/
def NMsg.keeps : NMsg → Bool
  | .entry _ => true
  | .heat .. => true
  | .doorbell _ => true
  | _ => false

/-- The director after a warm reset: moves and cleanings that waited on the slices end as R381 ends them. -/
def State.warmDirector (s : State) : State :=
  let s1 := { s with net := s.net.filter NMsg.keeps }
  let s2 := { s1 with dir := { s1.dir with waiting := [], marks := [], cleaning := s1.dir.cleaning.filter fun (c : Cleaning) => c.copying,
                                           moves := s1.dir.moves.map fun (m : Move) => { m with askers := [] } } }
  let s3 := s2.abandonMoves
  { s3 with net := s3.net.filter NMsg.keeps,
            dctl := { s3.dctl with ctxs := s3.dctl.ctxs.map HintCtx.warmReset, slotDone := [], kpLoad := [] } }

/-- fab_rst_n after warm_ack, and after a reload if one is armed: the warm-reset domain is cleared and the game number goes up by one;
a root copy with it is written before the first request (R146). Outside the handshake nothing happens (log 45). -/
def State.warmReset (s : State) : State :=
  if !(s.pwr.warm && s.pwr.warmAck) || s.ld.armed || s.ld.busy then s
  else
    let s1 := { s with
      slices := s.slices.map Slice.warmReset,
      agentPorts := s.agentPorts.map AgentPort.warmReset,
      memPorts := s.memPorts.map MemPort.warmReset,
      hids := s.hids.map Hid.unbound,
      ring := [], ringSnoops := [],
      fb := { s.fb with claims := [], inject := [], escKeep := [], lossDue := [] },
      pwr := { s.pwr with warm := false, warmAck := false },
      gl := { s.gl with game := s.gl.game + 1, phase := 4, serving := false } }
    let s2 := s1.warmDirector.sweepIncrement
    let s3 := (List.range s.variant.agents).foldl State.dealCredits s2
    -- a save in progress writes the new number with its own copies, and the restart goes on after it
    if s3.root.save == .idle then
      ({ s3 with root := { s3.root with repin := s3.kpinList, poison := [], sent := 0, progress := 0 } }).writeRunning
    else { s3 with root := { s3.root with repin := s3.kpinList, poison := [], stage := .writing } }

/-! ### Meanings -/

/-- WARM_REQ (R45). -/
def execWarmReq (s : State) : Host.Outcome State Fault Refusal := .next s.warmAsk
/-- FAB_RST (R44). -/
def execFabRst (s : State) : Host.Outcome State Fault Refusal := .next s.warmReset
/-- ENDGAME_INPUT_CHANGE (R377). -/
def execEndgameInputChange (i : EgInputs) (s : State) : Host.Outcome State Fault Refusal := .next (s.egRuns fun s => s.egInputs i)
/-- ADC_SAMPLE (R370). -/
def execAdcSample (chan : Nat) (code : BitVec 12) (s : State) : Host.Outcome State Fault Refusal :=
  .next (s.egRuns fun s => s.adcTurn chan code)
/-- ALLOWANCE_COMPUTE (R387). -/
def execAllowanceCompute (s : State) : Host.Outcome State Fault Refusal := .next s.allowCompute
/-- DEBOUNCE_COMPLETE (R377). -/
def execDebounceComplete (s : State) : Host.Outcome State Fault Refusal := .next s.debounced
/-- RIDE_TIME_END (R377). -/
def execRideTimeEnd (s : State) : Host.Outcome State Fault Refusal := .next s.rideEnds
/-- RIDE_RECOVER (R377). -/
def execRideRecover (s : State) : Host.Outcome State Fault Refusal := .next s.rideRecovers
/-- DRAIN_COMPLETE (R382). -/
def execDrainComplete (s : State) : Host.Outcome State Fault Refusal := .next s.drainDone
/-- GPF_PHASE1 (R390). -/
def execGpfPhase1 (s : State) : Host.Outcome State Fault Refusal := .next (s.gpf 1)
/-- GPF_PHASE1_ACK (R390). -/
def execGpfPhase1Ack (s : State) : Host.Outcome State Fault Refusal := .next s.gpfOneDone
/-- GPF_PHASE2 (R391). -/
def execGpfPhase2 (s : State) : Host.Outcome State Fault Refusal := .next (s.gpf 2)
/-- PM_DSTATE_D3HOT (R503). -/
def execPmDstateD3hot (s : State) : Host.Outcome State Fault Refusal := .next s.d3hot
/-- P2_ENTRY_COMPLETE (R503). -/
def execP2EntryComplete (s : State) : Host.Outcome State Fault Refusal := .next s.p2Done
/-- PM_DSTATE_D0 (R505). -/
def execPmDstateD0 (s : State) : Host.Outcome State Fault Refusal := .next s.d0
/-- PM_P3_REQ (R507). -/
def execPmP3Req (s : State) : Host.Outcome State Fault Refusal := .next s.p3
/-- PM_DSTATE_RESERVED (R501): the D-state last accepted is kept and the error counted; the values that are not reserved are no such
event. -/
def execPmDstateReserved (value : BitVec 2) (s : State) : Host.Outcome State Fault Refusal :=
  .next (if value = 1 || value = 2 then { s with pwr := { s.pwr with dErr := s.pwr.dErr + 1 } } else s)

end Sys2Proof.Machine
end

