-- ==== Sys2Proof/Machine/RegWrite.lean ====
section
/-! DEFINITION. Register accesses as commands: writes in every view and the command fields they trigger, reads, the expansion ROM
window, the atomic aperture, the DVSEC (15 R489 to R500, 16 R509 to R519). -/

namespace Sys2Proof.Machine

open Sys2Proof

/-! ### Command fields (R509) -/

/-- A restart that is held goes on (R397): after ROOT_BAD with a fresh root record of game 0x00, no pins and SEQ 1. -/
def State.acceptLoss (s : State) : State :=
  if !s.root.held then s
  else if s.root.rootBad then
    ({ s with gl := { s.gl with game := 0 },
              dctl := { s.dctl with sweepPage := 0, sweepGame := 0, sweepIncs := 0, sweepFast := false },
              root := { s.root with seq := 0, nextSecond := false, repin := [], sent := 0, progress := 0 } }).writeRunning
  else s.writeRunning

/-- EG_CTL (R397). -/
def State.egCtl (s : State) (w : W32) : State :=
  let s1 := if bitAt w 31 then s.drainCause 4 else s
  if bitAt w 30 then s1.acceptLoss else s1

/-- LD_ROT (R478); ACCEPT goes before REJECT. -/
def State.ldRot (s : State) (w : W32) : State :=
  if bitAt w 31 then s.rotDecide true else if bitAt w 30 then s.rotDecide false else s

/-- PD_RING_CTL.RESET (R364): the ring's head and result sequence go to 0; a ring above COUNT - 1 is counted (R511, R527). -/
def State.ringReset (s : State) (w : W32) : State :=
  let r := fieldN w 16 14
  if s.pdRings ≤ r then s.cfgError 0x3002C
  else { s with dctl := { s.dctl with heads := kdel r s.dctl.heads, rseqs := kdel r s.dctl.rseqs } }

/-- PD_LIST_CTL (R500): the fields are those the register holds after the write. -/
def State.listCtl (s : State) (w : W32) : State :=
  let c := s.actReg 0x30048
  let s1 := if bitAt w 31 then
      s.listStart (s.actReg 0x30044 ++ s.actReg 0x30040) (fieldN c 22 8) (c.extractLsb' 20 2) (fieldN c 0 20) else s
  (if bitAt w 30 then s1.listStop 0x0C else s1).listRun 10000

/-- SL_MSC_PRE_CMD (R315, R316). -/
def State.preCmd (s : State) (p : Nat) (w : W32) : State :=
  match s.slice p with
  | none => s
  | some sl =>
    let first : Page := (s.slReg p 0x110).extractLsb' 0 4 ++ s.slReg p 0x10C
    let n := fieldN w 0 24
    let s1 :=
      if !bitAt w 31 then s
      else if sl.msc.pre.busy then s.count p 0x2C none
      else if n = 0 then s
      else s.modMsc p fun m =>
        { m with pre := ⟨true, m.pre.done, first, n, 0, if bitAt w 29 then some 0 else none, 0, m.pre.loaded⟩ }
    if bitAt w 30 && (match s1.slice p with | some x => x.msc.pre.busy | none => false) then s1.preloadEnd p else s1

/-- SL_PMC_CLR (R463): counters are cleared at once. -/
def State.pmcClr (s : State) (p : Nat) (w : W32) : State :=
  s.modSlice p fun sl =>
    { sl with obs := { sl.obs with cyc := if bitAt w 8 then sl.obs.cyc.clear else sl.obs.cyc,
                                   pmc := sl.obs.pmc.mapIdx fun i k => if bitAt w i then k.clear else k } }

/-- The command fields of the register at a base offset, on the enabled bytes of a write by a master that may use them. -/
def State.regCommand (s : State) (o : Nat) (w : W32) : State :=
  if o = 0x008 then s.commit w
  else if o = 0x014 then { s with gl := { s.gl with gameIgnored := satInc s.gl.gameIgnored } }
  else if o = 0x10010 then s.ldCmd w
  else if o = 0x10014 then s.ldRot w
  else if o = 0x20004 then s.egCtl w
  else if o = 0x3002C then if bitAt w 31 then s.ringReset w else s
  else if o = 0x30048 then s.listCtl w
  else if o = 0x50000 then if bitAt w 29 then { s with fb := s.fb.flush } else s
  else if 0x50100 ≤ o && o < 0x50400 && o % 0x40 = 0 then
    if bitAt w 25 then { s with fb := s.fb.clearProbe (o % 0x1000 / 0x40 - 4) } else s
  else match sliceOfOff o with
    | none => s
    | some p =>
      let r := o % 0x40000
      if r = 0x114 then s.preCmd p w
      else if r = 0x300 then if bitAt w 31 then s.peek p (s.actReg o) else s
      else if r = 0x888 then s.pmcClr p w
      else s

/-! ### Writes (R492, R493, R509, R512, R513, R517) -/

/-- A write of FB_EVT_HI or FB_EVT_LO changes nothing and is not counted (13). -/
def isEvtData (o : Nat) : Bool := 0x50010 ≤ o && o ≤ 0x5001C

/-- A register has a field of type RW, RWB or GS, so that its aliases may be written (R492). -/
def State.aliasOk (s : State) (o : Nat) : Bool := (regDef s.variant o).isSome || gsBits o != 0 || slInputReg o

/-- The bits of a write that reach a register: enabled bytes, GS bits only from a privileged and secure master. -/
def writeMask (o : Nat) (w : RegAcc) : W32 := beMask w.be &&& (if w.priv && w.sec then BitVec.allOnes 32 else ~~~gsBits o)

/-- A write to the base view. -/
def State.baseWrite (s : State) (o : Nat) (w : RegAcc) : State :=
  let m := writeMask o w
  let reset := o = 0x3002C && bitAt (w.data &&& m) 31
  let s1 := match regDef s.variant o with
    | some d => if reset || m = 0 then s else s.store o d ((s.baseReg o &&& ~~~m) ||| (w.data &&& m))
    | none => s
  s1.regCommand o (w.data &&& m)

/-- A write to an alias: 1 sets, 2 clears, 3 toggles. No command field is triggered. -/
def State.aliasWrite (s : State) (o view : Nat) (w : RegAcc) : State :=
  let v := w.data &&& writeMask o w
  match regDef s.variant o with
  | some d =>
    let old := s.baseReg o
    if v = 0 then s else s.store o d (if view = 1 then old ||| v else if view = 2 then old &&& ~~~v else old ^^^ v)
  | none => s

/-- One write at a window offset. -/
def State.regWrite (s : State) (off : BitVec 27) (w : RegAcc) : State :=
  let n := off.toNat
  let o := n % 0x1000000
  let view := n / 0x1000000
  if 4 ≤ view || !s.defined o || (view != 0 && !s.aliasOk o) then s.ur
  else
    let s1 := { s with pins := { s.pins with regUr := false } }
    if s.offIsolated o || isEvtData o then s1
    else
      let s2 := if gsBits o != 0 && !(w.priv && w.sec) then s1.guarded true off else s1
      let s3 := s2.touchSlice o
      if view = 0 then s3.baseWrite o w else s3.aliasWrite o view w

/-! ### The expansion ROM window and the atomic aperture (R494, R497, R519) -/

/-- A read of the ROM window. -/
def State.romRead (s : State) (off : BitVec 27) : State := s.answer (s.romWord (off.toNat / 4 * 4))

/-- A write of the ROM window. -/
def State.romWrite (s : State) : State :=
  { s with ld := { s.ld with romWrites := s.ld.romWrites + 1 }, pins := { s.pins with regUr := false } }

/-- First byte of the hint window: the shared window's BASE in units of 128 MiB (R496). -/
def State.hintBase (s : State) : Nat :=
  match s.cfg.windows.find? fun w => w.type == 0b11 && w.used with
  | some w => 134217728 * w.base.toNat
  | none => 0

/-- ATOM_EN: AP_IOATOM.ENABLE in force and an aperture fitted (R489). -/
def State.atomEn (s : State) : Bool := bitAt (s.actReg 0x40080) 31 && s.pins.atomBir != 0b111

/-- The word at an offset of the block's DVSEC (R489): its 64 B read the values that the block holds now; before an image is loaded
only the identification and the tie-offs do not read 0 (R490). -/
def State.dvsecWord (s : State) (o : Nat) : W32 :=
  let base := s.hintBase
  let seen := s.ld.state == .loaded || s.cfg.windows.any fun w => w.used
  let valid := s.ld.state == .loaded && (s.cfg.windows.any fun w => w.type == 0b11 && w.used)
  if o = 0x00 then s.pins.dvsecNext ++ (0x1 : BitVec 4) ++ (0x0023 : BitVec 16)
  else if o = 0x04 then (0x040 : BitVec 12) ++ (0x1 : BitVec 4) ++ s.pins.dvsecVid
  else if o = 0x08 then (0x3 : BitVec 4) ++ (0x2 : BitVec 4) ++ BitVec.ofNat 8 s.variant.active ++ (0x0A51 : BitVec 16)
  else if o = 0x0C then word32 [(7, n1 (seen && s.atomEn)), (4, s.pins.atomBir.toNat), (0, s.pins.regBir.toNat)]
  else if !seen then 0
  else if o = 0x10 then word32 [(29, s.gl.health), (28, n1 s.root.held), (26, s.root.last.toNat), (25, n1 s.ld.fallback)]
  else if o = 0x14 then BitVec.ofNat 32 s.saveEst
  else if o = 0x18 then word32 [(27, if valid then base / 134217728 % 32 else 0), (0, n1 valid)]
  else if o = 0x1C then BitVec.ofNat 32 (if valid then base / 4294967296 % 65536 else 0)
  else if o = 0x20 then s.ld.seq
  else 0

/-- An AtomicOp that hits the aperture (R497, R261, R262). -/
def State.aperture (s : State) (o : Nat) (a : AgentMsg) (data : Line) : State :=
  if !s.atomEn || 134217728 ≤ o then s.ur
  else
    let r := s.actReg 0x40080
    s.agentRequest .atomicOp
      { a with port := fieldN r 2 3, agent := r.extractLsb' 0 2, opc := 0x16, addr := BitVec.ofNat 52 (s.hintBase + o) } data false

/-! ### Meanings: writes that the table gives a row of their own -/

/-- A write with a bit of the data set, whatever it holds besides. -/
def withBits (w : RegAcc) (m : W32) : RegAcc := { w with data := w.data ||| m }

/-- A write at a base offset. -/
def State.writeAt (s : State) (o : Nat) (w : RegAcc) : State := s.regWrite (BitVec.ofNat 27 o) w

/-- A write at an offset of a slice's block. -/
def State.writeSl (s : State) (p o : Nat) (w : RegAcc) : State := s.writeAt (slBase p + o) w

/-- A read at a base offset. -/
def State.readAt (s : State) (o : Nat) (r : RegRd) : State := s.regRead (BitVec.ofNat 27 o) r

/-- PD_LIST_START (R500). -/
def execPdListStart (w : RegAcc) (s : State) : Host.Outcome State Fault Refusal := .next (s.writeAt 0x30048 (withBits w 0x80000000))
/-- PD_LIST_ABORT (R500). -/
def execPdListAbort (w : RegAcc) (s : State) : Host.Outcome State Fault Refusal := .next (s.writeAt 0x30048 (withBits w 0x40000000))
/-- PD_RING_CTL_RESET (R364). -/
def execPdRingCtlReset (w : RegAcc) (s : State) : Host.Outcome State Fault Refusal := .next (s.writeAt 0x3002C (withBits w 0x80000000))
/-- FB_TRACE_CTL_FLUSH (R458). -/
def execFbTraceCtlFlush (w : RegAcc) (s : State) : Host.Outcome State Fault Refusal := .next (s.writeAt 0x50000 (withBits w 0x20000000))
/-- FB_PRB_CTL_CLEAR (R451). -/
def execFbPrbCtlClear (probe : Nat) (w : RegAcc) (s : State) : Host.Outcome State Fault Refusal :=
  .next (s.writeAt (0x50100 + 0x40 * probe) (withBits w 0x02000000))
/-- SL_PMC_CLR_CYC (R463). -/
def execSlPmcClrCyc (phys : Nat) (w : RegAcc) (s : State) : Host.Outcome State Fault Refusal := .next (s.writeSl phys 0x888 (withBits w 0x100))
/-- SL_PMC_CLR_CNT (R463): the counters that the data selects. -/
def execSlPmcClrCnt (phys : Nat) (w : RegAcc) (s : State) : Host.Outcome State Fault Refusal := .next (s.writeSl phys 0x888 w)
/-- SL_PEEK_GO (R542). -/
def execSlPeekGo (phys : Nat) (w : RegAcc) (s : State) : Host.Outcome State Fault Refusal := .next (s.writeSl phys 0x300 (withBits w 0x80000000))
/-- SL_MSC_PRE_START (R315). -/
def execSlMscPreStart (phys : Nat) (w : RegAcc) (s : State) : Host.Outcome State Fault Refusal :=
  .next (s.writeSl phys 0x114 (withBits w 0x80000000))
/-- SL_MSC_PRE_ABORT (R316). -/
def execSlMscPreAbort (phys : Nat) (w : RegAcc) (s : State) : Host.Outcome State Fault Refusal :=
  .next (s.writeSl phys 0x114 (withBits w 0x40000000))
/-- GL_COMMIT (R79). -/
def execGlCommit (w : RegAcc) (s : State) : Host.Outcome State Fault Refusal := .next (s.writeAt 0x008 w)
/-- GL_GAME_WRITE (R145). -/
def execGlGameWrite (w : RegAcc) (s : State) : Host.Outcome State Fault Refusal := .next (s.writeAt 0x014 w)
/-- REGISTER_ALIAS_WRITE (R513). -/
def execRegisterAliasWrite (offset : BitVec 27) (w : RegAcc) (s : State) : Host.Outcome State Fault Refusal := .next (s.regWrite offset w)
/-- REGISTER_WRITE (R509). -/
def execRegisterWrite (offset : BitVec 27) (w : RegAcc) (s : State) : Host.Outcome State Fault Refusal := .next (s.regWrite offset w)
/-- LD_CMD_FETCH (R485). -/
def execLdCmdFetch (w : RegAcc) (s : State) : Host.Outcome State Fault Refusal := .next (s.writeAt 0x10010 (withBits w 0x80000000))
/-- LD_CMD_ARM_RELOAD (R483). -/
def execLdCmdArmReload (w : RegAcc) (s : State) : Host.Outcome State Fault Refusal := .next (s.writeAt 0x10010 (withBits w 0x40000000))
/-- LD_CMD_DISARM (R483). -/
def execLdCmdDisarm (w : RegAcc) (s : State) : Host.Outcome State Fault Refusal := .next (s.writeAt 0x10010 (withBits w 0x20000000))
/-- LD_CMD_RETRY (R481). -/
def execLdCmdRetry (w : RegAcc) (s : State) : Host.Outcome State Fault Refusal := .next (s.writeAt 0x10010 (withBits w 0x10000000))
/-- LD_ROT_ACCEPT (R478). -/
def execLdRotAccept (w : RegAcc) (s : State) : Host.Outcome State Fault Refusal := .next (s.writeAt 0x10014 (withBits w 0x80000000))
/-- LD_ROT_REJECT (R478). -/
def execLdRotReject (w : RegAcc) (s : State) : Host.Outcome State Fault Refusal := .next (s.writeAt 0x10014 (withBits w 0x40000000))
/-- EG_CTL_SHUTDOWN (R397). -/
def execEgCtlShutdown (w : RegAcc) (s : State) : Host.Outcome State Fault Refusal := .next (s.writeAt 0x20004 (withBits w 0x80000000))
/-- EG_CTL_ACCEPT_LOSS (R397). -/
def execEgCtlAcceptLoss (w : RegAcc) (s : State) : Host.Outcome State Fault Refusal := .next (s.writeAt 0x20004 (withBits w 0x40000000))

/-! ### Meanings: reads, ROM, DVSEC, aperture -/

/-- FB_TRACE_DATA_READ (R458). -/
def execFbTraceDataRead (r : RegRd) (s : State) : Host.Outcome State Fault Refusal := .next (s.readAt 0x50004 r)
/-- FB_EVT_POP (R461). -/
def execFbEvtPop (r : RegRd) (s : State) : Host.Outcome State Fault Refusal := .next (s.readAt 0x50014 r)
/-- COUNTER_LOW_READ (R454). -/
def execCounterLowRead (offset : BitVec 27) (r : RegRd) (s : State) : Host.Outcome State Fault Refusal := .next (s.regRead offset r)
/-- WIDE_REGISTER_LOW_READ (R518). -/
def execWideRegisterLowRead (offset : BitVec 27) (r : RegRd) (s : State) : Host.Outcome State Fault Refusal := .next (s.regRead offset r)
/-- SL_OCC_MAX_READ (R538). -/
def execSlOccMaxRead (phys : Nat) (r : RegRd) (s : State) : Host.Outcome State Fault Refusal := .next (s.readAt (slBase phys + 0x01C) r)
/-- READ_CLEAR_REGISTER (R509). -/
def execReadClearRegister (offset : BitVec 27) (r : RegRd) (s : State) : Host.Outcome State Fault Refusal := .next (s.regRead offset r)
/-- DVSEC_CONFIG_WRITE (R490). -/
def execDvsecConfigWrite (_offset : Nat) (_value : W32) (s : State) : Host.Outcome State Fault Refusal := .next s
/-- EXPANSION_ROM_READ (R494). -/
def execExpansionRomRead (offset : BitVec 27) (_r : RegRd) (s : State) : Host.Outcome State Fault Refusal := .next (s.romRead offset)
/-- EXPANSION_ROM_WRITE (R494). -/
def execExpansionRomWrite (_offset : BitVec 27) (_w : RegAcc) (s : State) : Host.Outcome State Fault Refusal := .next s.romWrite
/-- ATOMIC_APERTURE_ATOMICOP (R497). -/
def execAtomicApertureAtomicOp (offset : Nat) (a : AgentMsg) (data : Line) (s : State) : Host.Outcome State Fault Refusal :=
  .next (s.aperture offset a data)

end Sys2Proof.Machine
end

