-- ==== Sys2Proof/Machine/Dispatch.lean ====
section
/-! DEFINITION. The dispatch of commands: one arm per row of the opcode table, one direct call of its meaning. -/

namespace Sys2Proof.Machine

open Sys2Proof

def exec (i : Instr) (s : State) : Host.Outcome State Fault Refusal :=
  match i with
  | .memRd m => Sys2Proof.Machine.execMemRd m s
  | .memRdData m => Sys2Proof.Machine.execMemRdData m s
  | .memSpecRd m => Sys2Proof.Machine.execMemSpecRd m s
  | .memInv m => Sys2Proof.Machine.execMemInv m s
  | .memInvNT m => Sys2Proof.Machine.execMemInvNT m s
  | .memClnEvct m => Sys2Proof.Machine.execMemClnEvct m s
  | .memWr m data poison => Sys2Proof.Machine.execMemWr m data poison s
  | .memWrPtl m data be poison => Sys2Proof.Machine.execMemWrPtl m data be poison s
  | .biConflict m => Sys2Proof.Machine.execBiConflict m s
  | .hostUnsupported m chan => Sys2Proof.Machine.execHostUnsupported m chan s
  | .biRspI r => Sys2Proof.Machine.execBiRspI r s
  | .biRspS r => Sys2Proof.Machine.execBiRspS r s
  | .biRspE r => Sys2Proof.Machine.execBiRspE r s
  | .biRspIBlk r four => Sys2Proof.Machine.execBiRspIBlk r four s
  | .biRspSBlk r four => Sys2Proof.Machine.execBiRspSBlk r four s
  | .biRspEBlk r four => Sys2Proof.Machine.execBiRspEBlk r four s
  | .hostLinkUp port => Sys2Proof.Machine.execHostLinkUp port s
  | .hostPortReset port => Sys2Proof.Machine.execHostPortReset port s
  | .s2mDelivered port chan => Sys2Proof.Machine.execS2mDelivered port chan s
  | .returnWindowExpiry hid => Sys2Proof.Machine.execReturnWindowExpiry hid s
  | .hostSnoopTimeout hid => Sys2Proof.Machine.execHostSnoopTimeout hid s
  | .expirySweepEnd hid => Sys2Proof.Machine.execExpirySweepEnd hid s
  | .rdShared a => Sys2Proof.Machine.execRdShared a s
  | .rdOwn a => Sys2Proof.Machine.execRdOwn a s
  | .rdCur a => Sys2Proof.Machine.execRdCur a s
  | .upgrade a => Sys2Proof.Machine.execUpgrade a s
  | .wbDirty a data poison => Sys2Proof.Machine.execWbDirty a data poison s
  | .evictClean a => Sys2Proof.Machine.execEvictClean a s
  | .atomicOp a data => Sys2Proof.Machine.execAtomicOp a data s
  | .rdRes a => Sys2Proof.Machine.execRdRes a s
  | .wrCond a data => Sys2Proof.Machine.execWrCond a data s
  | .fence a => Sys2Proof.Machine.execFence a s
  | .agentPortSend port useK reach => Sys2Proof.Machine.execAgentPortSend port useK reach s
  | .fenceAtSlice phys t => Sys2Proof.Machine.execFenceAtSlice phys t s
  | .fenceAnswer phys t => Sys2Proof.Machine.execFenceAnswer phys t s
  | .agentResponseArrival phys port => Sys2Proof.Machine.execAgentResponseArrival phys port s
  | .agentResponseDelivery t => Sys2Proof.Machine.execAgentResponseDelivery t s
  | .forwardedDataArrival port agent line data dirty poison => Sys2Proof.Machine.execForwardedDataArrival port agent line data dirty poison s
  | .threadException t => Sys2Proof.Machine.execThreadException t s
  | .ringSnoopCopy port phys trk line => Sys2Proof.Machine.execRingSnoopCopy port phys trk line s
  | .agentPortSnoop port sq => Sys2Proof.Machine.execAgentPortSnoop port sq s
  | .agentSnoopAnswer port header data => Sys2Proof.Machine.execAgentSnoopAnswer port header data s
  | .agentSnoopTimeout port agent => Sys2Proof.Machine.execAgentSnoopTimeout port agent s
  | .rspI r => Sys2Proof.Machine.execRspI r s
  | .rspS r => Sys2Proof.Machine.execRspS r s
  | .rspFwd r => Sys2Proof.Machine.execRspFwd r s
  | .rspWbData r data poison => Sys2Proof.Machine.execRspWbData r data poison s
  | .rspIW r => Sys2Proof.Machine.execRspIW r s
  | .memData port tag data nib poison ue => Sys2Proof.Machine.execMemData port tag data nib poison ue s
  | .memAck a => Sys2Proof.Machine.execMemAck a s
  | .memoryPortTimeout port tag => Sys2Proof.Machine.execMemoryPortTimeout port tag s
  | .spillHit port tag => Sys2Proof.Machine.execSpillHit port tag s
  | .spillMiss port tag ue => Sys2Proof.Machine.execSpillMiss port tag ue s
  | .migStart phys page kind => Sys2Proof.Machine.execMigStart phys page kind s
  | .migDone phys page => Sys2Proof.Machine.execMigDone phys page s
  | .moveTick phys trk => Sys2Proof.Machine.execMoveTick phys trk s
  | .castleReplay phys => Sys2Proof.Machine.execCastleReplay phys s
  | .selfCheck phys agree => Sys2Proof.Machine.execSelfCheck phys agree s
  | .reeval phys trk => Sys2Proof.Machine.execReeval phys trk s
  | .issueSlot phys => Sys2Proof.Machine.execIssueSlot phys s
  | .starvationLimit phys input => Sys2Proof.Machine.execStarvationLimit phys input s
  | .holdRelease phys line => Sys2Proof.Machine.execHoldRelease phys line s
  | .kcreditIssue phys input => Sys2Proof.Machine.execKcreditIssue phys input s
  | .moveBoundary => Sys2Proof.Machine.execMoveBoundary s
  | .prefetchAccept phys => Sys2Proof.Machine.execPrefetchAccept phys s
  | .writebackWalkTurn phys => Sys2Proof.Machine.execWritebackWalkTurn phys s
  | .cacheDrainWalkTurn phys => Sys2Proof.Machine.execCacheDrainWalkTurn phys s
  | .victimToWpq phys entry => Sys2Proof.Machine.execVictimToWpq phys entry s
  | .wpqIssue phys => Sys2Proof.Machine.execWpqIssue phys s
  | .pendingKpinFill phys trk => Sys2Proof.Machine.execPendingKpinFill phys trk s
  | .mirrorUpdate phys => Sys2Proof.Machine.execMirrorUpdate phys s
  | .preloadWalkTurn phys => Sys2Proof.Machine.execPreloadWalkTurn phys s
  | .wayRetire phys way => Sys2Proof.Machine.execWayRetire phys way s
  | .errorWindowRestart phys => Sys2Proof.Machine.execErrorWindowRestart phys s
  | .sfWayDisableWalk phys => Sys2Proof.Machine.execSfWayDisableWalk phys s
  | .blindfoldSweepGroup phys => Sys2Proof.Machine.execBlindfoldSweepGroup phys s
  | .promo phys page => Sys2Proof.Machine.execPromo phys page s
  | .dack phys page => Sys2Proof.Machine.execDack phys page s
  | .dnote phys page => Sys2Proof.Machine.execDnote phys page s
  | .dirtyMark phys page => Sys2Proof.Machine.execDirtyMark phys page s
  | .dirtyMarkRelease => Sys2Proof.Machine.execDirtyMarkRelease s
  | .stamp phys page => Sys2Proof.Machine.execStamp phys page s
  | .heatReport phys page heat => Sys2Proof.Machine.execHeatReport phys page heat s
  | .pageMapFill phys page ue => Sys2Proof.Machine.execPageMapFill phys page ue s
  | .pageMapEntryUpdate page => Sys2Proof.Machine.execPageMapEntryUpdate page s
  | .demotionClockStep => Sys2Proof.Machine.execDemotionClockStep s
  | .slotEvictionClockStep pool => Sys2Proof.Machine.execSlotEvictionClockStep pool s
  | .cleaningStart => Sys2Proof.Machine.execCleaningStart s
  | .cleanCommand phys page => Sys2Proof.Machine.execCleanCommand phys page s
  | .cleanAck phys page => Sys2Proof.Machine.execCleanAck phys page s
  | .gameSweeperStep => Sys2Proof.Machine.execGameSweeperStep s
  | .heatDecay => Sys2Proof.Machine.execHeatDecay s
  | .pageMapChunkLoad chunk pins => Sys2Proof.Machine.execPageMapChunkLoad chunk pins s
  | .copyDone ctag status => Sys2Proof.Machine.execCopyDone ctag status s
  | .compressDone ctag status len crc => Sys2Proof.Machine.execCompressDone ctag status len crc s
  | .flushDone ctag status => Sys2Proof.Machine.execFlushDone ctag status s
  | .stagingStoreDone ctag status => Sys2Proof.Machine.execStagingStoreDone ctag status s
  | .victimOfferResponse ctag status => Sys2Proof.Machine.execVictimOfferResponse ctag status s
  | .cleanCopyDone ctag status => Sys2Proof.Machine.execCleanCopyDone ctag status s
  | .persistentWriteDone ctag status => Sys2Proof.Machine.execPersistentWriteDone ctag status s
  | .persistentReadDone ctag status lines => Sys2Proof.Machine.execPersistentReadDone ctag status lines s
  | .savePageDone ctag status => Sys2Proof.Machine.execSavePageDone ctag status s
  | .doorbell ring => Sys2Proof.Machine.execDoorbell ring s
  | .ringPoll => Sys2Proof.Machine.execRingPoll s
  | .hintSlot ring => Sys2Proof.Machine.execHintSlot ring s
  | .pinComplete page => Sys2Proof.Machine.execPinComplete page s
  | .pdListStart w => Sys2Proof.Machine.execPdListStart w s
  | .pdListAbort w => Sys2Proof.Machine.execPdListAbort w s
  | .listReadDone tag lines => Sys2Proof.Machine.execListReadDone tag lines s
  | .masterReadError tag why => Sys2Proof.Machine.execMasterReadError tag why s
  | .pdRingCtlReset w => Sys2Proof.Machine.execPdRingCtlReset w s
  | .sliceFailureDeclared phys cause => Sys2Proof.Machine.execSliceFailureDeclared phys cause s
  | .adoptionItemMove phys => Sys2Proof.Machine.execAdoptionItemMove phys s
  | .resyncComplete phys => Sys2Proof.Machine.execResyncComplete phys s
  | .meshParityRefuse link => Sys2Proof.Machine.execMeshParityRefuse link s
  | .ringParityFail stop kind flit => Sys2Proof.Machine.execRingParityFail stop kind flit s
  | .ringLossNotice target => Sys2Proof.Machine.execRingLossNotice target s
  | .ringEscalation flit => Sys2Proof.Machine.execRingEscalation flit s
  | .ringInjectClaim stop => Sys2Proof.Machine.execRingInjectClaim stop s
  | .probeMatch probe flit => Sys2Proof.Machine.execProbeMatch probe flit s
  | .tracePacketGap probe => Sys2Proof.Machine.execTracePacketGap probe s
  | .fbTraceDataRead r => Sys2Proof.Machine.execFbTraceDataRead r s
  | .fbTraceCtlFlush w => Sys2Proof.Machine.execFbTraceCtlFlush w s
  | .fbPrbCtlClear probe w => Sys2Proof.Machine.execFbPrbCtlClear probe w s
  | .fbEvtPop r => Sys2Proof.Machine.execFbEvtPop r s
  | .eventFifoStale => Sys2Proof.Machine.execEventFifoStale s
  | .slPmcClrCyc phys w => Sys2Proof.Machine.execSlPmcClrCyc phys w s
  | .slPmcClrCnt phys w => Sys2Proof.Machine.execSlPmcClrCnt phys w s
  | .counterLowRead offset r => Sys2Proof.Machine.execCounterLowRead offset r s
  | .wideRegisterLowRead offset r => Sys2Proof.Machine.execWideRegisterLowRead offset r s
  | .slOccMaxRead phys r => Sys2Proof.Machine.execSlOccMaxRead phys r s
  | .readClearRegister offset r => Sys2Proof.Machine.execReadClearRegister offset r s
  | .slPeekGo phys w => Sys2Proof.Machine.execSlPeekGo phys w s
  | .slMscPreStart phys w => Sys2Proof.Machine.execSlMscPreStart phys w s
  | .slMscPreAbort phys w => Sys2Proof.Machine.execSlMscPreAbort phys w s
  | .glCommit w => Sys2Proof.Machine.execGlCommit w s
  | .glGameWrite w => Sys2Proof.Machine.execGlGameWrite w s
  | .registerAliasWrite offset w => Sys2Proof.Machine.execRegisterAliasWrite offset w s
  | .registerWrite offset w => Sys2Proof.Machine.execRegisterWrite offset w s
  | .dvsecConfigWrite offset value => Sys2Proof.Machine.execDvsecConfigWrite offset value s
  | .expansionRomRead offset r => Sys2Proof.Machine.execExpansionRomRead offset r s
  | .expansionRomWrite offset w => Sys2Proof.Machine.execExpansionRomWrite offset w s
  | .atomicApertureAtomicOp offset a data => Sys2Proof.Machine.execAtomicApertureAtomicOp offset a data s
  | .ldCmdFetch w => Sys2Proof.Machine.execLdCmdFetch w s
  | .fetchStepDone e => Sys2Proof.Machine.execFetchStepDone e s
  | .ldCmdArmReload w => Sys2Proof.Machine.execLdCmdArmReload w s
  | .ldCmdDisarm w => Sys2Proof.Machine.execLdCmdDisarm w s
  | .ldCmdRetry w => Sys2Proof.Machine.execLdCmdRetry w s
  | .ldRotAccept w => Sys2Proof.Machine.execLdRotAccept w s
  | .ldRotReject w => Sys2Proof.Machine.execLdRotReject w s
  | .rootOfTrustTimeout => Sys2Proof.Machine.execRootOfTrustTimeout s
  | .egCtlShutdown w => Sys2Proof.Machine.execEgCtlShutdown w s
  | .egCtlAcceptLoss w => Sys2Proof.Machine.execEgCtlAcceptLoss w s
  | .egPorRelease => Sys2Proof.Machine.execEgPorRelease s
  | .blkPorRelease => Sys2Proof.Machine.execBlkPorRelease s
  | .selfTestDone phys found => Sys2Proof.Machine.execSelfTestDone phys found s
  | .slotHeadersRead slotA slotB sfdp => Sys2Proof.Machine.execSlotHeadersRead slotA slotB sfdp s
  | .imageSlotLoaded bytes => Sys2Proof.Machine.execImageSlotLoaded bytes s
  | .setupWalk => Sys2Proof.Machine.execSetupWalk s
  | .restartComplete => Sys2Proof.Machine.execRestartComplete s
  | .warmReq => Sys2Proof.Machine.execWarmReq s
  | .warmReload slotA slotB => Sys2Proof.Machine.execWarmReload slotA slotB s
  | .fabRst => Sys2Proof.Machine.execFabRst s
  | .endgameInputChange inp => Sys2Proof.Machine.execEndgameInputChange inp s
  | .adcSample chan code => Sys2Proof.Machine.execAdcSample chan code s
  | .allowanceCompute => Sys2Proof.Machine.execAllowanceCompute s
  | .debounceComplete => Sys2Proof.Machine.execDebounceComplete s
  | .rideTimeEnd => Sys2Proof.Machine.execRideTimeEnd s
  | .rideRecover => Sys2Proof.Machine.execRideRecover s
  | .drainWalkTurn phys => Sys2Proof.Machine.execDrainWalkTurn phys s
  | .drainComplete => Sys2Proof.Machine.execDrainComplete s
  | .gpfPhase1 => Sys2Proof.Machine.execGpfPhase1 s
  | .gpfPhase1Ack => Sys2Proof.Machine.execGpfPhase1Ack s
  | .gpfPhase2 => Sys2Proof.Machine.execGpfPhase2 s
  | .pmDstateD3hot => Sys2Proof.Machine.execPmDstateD3hot s
  | .p2EntryComplete => Sys2Proof.Machine.execP2EntryComplete s
  | .pmDstateD0 => Sys2Proof.Machine.execPmDstateD0 s
  | .pmP3Req => Sys2Proof.Machine.execPmP3Req s
  | .p1Gate phys => Sys2Proof.Machine.execP1Gate phys s
  | .p1Ungate phys => Sys2Proof.Machine.execP1Ungate phys s
  | .demotionToPersistentDone ctag status => Sys2Proof.Machine.execDemotionToPersistentDone ctag status s
  | .evictionFromCompressedDone ctag status => Sys2Proof.Machine.execEvictionFromCompressedDone ctag status s
  | .norEraseProgramTimeout => Sys2Proof.Machine.execNorEraseProgramTimeout s
  | .tracePortTransfer => Sys2Proof.Machine.execTracePortTransfer s
  | .eventRequestAccept => Sys2Proof.Machine.execEventRequestAccept s
  | .pmDstateReserved value => Sys2Proof.Machine.execPmDstateReserved value s

end Sys2Proof.Machine
end

