-- ==== Sys2Proof/Safety.lean ====
section
/-! DEFINITION. What counts as a safe run of the block, and the words the statements use. -/

namespace Sys2Proof.Machine

open Sys2Proof

/-- The block has the numbered parts of the largest variant (R4); a smaller variant leaves the higher numbers unused. -/
def State.partsOk (s : State) : Prop :=
  s.hostPorts.length = 8 ∧ s.hids.length = 64 ∧ s.agentPorts.length = 8 ∧ s.slices.length = 17 ∧ s.memPorts.length = 16

/-- Every command that waits names parts that exist. -/
def State.queueOk (s : State) : Prop := ∀ c ∈ s.pending, c.wf = true

/-- What every step keeps: the parts, the queue's commands well formed, the spill directory's list in its one form. -/
def State.safe (s : State) : Prop := s.partsOk ∧ s.queueOk ∧ spillWf s.spill = true

/-- A request joins the end of an input of a slice: it gets its number in the order of arrival, and the slice is not idle. -/
def State.joined (s : State) (p n : Nat) (q : Req) : State :=
  s.modSlice p fun x =>
    ({ x with arb := { x.arb with seq := x.arb.seq + 1 }, ident := { x.ident with gated := false, busyMove := true } }).modInput n
      fun i => { i with waiting := i.waiting ++ [q] }

/-- What the error response of a host port consists of (R163). -/
def hostErrorBodies (k : Inp) (tag : Nat) : List S2MBody :=
  match k with
  | .memRd => [.data tag 0 true, .ndr .cmp tag]
  | .memRdData => [.data tag 0 true, .ndr .cmp tag]
  | .memSpecRd => []
  | .biConflict => [.ndr .biConflictAck tag]
  | _ => [.ndr .cmp tag]

/-- The lines of a block form, 2 or 4, aligned to their count (R166). -/
def blockOf (four : Bool) (l : LineAddr) : List LineAddr :=
  let n := if four then 4 else 2
  let first : LineAddr := l &&& ~~~(BitVec.ofNat 42 (n - 1))
  (List.range n).map fun i => first + BitVec.ofNat 42 i

/-- What a cycle of a slice ends with (R90, R94): the starvation counts, the place in the move, the LFSR, the draws for the next
cycle in a variant that draws one cycle ahead, the ports' resets that the draws met, and the cycle counter. -/
def State.cycleEnd (s : State) (p : Nat) (sl : Slice) (kind : SlotKind) (had : List Nat) (q l : Option Cand) : State :=
  ((s.starve p sl.arb.inputs had).modArb p fun a =>
    { a with cyc := (a.cyc + 1) % 1024, lfsr := lfsrStep a.lfsr, qCount := if kind = .q then a.qCount + 1 else a.qCount,
             maintCount := if kind = .maint then a.maintCount + 1 else a.maintCount, pipeQ := q, pipeL := l,
             inputs := a.inputs.map fun i => { i with wasReset := false } }).modSlice p fun x =>
    { x with obs := { x.obs with cyc := x.obs.cyc.add 1 } }

end Sys2Proof.Machine
end

