-- ==== Sys2Proof/Certificates/Slice0/Obligations.lean ====
section
/-! DEFINITION. The statements about the block, one Prop each: what each family of commands does to the state, where a command does
nothing, what reset leaves, and what every step keeps. A command's conclusion is the next state itself, so it says the frame as well. -/

open Sys2Proof Sys2Proof.Machine

/-- A step takes the command at the front of the queue and runs it on the state with the queue's rest. With no command waiting a
step leaves the block as it is (the model's choice, log 3). -/
def Obligations.AStepRunsTheFrontCommand : Prop :=
  (∀ (s : State) (c : Instr) (q : List Instr), s.pending = c :: q → step s = exec c { s with pending := q }) ∧
  (∀ s : State, s.pending = [] → step s = .next s)

/-- The block after reset is safe: its parts are there, no command waits, and the spill directory lists nothing. What reset
leaves (R44, R510): both resets are asserted, the block serves nothing, and every table, queue and ring named here is empty. -/
def Obligations.ResetLeavesTheBlockEmptyAndSafe : Prop :=
  (State.reset.safe) ∧
  (State.reset.pins.egPor = false ∧ State.reset.pins.blkPor = false ∧
  State.reset.pending = [] ∧ State.reset.gl.serving = false ∧ State.reset.gl.move = 0 ∧ State.reset.eg.pstate = .off ∧
  State.reset.ring = [] ∧ State.reset.ringSnoops = [] ∧ State.reset.net = [] ∧ State.reset.fb.mesh = [] ∧ State.reset.fb.meshOut = [] ∧
  State.reset.ev.fifo = [] ∧ State.reset.regs.base = [] ∧
  (∀ sl ∈ State.reset.slices, sl.trk = [] ∧ sl.hold = [] ∧ sl.dir.sf = [] ∧ sl.msc.lines = [] ∧ sl.msc.wpq = [] ∧ sl.retq = []) ∧
  (∀ h ∈ State.reset.hostPorts, h.linkUp = false ∧ h.egress = []) ∧ (∀ a ∈ State.reset.agentPorts, a.held = [] ∧ a.snq = []))

/-- Every command that is modelled completes: it answers a next state, never a fault; and the state's fixed part - its variant,
its queue and the number of its parts - stays, whatever the command. -/
def Obligations.EveryCommandCompletesAndKeepsTheParts : Prop :=
  ∀ (c : Instr) (s : State), ∃ t, exec c s = .next t ∧ t.pending = s.pending ∧ t.variant = s.variant ∧ (s.partsOk → t.partsOk)

/-- Every step from a safe state leads to a safe state. -/
def Obligations.EveryStepKeepsTheBlockSafe : Prop :=
  ∀ s t : State, s.safe → step s = .next t → t.safe

/-- A spill entry written into a bucket slot is read back as it was: its line, its state, its holders and its flags; it counts as
occupied in its own game number and in no other (R138, R139). -/
def Obligations.SpillSlotsHoldTheirEntry : Prop :=
  ∀ (g : Game) (e : Entry), e.opn = false → e.kpin = false → e.fwd < 8 → (∀ h ∈ e.ptrs, h < 64) → e.ptrs.length ≤ 5 →
    (e.coarse.isSome = true → e.ptrs = []) →
    slotEntry (spillBits g e) = e ∧ slotOccupied g (spillBits g e) = true ∧ ∀ g', g' ≠ g → slotOccupied g' (spillBits g e) = false

/-- R54: bit i of a page's logical home is the XOR of every bit j of P XOR K with j mod n = i, n being 2, 3 or 4 by variant. -/
def Obligations.TheHomeFoldsThePageNumber : Prop :=
  ∀ (s : State) (p : Page),
    s.variant.bits = (match s.variant with | .yzh04 => 2 | .yzh08 => 3 | .yzh16 => 4) ∧
    s.homeOf p < 2 ^ s.variant.bits ∧
    ∀ i < s.variant.bits, (s.homeOf p).testBit i =
      decide (((List.range 36).filter fun j => j % s.variant.bits == i && (p ^^^ s.cfg.hashKey).getLsbD j).length % 2 = 1)

/-- R75: bit i of the memory port of a near address is the XOR of its bits from g on in steps of m; the port address is the near
address without bits [g + m - 1 : g]; the two determine the near address. -/
def Obligations.ThePortFoldsTheNearAddress : Prop :=
  ∀ (s : State) (na : Nat), na < 2 ^ 48 →
    let g := granuleBits s.cfg.granule
    let m := s.variant.bits
    2 ^ m = s.variant.mems ∧ s.memPortOf na < 2 ^ m ∧
    (∀ i < m, (s.memPortOf na).testBit i =
      decide (((List.range (48 - g)).filter fun j => j % m == i && na.testBit (g + j)).length % 2 = 1)) ∧
    (∀ i, (s.portAddr na).testBit i = if i < g then na.testBit i else na.testBit (i + m)) ∧
    ∀ nb, nb < 2 ^ 48 → s.memPortOf na = s.memPortOf nb → s.portAddr na = s.portAddr nb → na = nb

/-- A host request that its port accepts, and that may leave it, travels to its line's home slice and joins the port's input there,
last, with its fields as decoded (R151, R156, R163, R92); BIConflict is counted (event 0x32), and a message that needs no slot goes
to its tracker at once; with `reach` home the slice's next slots follow. It is kept at the port, last, while an earlier message for
its line is kept there, while its home is stalled, and as class K without a credit; a MemSpecRd is then discarded (R161). -/
def Obligations.HostRequestJoinsItsHome : Prop :=
  ∀ (s : State) (m : HostMsg) (d : Line) (be : BitVec 64) (po : Bool) (c : Instr) (k : Inp) (h : Nat) (hp : HostPort),
    (c, k, d, be, po) ∈
      [(.memRd m, .memRd, 0, 0, false), (.memRdData m, .memRdData, 0, 0, false), (.memSpecRd m, .memSpecRd, 0, 0, false),
       (.memInv m, .memInv, 0, 0, false), (.memInvNT m, .memInvNT, 0, 0, false), (.memClnEvct m, .memClnEvct, 0, 0, false),
       (.memWr m d po, .memWr, d, BitVec.allOnes 64, po), (.memWrPtl m d be po, .memWrPtl, d, be, po),
       (.biConflict m, .biConflict, 0, 0, false)] →
    s.walkFailed = false → s.hostTakes m.port = true → s.hostRefusal k m = none → s.hidOf m.port m.ldid m.spid = some h →
    s.hostPort m.port = some hp →
    let q := s.hostReqOf k m h d be po
    let asK := m.useK || s.portClass q == .k
    let same := hp.waiting.any fun x => x.line == lineOf m.addr
    (∀ (p : Nat) (sl : Slice), m.reach ≠ .port → same = false → s.targetOf (lineOf m.addr) = some p → s.slice p = some sl →
      k = .biConflict ∨ s.portClass q ≠ .k ∨ sl.creditIdle m.port = true →
      let s1 := s.meshReq p q asK
      let t := ((if k = .biConflict then s1.count p 0x32 none else s1).joined p m.port
        { q with seq := sl.arb.seq, withK := asK && k != .biConflict && sl.creditIdle m.port })
      let u := if sl.live && sl.noSlot q then t.settleIn p else t
      exec c s = .next (if m.reach = .home then State.slotsFor 4 u p m.port sl.arb.seq else u)) ∧
    (m.reach = .port ∨ same = true ∨ s.targetOf (lineOf m.addr) = none ∨
      (∃ p sl, s.targetOf (lineOf m.addr) = some p ∧ s.slice p = some sl ∧ k ≠ .biConflict ∧ s.portClass q = .k ∧
        sl.creditIdle m.port = false) →
      exec c s = .next (if k = .memSpecRd then s else s.modHostPort m.port fun x => { x with waiting := x.waiting ++ [q] }))

/-- R164: an error response, of a request or of an unsupported opcode, changes no directory state, no cache line and no memory:
nothing but the port (its error count, its answers) and the event records; the first error of a condition in the move is logged.
After a failed setup walk every request gets its error response, which is not counted (R61). -/
def Obligations.HostErrorResponse : Prop :=
  ∀ (s : State) (m : HostMsg) (d : Line) (be : BitVec 64) (po : Bool) (c : Instr) (k : Inp) (hp : HostPort),
    s.hostPort m.port = some hp →
    let said : List S2M := (hostErrorBodies k m.tag.toNat).map fun b =>
      ⟨(s.hidOf m.port m.ldid m.spid).getD 64, lineOf m.addr, none, b, false, 0⟩
    let errs (w : Nat) : Prop := ∃ t hp', exec c s = .next t ∧ t = { s with hostPorts := t.hostPorts, ev := t.ev } ∧
      (∀ q, q ≠ m.port → t.hostPort q = s.hostPort q) ∧ t.hostPort m.port = some hp' ∧
      hp'.errs = hp.errs.modify (errCounter w) satInc ∧
      hp'.egress = hp.egress ++ said ∧
      t.ev = if hp.logged.contains w then s.ev else (s.logEv 0x20 0 srcHost m.port (BitVec.ofNat 64 w)).ev
    let request : Prop := (c, k) ∈ [(.memRd m, .memRd), (.memRdData m, .memRdData), (.memSpecRd m, .memSpecRd), (.memInv m, .memInv),
        (.memInvNT m, .memInvNT), (.memClnEvct m, .memClnEvct), (.memWr m d po, .memWr), (.memWrPtl m d be po, .memWrPtl),
        (.biConflict m, .biConflict)]
    let other : Prop := (c, k) ∈ [(.hostUnsupported m .req, .memInv), (.hostUnsupported m .rwd, .memInv)]
    (s.walkFailed = false → s.hostTakes m.port = true →
      (∀ w, request → s.hostRefusal k m = some w → errs w) ∧
      (other → errs (if s.addrOk m.addr = false then 0 else if (s.hidOf m.port m.ldid m.spid).isNone then 1 else 2))) ∧
    (s.walkFailed = true → s.hostUp m.port = true → m.port < s.variant.hosts → request ∨ other →
      exec c s = .next (s.modHostPort m.port fun x => { x with egress := x.egress ++ said }))

/-- A port whose link is down, or that grants no credits, takes no request: nothing changes. An unsupported opcode on BIRsp is
counted with the port's unsupported opcodes and, as an answer that matches no BISnp, among those; both are logged, and it gets no
answer (R163, R167, R178). -/
def Obligations.PortsThatTakeNothing : Prop :=
  ∀ (s : State) (m : HostMsg) (d : Line) (be : BitVec 64) (po : Bool),
    (s.walkFailed = false → s.hostTakes m.port = false →
      ∀ c ∈ [Instr.memRd m, .memRdData m, .memSpecRd m, .memInv m, .memInvNT m, .memClnEvct m, .memWr m d po, .memWrPtl m d be po,
        .biConflict m, .hostUnsupported m .req, .hostUnsupported m .rwd], exec c s = .next s) ∧
    (∀ hp, s.hostPort m.port = some hp → s.hostUp m.port = true → s.eg.pstate ≠ .save → s.eg.pstate ≠ .saved →
      let s1 := if hp.logged.contains 2 then s else s.logEv 0x20 0 srcHost m.port 2
      let s2 := s1.logEv 0x21 0 srcHost ((s.hidOf m.port m.ldid m.spid).getD 64) (addrDetail (lineOf m.addr) 0)
      ∃ t hp', exec (.hostUnsupported m .birsp) s = .next t ∧ t = { s with hostPorts := t.hostPorts, ev := s2.ev } ∧
        (∀ q, q ≠ m.port → t.hostPort q = s.hostPort q) ∧
        t.hostPort m.port = some hp' ∧ hp'.errs = hp.errs.modify 2 satInc ∧ hp'.biUnmatched = satInc hp.biUnmatched ∧
        hp'.egress = hp.egress)

/-- Every form of BIRsp answers, for its HID, each line it names, in ascending order: one line, or the 2 or 4 aligned lines of a
block form (R165, R166). One line's answer is presented to the tracker that has a BISnp to the HID for the line outstanding, and
counted; one that is not legal for the BISnp is presented as BIRspI, and the HID is fenced (R165, R167). An answer whose sender
matches no HID, or that matches no outstanding BISnp of its HID, is discarded, counted and logged (R167). -/
def Obligations.BIRspAnswersItsLinesOrIsDiscarded : Prop :=
  (∀ (s : State) (r : BiRsp) (four : Bool) (c : Instr) (ans : Inp) (ls : List LineAddr),
    (c, ans, ls) ∈ [(.biRspI r, .biRspI, [r.line]), (.biRspS r, .biRspS, [r.line]), (.biRspE r, .biRspE, [r.line]),
      (.biRspIBlk r four, .biRspI, blockOf four r.line), (.biRspSBlk r four, .biRspS, blockOf four r.line),
      (.biRspEBlk r four, .biRspE, blockOf four r.line)] →
    s.hostUp r.port = true → s.eg.pstate ≠ .save → s.eg.pstate ≠ .saved →
    (∀ h, s.hidOf r.port r.ldid r.spid = some h → exec c s = .next (ls.foldl (fun s l => s.hostAnswer r.port h l ans) s)) ∧
    (s.hidOf r.port r.ldid r.spid = none →
      exec c s = .next ((s.modHostPort r.port fun x => { x with biUnmatched := satInc x.biUnmatched }).logEv 0x21 0 srcHost 64
        (addrDetail r.line 0)))) ∧
  (∀ (s : State) (r : BiRsp) (h p : Nat) (sl : Slice) (c : Instr) (ans : Inp),
    (c, ans) ∈ [(.biRspI r, .biRspI), (.biRspS r, .biRspS), (.biRspE r, .biRspE)] →
    s.hostUp r.port = true → s.eg.pstate ≠ .save → s.eg.pstate ≠ .saved → s.hidOf r.port r.ldid r.spid = some h →
    let lost (s : State) : State := (s.modHostPort r.port fun x => { x with biUnmatched := satInc x.biUnmatched }).logEv 0x21 0 srcHost h
      (addrDetail r.line 0);
    (s.answerSlice r.line = none → exec c s = .next (lost s)) ∧
    (s.answerSlice r.line = some p → s.slice p = some sl →
      let s0 := s.meshSend { meshMsg (.host r.port) (.slice p) ans.code .p r.line 0 with peer := h }
      (∀ (t : Tracker) (x : HSnpOut), sl.snooped h r.line = some (t, x) →
        let m : InMsg := { inp := ans, vic := t.isVic r.line, line := r.line, who := some (.host r.port h), ownerAns := x.owner,
                           hKind := some x.kind }
        (ans = .biRspI ∨ (ans = .biRspS ∧ x.kind ≠ .inv) ∨ (ans = .biRspE ∧ x.kind = .cur) →
          exec c s = .next (((s0.count p 0x31 (some t.req.cls)).feed p t.num m).settleIn p)) ∧
        ((ans = .biRspS ∧ x.kind = .inv) ∨ (ans = .biRspE ∧ x.kind ≠ .cur) →
          exec c s = .next ((((s0.count p 0x31 (some t.req.cls)).feed p t.num { m with inp := .biRspI, illegal := true }).markFenced h
            0).settleIn p))) ∧
      (sl.snooped h r.line = none → s.cast.replays = [] → exec c s = .next ((lost s0).count p 0x37 none))))

/-- HOST_LINK_UP: the port's link is up; its declared HIDs that were Unbound or Absent are Bound (R177), and what the slices have
queued for such a HID is sent. HOST_PORT_RESET: link down, buffers and idle credits gone; a Bound HID without another port that is up
becomes Absent, and its return window starts; a message that was not delivered goes out on the HID's snoop port, or into its slice's
return queue when the HID has no port up (R44, R177, R178, R180). S2M_DELIVERED: the oldest message of the channel leaves the port;
the others keep their order (R179). -/
def Obligations.HostPortsBindResetAndDeliver : Prop :=
  (∀ (s : State) (p : Nat) (hp : HostPort), p < s.variant.hosts → s.hostPort p = some hp →
    let s1 := s.modHostPort p fun h => { h with linkUp := true, inReset := false }
    exec (.hostLinkUp p) s = .next (((List.range s.hids.length).filter fun h =>
      match s.hid h with | some x => bitAt x.portMask p | none => false).foldl State.bindHid s1) ∧
    ((∀ sl ∈ s.slices, sl.retq = []) → exec (.hostLinkUp p) s = .next { s1 with
        hids := s.hids.map fun x =>
          if bitAt x.portMask p && x.valid && (x.st == .unbound || x.st == .absent) then { x with st := .bound, windowLeft := 0 } else x })) ∧
  (∀ (s : State) (p : Nat) (hp : HostPort), p < s.variant.hosts → s.hostPort p = some hp → (∀ x ∈ s.hids, x.st.leaving = false) →
    let s1 : State := { s with
      hostPorts := s.hostPorts.modify p fun h => { h with linkUp := false, inReset := true, egress := [], linkDowns := satInc h.linkDowns }
      slices := s.slices.map fun sl => sl.modInput p fun i =>
        { i with kcredit := if i.waiting.any fun q => q.withK then i.kcredit else none, wasReset := true }
      hids := s.hids.map fun x =>
        if x.st == .bound && !((List.range s.hostPorts.length).any fun q => q != p && bitAt x.portMask q && s.hostUp q) then
          { x with st := .absent, windowLeft := BitVec.ofNat 15 x.windowMs } else x }
    (hp.egress = [] → exec (.hostPortReset p) s = .next s1) ∧
    (∀ (m : S2M) (n : Nat), hp.egress = [m] → m.phys = some n →
      let s2 := s1.meshSend { meshMsg (.host p) (.slice n) 0x58 .p m.line m.ord with peer := m.hid }
      (∀ q, s1.snoopPort m.hid = some q → exec (.hostPortReset p) s = .next (s2.emitS2M q m).fenceSettle) ∧
      (s1.snoopPort m.hid = none → exec (.hostPortReset p) s = .next (s2.queueReturn m).fenceSettle))) ∧
  (∀ (s : State) (p : Nat) (hp : HostPort) (c : S2MChan) (a b : List S2M) (m : S2M),
    s.hostPort p = some hp → hp.egress = a ++ m :: b → (∀ x ∈ a, x.body.chan ≠ c) → m.body.chan = c →
    exec (.s2mDelivered p c) s = .next (s.modHostPort p fun h => { h with egress := a ++ b }))

/-- RETURN_WINDOW_EXPIRY, EXPIRY_SWEEP_END: an Absent HID becomes Expiring, which is logged; its queued messages are discarded, its
waits end as with BIRspI; a HID that is leaving and of which nothing is recorded any more becomes Bound or Unbound as its links are
(R177, R183). HOST_SNOOP_TIMEOUT: a Bound HID that leaves a BISnp unanswered is Fenced, which is logged, and its waits end (R168,
R183). -/
def Obligations.HidsExpireAndAreFenced : Prop :=
  (∀ (s : State) (h : Nat) (x : Hid), s.hid h = some x →
    (x.st = .absent → s.pwr.phase ≠ .p2 →
      let s1 := (s.modHid h fun y => { y with st := .expiring, windowLeft := 0 }).logEv 0x22 1 srcHost h 0
      exec (.returnWindowExpiry h) s = .next (s1.expireHid h) ∧
      ((∀ sl ∈ s.slices, sl.waitsFor h = [] ∧ ∀ m ∈ sl.retq, m.hid = h → ∀ t, m.body ≠ .ndr .cmpE t) →
        exec (.returnWindowExpiry h) s = .next { s1 with
          slices := s.slices.mapIdx fun p sl =>
            if p < s.variant.phys then { sl with retq := sl.retq.filter fun m => m.hid != h } else sl })) ∧
    (x.st.leaving = true →
      exec (.expirySweepEnd h) s =
        .next (((s.expireHid h).sweepHid h).modHid h fun y =>
          { y with st := if ((s.expireHid h).sweepHid h).hidUp h then .bound else .unbound }) ∧
      ((∀ sl ∈ s.slices, (∀ m ∈ sl.retq, m.hid ≠ h) ∧ sl.waitsFor h = [] ∧ sl.hidLines h = []) → s.spill = [] →
        exec (.expirySweepEnd h) s =
          .next (s.modHid h fun y => { y with st := if s.hidUp h then .bound else .unbound })))) ∧
  (∀ (s : State) (h : Nat) (x : Hid) (sl : Slice), s.hid h = some x → x.st = .bound → s.pwr.phase ≠ .p2 → sl ∈ s.slices →
    sl.waitsFor h ≠ [] →
    exec (.hostSnoopTimeout h) s =
      .next (((s.modHid h fun y => { y with st := .fenced, windowLeft := 0 }).logEv 0x23 2 srcHost h 1).expireHid h))

/-- A request that an agent presents while it has a credit is held by its port, last; a refused one is held with its error response,
and counted, as is a class field outside 0 to 4 (R226, R236). An RdCur for a line of which the agent's own WbDirty is unsent is
answered from it, unless an earlier request of the thread holds it (R270, R274). Past the port, with `reach`, the request is sent
if it is the one that the port sends next. -/
def Obligations.AgentRequestIsHeldByItsPort : Prop :=
  ∀ (s : State) (m : AgentMsg) (d : Line) (po : Bool) (c : Instr) (k0 : Inp) (x : Line) (y : Bool) (ap : AgentPort),
    (c, k0, x, y) ∈ [(.rdShared m, .rdShared, 0, false), (.rdOwn m, .rdOwn, 0, false), (.rdCur m, .rdCur, 0, false),
      (.upgrade m, .upgrade, 0, false), (.wbDirty m d po, .wbDirty, d, po), (.evictClean m, .evictClean, 0, false),
      (.atomicOp m d, .atomicOp, d, false), (.rdRes m, .rdRes, 0, false), (.wrCond m d, .wrCond, d, false), (.fence m, .fence, 0, false)] →
    s.walkFailed = false → s.agentPort m.port = some ap → s.agentTakes m.port ap (opcOf m.opc) = true →
    bitAt ap.silent m.agent.toNat = true ∨ s.agentOn m.port m.agent.toNat = true → ap.credits m.agent.toNat ≠ 0 →
    let r := s.portReqOf ((opcOf m.opc).getD k0) m x y
    let counted (a : AgentPort) : AgentPort := if 5 ≤ m.cls.toNat then a.err 0 else a
    (∀ e, s.agentRefusal m (bitAt ap.silent m.agent.toNat) = some e →
      exec c s = .next (s.modAgentPort m.port fun a =>
        ({ (counted a).err 3 with held := a.held ++ [{ r with inBuf := false }] }).answerSelf { r with inBuf := false } (.error e) none
          false)) ∧
    (s.agentRefusal m (bitAt ap.silent m.agent.toNat) = none → r.inBuf = false ∨ (ap.held.filter PortReq.buffers).length < 32 →
      let s1 := s.modAgentPort m.port fun a => { counted a with held := a.held ++ [r] }
      (∀ w, (∀ z ∈ ap.held, z.blocks r = false) → ap.selfData r = some w →
        exec c s = .next (s1.modAgentPort m.port fun a => a.answerSelf r .gntCur (some w.req.data) w.req.poison)) ∧
      ((∃ z ∈ ap.held, z.blocks r = true) ∨ ap.selfData r = none →
        (m.reach = .port → exec c s = .next s1) ∧
        (∀ ap1, s1.agentPort m.port = some ap1 →
          (∀ n, m.reach ≠ .port → s1.nextSend m.port ap1 = some n → n.same r = true →
            exec c s = .next (s1.sendReq m.port n m.useK (m.reach == .home))) ∧
          ((∀ n, s1.nextSend m.port ap1 = some n → n.same r = false) → exec c s = .next s1))))

/-- AGENT_PORT_SEND: the port's next request, as it has chosen it, leaves: a fence goes to every slice that serves, another request
to the input of its line's home slice, where it joins last (R228, R232, R268). RdRes sets the thread's reservation register as it is
sent, in place of an earlier granule; WrCond leaves the thread without one, and one whose thread holds no reservation of its line is
answered by the port itself (R281, R282). An RdCur that is no longer held is answered from the port's own data (R270). With nothing
to send, or while the read path sends, the head of the store buffer grows older (R268). -/
def Obligations.AgentPortSendsItsNextRequest : Prop :=
  ∀ (s : State) (p : Nat) (ap : AgentPort) (useK : Bool) (reach : Reach),
    s.agentPort p = some ap → p < s.variant.agents → s.pwr.phase ≠ .p2 →
    (∀ r w, ap.selfReady = some (r, w) →
      exec (.agentPortSend p useK reach) s =
        .next (s.modAgentPort p fun a => a.answerSelf r .gntCur (some w.req.data) w.req.poison)) ∧
    (ap.selfReady = none → s.nextSend p ap = none →
      exec (.agentPortSend p useK reach) s = .next (s.modAgentPort p AgentPort.ageHead)) ∧
    (∀ r : PortReq, ap.selfReady = none → s.nextSend p ap = some r →
      let turn (a : AgentPort) : AgentPort := if r.inBuf then { a with headAge := 0 } else a
      let after (s : State) : State := if r.inBuf then s else s.modAgentPort p AgentPort.ageHead
      let gone (a : AgentPort) : AgentPort := a.modReq r fun x =>
        { x with stage := .sent, urged := false, req := { x.req with seq := a.nextOrder } };
      (r.req.kind = .fence →
        exec (.agentPortSend p useK reach) s = .next (after ((s.serving.foldl (fun s q => s.meshSend
          { meshMsg (.agent p) (.slice q) 0x19 .p 0 r.req.tag with peer := 4 * p + r.agent, kpri := false }) s).modAgentPort p fun a =>
            turn (a.modReq r fun x => { x with stage := .sent, fenceWait := s.serving, req := { x.req with seq := a.nextOrder } })))) ∧
      (r.req.kind = .wrCond → ap.resOf (r.thr p) ≠ some r.req.line →
        exec (.agentPortSend p useK reach) s = .next (after (s.modAgentPort p fun a =>
          turn ((a.clearRes fun x => x == r.thr p).answerSelf r .result none false)))) ∧
      (∀ (h : Nat) (sl : Slice), r.req.kind ≠ .fence → r.req.kind = .wrCond → ap.resOf (r.thr p) = some r.req.line →
        s.lineLost r.req.line = false → s.sendTo r.req = some h → s.slice h = some sl →
        r.req.src = .agent p r.agent r.thread → sl.noSlot r.req = false → reach ≠ .home →
        let k := useK || s.portClass r.req == .k
        exec (.agentPortSend p useK reach) s = .next (after (((s.modAgentPort p fun a =>
          turn ((gone a).clearRes fun x => x == r.thr p)).meshReq h { r.req with withK := useK } k).joined h (8 + p)
            { r.req with seq := sl.arb.seq, withK := k && sl.creditIdle (8 + p) }))) ∧
      (∀ (h : Nat) (sl : Slice), r.req.kind ≠ .fence → r.req.kind ≠ .wrCond → r.req.kind ≠ .biConflict →
        s.lineLost r.req.line = false → s.sendTo r.req = some h → s.slice h = some sl →
        r.req.src = .agent p r.agent r.thread → sl.noSlot r.req = false →
        let k := useK || s.portClass r.req == .k
        let own (a : AgentPort) : AgentPort := if r.req.kind = .rdRes then
          { a with resv := (a.resv.filter fun x => x.1 != r.thr p) ++ [(r.thr p, r.req.line)] } else a
        let t := ((s.modAgentPort p fun a => turn (own (gone a))).meshReq h { r.req with withK := useK } k).joined h (8 + p)
          { r.req with seq := sl.arb.seq, withK := k && sl.creditIdle (8 + p) }
        exec (.agentPortSend p useK reach) s =
          .next (after (if reach = .home then State.slotsFor 4 t h (8 + p) sl.arb.seq else t))))

/-- FENCE_AT_SLICE, FENCE_ANSWER: a slice notes a fence that is owed to it, and answers it with Cmp when no write of the thread is
left in it (R216, R232). AGENT_RESPONSE_ARRIVAL, AGENT_RESPONSE_DELIVERY: the oldest response of a slice reaches the request that
awaits it and is counted; the thread's oldest accepted request, once answered, is delivered, and its entry is free (R226, R235,
R237). FORWARDED_DATA_ARRIVAL joins the data to the sent read that awaits it, and counts and logs data of an agent that has no
request for the line; THREAD_EXCEPTION clears the thread's reservation register and no other (R257, R283). -/
def Obligations.AnswersComeBackToTheThread : Prop :=
  (∀ (s : State) (p : Nat) (t : ThreadId) (sl : Slice) (ap : AgentPort) (r : PortReq),
    s.slice p = some sl → s.agentPort t.port = some ap → sl.live = true → ap.fenceOf p t = some r →
    (sl.dir.fences.contains t = false →
      exec (.fenceAtSlice p t) s = .next (s.modSlice p fun x => { x with dir := { x.dir with fences := x.dir.fences ++ [t] } })) ∧
    (sl.dir.fences.contains t = true → sl.ident.adoptStall = false → sl.threadWrites t = false →
      let cmp := ARsp.mk p .cmp (BitVec.ofNat 7 r.req.tag) t.agent t.thread 0 none false false false false false false false
      let s1 := s.modSlice p fun x => { x with dir := { x.dir with fences := x.dir.fences.filter fun y => y != t } }
      exec (.fenceAnswer p t) s = .next (((s1.meshSend (cmp.flit t.port true)).modSlice p fun x =>
          { x with rspCnt := x.rspCnt.modify t.port (· + 1) }).modAgentPort t.port fun a => { a with inbound := a.inbound ++ [cmp] })) ∧
    (sl.threadWrites t = true → exec (.fenceAnswer p t) s = .next s)) ∧
  (∀ (s : State) (port : Nat) (ap : AgentPort), s.agentPort port = some ap →
    (∀ (p : Nat) (a b : List ARsp) (r : ARsp), ap.inbound = a ++ r :: b → (∀ x ∈ a, x.phys ≠ p) → r.phys = p →
      exec (.agentResponseArrival p port) s = .next (s.modAgentPort port fun x =>
        { x with inbound := a ++ b, recv := x.recv.modify p (· + 1),
                 held := x.held.map fun y => if y.agent = r.agent ∧ y.req.tag = r.tag.toNat ∧ y.stage = .sent then y.take p r else y })) ∧
    (∀ (t : ThreadId) (x : PortReq) (r : ARsp), t.port = port → ap.turn t = some x → x.final = some r →
      exec (.agentResponseDelivery t) s = .next ((s.modAgentPort port fun a =>
        { a with held := a.held.filter fun y => !y.same x, lastRsp := if x.discard then a.lastRsp else some r }).entryFreed port x.agent)) ∧
    (∀ (t : ThreadId) (x : PortReq), t.port = port → ap.turn t = some x → x.final = none →
      exec (.agentResponseDelivery t) s = .next s)) ∧
  (∀ (s : State) (port : Nat) (ap : AgentPort), s.agentPort port = some ap →
    (∀ (q g : Nat) (l : LineAddr) (d : Line) (di po e : Bool) (n : Nat) (rest : List RingFlit),
      s.ring = .fwdData q port g l d di po n e :: rest →
      let s1 := { s with ring := rest }.slotFreed (some (e, stopOf s.variant false port))
      (∀ (u v : List PortReq) (r : PortReq), ap.held = u ++ r :: v → (∀ x ∈ u, x.agent ≠ g ∨ x.req.line ≠ l) → r.agent = g →
        r.req.line = l → r.fwdData = none → r.stage = .sent →
        r.req.kind ∈ [.rdShared, .rdOwn, .rdCur, .rdRes, .atomicOp, .upgrade] →
        exec (.forwardedDataArrival port g l d di po) s = .next (s1.modAgentPort port fun a =>
          a.modReq r fun y => { y with fwdData := some (d, di, po) })) ∧
      ((∀ x ∈ ap.held, x.agent ≠ g ∨ x.req.line ≠ l) →
        exec (.forwardedDataArrival port g l d di po) s =
          .next ((s1.modAgentPort port fun a => { a with fwdDrop := a.fwdDrop + 1 }).logEv 0x26 0 srcAgent port 0))) ∧
    (∀ t : ThreadId, t.port = port →
      exec (.threadException t) s = .next (s.modAgentPort port fun a => { a with resv := a.resv.filter fun x => x.1 != t })))

/-- RING_SNOOP_COPY: a snoop flit that the port has not copied enters its snoop queue while it has room; the flit leaves the ring once
every port has it (R253). AGENT_PORT_SNOOP: a queued snoop waits for the responses sent before it (R237); then a retry repeats the
answer that was kept (R409), the port answers RspIW when a WbDirty of the line is outstanding (R247), and otherwise the snoop is
presented to the enabled caching agents but its requester, or answered RspI when there is none to ask (R240, R241).
AGENT_SNOOP_ANSWER: an answer to Flush ends the agent's Flush (R390); an answer to a snoop is noted, and with the last agent's the
port answers the home: RspI for an agent left in I, RspS for one left in S, RspWbData with dirty data, RspFwd and the data to the
requester's port where the home allows it and the data is clean or
the snoop RSnpInv (R241, R242, R256). AGENT_SNOOP_TIMEOUT: an agent that has not
answered in time is answered for and made silent, and its Flush ends (R246). -/
def Obligations.PortsCarrySnoopsToTheirAgents : Prop :=
  (∀ (s : State) (port n : Nat) (ap : AgentPort) (f : SnpFlit) (u v : List SnpFlit),
    s.agentPort port = some ap → port < s.variant.agents → s.ringSnoops = u ++ f :: v → bitAt f.dmask port = false →
    (∀ x ∈ u, x.phys ≠ f.phys ∨ x.trk ≠ f.trk ∨ x.line ≠ f.line ∨ bitAt x.dmask port = true) →
    lowestFree (ap.snq.map (·.sq)) 32 = some n →
    let m := setBit f.dmask port true
    let s1 (l : List SnpFlit) : State := { s with ringSnoops := l }.modAgentPort port fun a =>
      { a with snq := a.snq ++ [SnpEnt.mk n f false [] [] none] };
    (m ≠ 0xFF → exec (.ringSnoopCopy port f.phys f.trk f.line) s = .next (s1 (u ++ { f with dmask := m } :: v))) ∧
    (m = 0xFF → exec (.ringSnoopCopy port f.phys f.trk f.line) s =
      .next ((s1 (u ++ v)).slotFreed (some (f.esc, stopOf s.variant true f.phys))))) ∧
  (∀ (s : State) (port sq : Nat) (ap : AgentPort) (e : SnpEnt), s.agentPort port = some ap →
    (ap.snq.find? fun x => x.sq == sq && !x.taken) = some e →
    let f := e.flit
    (ap.snoopDue port f = false → exec (.agentPortSnoop port sq) s = .next s) ∧
    (∀ h, ap.snoopDue port f = true → f.retry = true → (ap.kept.find? fun h => h.phys == f.phys && h.trk == f.trk) = some h →
      exec (.agentPortSnoop port sq) s = .next ((s.modAgentPort port fun a =>
        { a with snq := a.snq.filter fun x => x.sq != sq }).ringInject (.flit (stopOf s.variant false port)
          (.answer h port 0 (h.kind == .rspWbData) 0 false)))) ∧
    (ap.snoopDue port f = true → f.retry = false → (ap.held.any fun r => r.wbFor f.line) = true →
      (∀ r ∈ ap.held, r.wbFor f.line = true → r.stage = .sent) →
      exec (.agentPortSnoop port sq) s = .next (s.sendAns port e .rspIW 0 false)) ∧
    (ap.snoopDue port f = true → f.retry = false → (∀ r ∈ ap.held, r.wbFor f.line = false ∧ r.grantFor f.line = false) →
      let asked := (List.range 4).filter fun g => s.agentOn port g && s.agentCaching port g &&
        !(f.reqag && f.reqPort == port && f.reqAgent == g) &&
        !(ap.held.any fun r => r.agent == g && r.req.kind == .evictClean && r.req.line == f.line && r.stage == .sent)
      (asked ≠ [] → exec (.agentPortSnoop port sq) s = .next (s.modAgentPort port fun a =>
        { a with snq := a.snq.map fun x => if x.sq == sq then { e with taken := true, asked := asked, own := none } else x })) ∧
      (asked = [] → e.answers = [] → ap.snq = [e] → exec (.agentPortSnoop port sq) s = .next ((s.modAgentPort port fun a =>
        { a with snq := [], kept := (a.kept ++ [AnsHdr.mk f.phys f.trk f.line .rspI]).drop (a.kept.length + 1 - 32) }).ringInject
          (.flit (stopOf s.variant false port) (.answer ⟨f.phys, f.trk, f.line, .rspI⟩ port 0 false 0 false)))))) ∧
  (∀ (s : State) (port g : Nat) (ap : AgentPort), s.agentPort port = some ap → g < 4 →
    (∀ (h : BitVec 64) (d : Line), bitAt h 51 = true → fieldN h 57 2 = g →
      exec (.agentSnoopAnswer port h d) s = .next (s.modAgentPort port fun a => { a with flush := setBit a.flush g false })) ∧
    (∀ (h : BitVec 64) (d : Line) (e : SnpEnt), bitAt h 51 = false → fieldN h 57 2 = g → ap.snq = [e] → e.taken = true →
      e.answers = [] → e.own = none → fieldN h 52 5 = e.sq → fieldN h 62 2 < 2 → (fieldN h 62 2 = 1 → e.flit.kind ≠ .inv) →
      let dirty := bitAt h 61 && bitAt h 60
      let fwd := e.flit.fwdOk && e.flit.fwdPort == port
      let ans (k : AnsKind) (d : Line) (po : Bool) (s1 : State) : State := (s1.modAgentPort port fun a => { a with
        snq := [], kept := (a.kept ++ [AnsHdr.mk e.flit.phys e.flit.trk e.flit.line k]).drop (a.kept.length + 1 - 32) }).ringInject
          (.flit (stopOf s.variant false port) (.answer ⟨e.flit.phys, e.flit.trk, e.flit.line, k⟩ port d po 0 false));
      (e.asked.contains g = true → (e.asked.filter fun z => z != g) ≠ [] →
        exec (.agentSnoopAnswer port h d) s = .next (s.modAgentPort port fun a => { a with snq := [{ e with
          asked := e.asked.filter fun z => z != g
          answers := [SnpAns.mk g (fieldN h 62 2 = 1) (if bitAt h 61 && (dirty || fwd) then some d else none) dirty (bitAt h 59)] }] })) ∧
      (e.asked = [g] →
        (bitAt h 61 = false → fieldN h 62 2 = 0 → exec (.agentSnoopAnswer port h d) s = .next (ans .rspI 0 false s)) ∧
        (bitAt h 61 = false → fieldN h 62 2 = 1 → exec (.agentSnoopAnswer port h d) s = .next (ans .rspS 0 false s)) ∧
        (dirty = true → fwd = false ∨ e.flit.kind ≠ .inv →
          exec (.agentSnoopAnswer port h d) s = .next (ans .rspWbData d (bitAt h 59) s)) ∧
        (bitAt h 61 = true → fwd = true → dirty = false ∨ e.flit.kind = .inv → exec (.agentSnoopAnswer port h d) s = .next
          ((ans .rspFwd 0 false s).ringInject (.flit (stopOf s.variant false port)
            (.fwdData port e.flit.reqPort e.flit.reqAgent e.flit.line d dirty (bitAt h 59) 0 false)))))) ∧
    ((∀ x ∈ ap.snq, x.asked.contains g = false) → bitAt ap.flush g = true →
      exec (.agentSnoopTimeout port g) s = .next (s.silence port g)) ∧
    ((∀ x ∈ ap.snq, x.asked.contains g = false) → bitAt ap.flush g = false → exec (.agentSnoopTimeout port g) s = .next s) ∧
    (∀ e : SnpEnt, ap.snq = [e] → e.asked.contains g = true →
      exec (.agentSnoopTimeout port g) s = .next (((s.modAgentPort port fun a =>
        { a with snq := [{ e with asked := e.asked.filter fun x => x != g
                                  own := if e.flit.fwdPort = port then some ⟨g, false, some 0, true, true⟩ else e.own }] }).silence
          port g).combineIf port e.sq)))

/-- RSPI, RSPS, RSPFWD, RSPWBDATA, RSPIW at the home slice: the answer leaves the ring, is counted as its kind asks, and is presented
to the tracker that awaits it; one that no snoop awaits is discarded, counted and logged (R208, R211, R254). -/
def Obligations.AgentAnswersReachTheirTracker : Prop :=
  ∀ (s : State) (r : AgRsp) (d d' : Line) (po po' e : Bool) (n : Nat) (c : Instr) (k : AnsKind) (inp : Inp) (rest : List RingFlit)
    (sl : Slice),
    (c, k, inp) ∈ [(.rspI r, .rspI, .rspI), (.rspS r, .rspS, .rspS), (.rspFwd r, .rspFwd, .rspFwd),
      (.rspWbData r d' po', .rspWbData, .rspWbData), (.rspIW r, .rspIW, .rspIW)] →
    s.ring = .answer ⟨r.phys, r.trk, r.line, k⟩ r.port d po n e :: rest →
    (∀ x ∈ s.cast.redirect, x.1 ≠ r.phys) → s.slice r.phys = some sl → sl.live = true →
    let s0 : State := { s with ring := rest }.slotFreed (some (e, stopOf s.variant true r.phys))
    (∀ (t : Tracker) (x : ASnpOut), sl.awaits (some r.trk) r.port r.line = some (t, x) →
      let s1 := if k = .rspIW then s0.count r.phys 0x34 none else if k = .rspFwd then s0.count r.phys 0x35 none else s0
      exec c s = .next ((s1.feed r.phys t.num
        { inp := inp, vic := t.isVic r.line, line := r.line, who := some (.agent r.port 0 0), data := d, be := BitVec.allOnes 64,
          poison := po, aKind := some x.kind }).settleIn r.phys)) ∧
    (sl.awaits (some r.trk) r.port r.line = none →
      exec c s = .next ((s0.count r.phys 0x37 none).logEv 0x28 0 r.phys r.port (addrDetail r.line 0)))

/-- RING_PARITY_FAIL: a bad header, or a snoop's bad payload, removes the flit, logs the loss and sends the notice of it to every
slice and port; another flit's bad payload is zeroed and, where it carries data, poisoned (R408). RING_LOSS_NOTICE: a slice sends each
snoop that its trackers still await again, as a retry; a port does nothing until a retry reaches it; without a notice under way
nothing happens (R409). RING_INJECT_CLAIM,
RING_ESCALATION: a claim is held once by a stop; an escalated flit is marked, the stop that it is for keeps an entry for it and counts
it, and the stop's first of the move is logged (R251, R252). MESH_PARITY_REFUSE: a refusal is counted, and kept for the link and the
flit until the third, which makes the link faulty: that is logged and a health condition; a slice's link fails the slice, a host
port's resets the port, an agent port's disables its agents, and another link fails the block (R406, R450). A link that is faulty
already, or that the variant lacks, refuses nothing. -/
def Obligations.RingAndMeshFaults : Prop :=
  (∀ (s : State) (stop i : Nat) (k : ParityKind),
    let loss (s : State) (gone : Bool × Nat) : State := ((s.logEv 0x16 1 srcRing stop 0).lossSend stop).slotFreed (some gone);
    (∀ f, s.ringSnoops[i]? = some f → exec (.ringParityFail stop k i) s =
      .next (loss { s with ringSnoops := s.ringSnoops.eraseIdx i } (f.esc, stopOf s.variant true f.phys))) ∧
    (∀ f, s.ring[i]? = some f → exec (.ringParityFail stop .header (s.ringSnoops.length + i)) s =
      .next (loss { s with ring := s.ring.eraseIdx i } (f.esc, f.dst s.variant))) ∧
    (∀ h p d po n e, s.ring[i]? = some (.answer h p d po n e) →
      exec (.ringParityFail stop .payload (s.ringSnoops.length + i)) s =
        .next { s with ring := s.ring.set i (.answer h p 0 (po || h.kind == .rspWbData) n e) }) ∧
    (∀ q p a l d di po n e, s.ring[i]? = some (.fwdData q p a l d di po n e) →
      exec (.ringParityFail stop .payload (s.ringSnoops.length + i)) s =
        .next { s with ring := s.ring.set i (.fwdData q p a l 0 di true n e) })) ∧
  (∀ (s : State) (p q : Nat) (sl : Slice), s.slice p = some sl → sl.live = true →
    let due (t : LossTarget) : State := { s with fb := { s.fb with lossDue := eraseFirst (fun x => x == t) s.fb.lossDue } };
    (∀ t, t ∉ s.fb.lossDue → exec (.ringLossNotice t) s = .next s) ∧
    (.port q ∈ s.fb.lossDue → exec (.ringLossNotice (.port q)) s = .next (due (.port q))) ∧
    (.slice p ∈ s.fb.lossDue → (∀ t ∈ sl.trk, t.asnp = []) → exec (.ringLossNotice (.slice p)) s = .next (due (.slice p))) ∧
    (∀ (u v : List Tracker) (t : Tracker) (x : ASnpOut), .slice p ∈ s.fb.lossDue → sl.trk = u ++ t :: v → (∀ y ∈ u ++ v, y.asnp = []) → t.asnp = [x] →
      t.isVic x.line = false →
      let k := t.req.kind
      exec (.ringLossNotice (.slice p)) s = .next ((due (.slice p)).sendRSnp p t.num x.kind x.line false t.req.src
        ((match t.holder with | some h => h.amh | none => false) &&
          (k == .rdShared || k == .rdOwn || k == .rdCur || k == .rdRes || (k == .atomicOp && t.atomNear == some false)))
        (match t.holder with | some h => h.fwd | none => 0) true (some t.req.cls)))) ∧
  (∀ (s : State) (stop i : Nat),
    (stop < (ringStops s.variant).length → s.fb.claims.contains stop = false →
      exec (.ringInjectClaim stop) s = .next { s with fb := { s.fb with claims := s.fb.claims ++ [stop] } }) ∧
    (s.fb.claims.contains stop = true → exec (.ringInjectClaim stop) s = .next s) ∧
    (∀ f, s.ringSnoops[i]? = some f →
      let st := stopOf s.variant true f.phys
      let s1 := { s with ringSnoops := s.ringSnoops.modify i fun x => { x with circ := 32, esc := true }
                         fb := { s.fb with escKeep := s.fb.escKeep ++ [st] } }.count f.phys 0x36 none
      exec (.ringEscalation i) s = .next (if s.ev.escLogged.contains st then s1
        else { s1 with ev := { s1.ev with escLogged := s1.ev.escLogged ++ [st] } }.logEv 0x27 0 srcRing st 0)) ∧
    (∀ h p d po n e, s.ring[i]? = some (.answer h p d po n e) →
      let st := stopOf s.variant true h.phys
      let s1 := { s with ring := s.ring.set i (.answer h p d po 32 true)
                         fb := { s.fb with escKeep := s.fb.escKeep ++ [st] } }.count h.phys 0x36 none
      exec (.ringEscalation (s.ringSnoops.length + i)) s = .next (if s.ev.escLogged.contains st then s1
        else { s1 with ev := { s1.ev with escLogged := s1.ev.escLogged ++ [st] } }.logEv 0x27 0 srcRing st 0)) ∧
    (∀ q p a l d di po n e, s.ring[i]? = some (.fwdData q p a l d di po n e) →
      let st := stopOf s.variant false p
      let s1 := { s with ring := s.ring.set i (.fwdData q p a l d di po 32 true)
                         fb := { s.fb with escKeep := s.fb.escKeep ++ [st], ringEsc := s.fb.ringEsc.modify p satInc } }
      exec (.ringEscalation (s.ringSnoops.length + i)) s = .next (if s.ev.escLogged.contains st then s1
        else { s1 with ev := { s1.ev with escLogged := s1.ev.escLogged ++ [st] } }.logEv 0x27 0 srcRing st 0))) ∧
  (∀ (s : State) (n : Nat) (h : BitVec 128) (u v : List ((Nat × BitVec 128) × Nat)),
    (linkIn s.variant n = false ∨ n ∈ s.fb.linkFaults → exec (.meshParityRefuse ⟨n, h⟩) s = .next s) ∧
    (linkIn s.variant n = true → n ∉ s.fb.linkFaults → (∀ x ∈ u ++ v, x.1 ≠ (n, h)) →
      let s1 : State := { s with fb := { s.fb with parity := s.fb.parity + 1 } }
      let known (w : List ((Nat × BitVec 128) × Nat)) : State := { s1 with fb := { s1.fb with meshFails := w } };
      (s.fb.meshFails = u ++ v → exec (.meshParityRefuse ⟨n, h⟩) s = .next (known (u ++ v ++ [((n, h), 1)]))) ∧
      (s.fb.meshFails = u ++ ((n, h), 1) :: v → exec (.meshParityRefuse ⟨n, h⟩) s = .next (known (u ++ v ++ [((n, h), 2)]))) ∧
      (s.fb.meshFails = u ++ ((n, h), 2) :: v →
        let s2 : State := { known (u ++ v) with fb := { (known (u ++ v)).fb with linkFaults := s.fb.linkFaults ++ [n] } }
        let log (s : State) : State := s.logEv 0x15 2 srcMesh n 0
        let ill (s : State) : State := s.setHealth fun g => { g with linkFault := true };
        (∀ p, n < 128 → endpointOf s.variant (n % 64) = some (.slice p) →
          exec (.meshParityRefuse ⟨n, h⟩) s = .next ((ill (log s2)).failSlice p .link)) ∧
        (∀ p, n < 128 → endpointOf s.variant (n % 64) = some (.host p) →
          exec (.meshParityRefuse ⟨n, h⟩) s = .next (ill (log (s2.portReset p)))) ∧
        (∀ p, n < 128 → endpointOf s.variant (n % 64) = some (.agent p) →
          exec (.meshParityRefuse ⟨n, h⟩) s = .next (ill (log ((List.range 4).foldl (fun s g => s.silence p g) s2)))) ∧
        (128 ≤ n ∨ 0x21 ≤ n % 64 → exec (.meshParityRefuse ⟨n, h⟩) s = .next (ill ((log s2).blockFail 0x15))))))

/-- MEMDATA: a read response frees its TAG, travels back over the mesh and returns to the tracker that ordered it; one that no read
awaits is counted, and the late answer of a command given up is counted and frees its TAG (R207, R410, R550). SPILLHIT, SPILLMISS: a
bucket read returns under the name that the bucket's contents bear out; under the other name nothing changes (R212; the second
clause is the model's choice, log 30). MEMORY_PORT_TIMEOUT: the command is given up and its TAG stays reserved; the timeout is
logged and is a link fault; a write counts as acknowledged, with its line recorded poisoned before that, a read as uncorrectable,
with a free value for its data (R410). -/
def Obligations.ReadResponsesReturnToTheirOwner : Prop :=
  (∀ (s : State) (port tag : Nat) (mp : MemPort) (c : MemCmd) (d : Line) (nib : Nib) (po ue : Bool),
    s.memPort port = some mp → port < s.variant.mems →
    (mp.cmd tag = some c → c.givenUp = false → c.kind = .read →
      let s1 := (s.memFree port tag).memBack port c true po
      (∀ p n keep (sl : Slice) (t : Tracker), c.owner = .lineRead p n keep → s1.slice p = some sl → sl.live = true →
        s1.tracker p n = some t → t.req.line = c.line → t.req.kind ≠ .migStart → t.late = [] →
        let m : InMsg := { inp := .memData, line := c.line, data := d, be := if keep then BitVec.allOnes 64 else 0, poison := po,
                           nib := nib, ue := ue }
        exec (.memData port tag d nib po ue) s = .next (((State.pump (pumpFuel t) (s1.modSlice p fun y =>
          { y.modTrk n fun x => { x with inq := m :: x.inq, late := x.late.filter fun m => m.line != c.line } with
            ident := { y.ident with busyMove := true, gated := false } }) p n).sweepDone p n).settle p)) ∧
      (∀ p n use t, c.owner = .bucketRead p n use → s1.tracker p n = some t →
        exec (.memData port tag d nib po ue) s = .next (s1.bucketIn p n use (t.bktLine use) ue)) ∧
      (∀ p h, c.owner = .resend p h →
        exec (.memData port tag d nib po ue) s = .next (s1.resendData p h d (po || ue)))) ∧
    (mp.cmd tag = some c → c.givenUp = false → c.kind ≠ .read →
      exec (.memData port tag d nib po ue) s = .next (s.modMemPort port fun m => { m with faults := m.faults + 1 })) ∧
    (mp.cmd tag = some c → c.givenUp = true →
      exec (.memData port tag d nib po ue) s = .next ((s.modMemPort port fun m => { m with late := m.late + 1 }).memFree port tag)) ∧
    (mp.cmd tag = none →
      exec (.memData port tag d nib po ue) s = .next (s.modMemPort port fun m => { m with faults := m.faults + 1 }))) ∧
  (∀ (s : State) (port tag p n : Nat) (use : BktUse) (mp : MemPort) (c : MemCmd) (t : Tracker) (ue : Bool),
    s.memPort port = some mp → mp.cmd tag = some c → c.givenUp = false → c.owner = .bucketRead p n use → s.tracker p n = some t →
    let l := t.bktLine use
    let s1 := (s.memFree port tag).memBack port c true false
    ((bktFind s.gl.game (s.bucket (s.bucketNo l)) l).isSome = true →
      exec (.spillHit port tag) s = .next (s1.bucketIn p n use l false) ∧
      exec (.spillMiss port tag true) s = .next (s1.bucketIn p n use l true) ∧ exec (.spillMiss port tag false) s = .next s) ∧
    ((bktFind s.gl.game (s.bucket (s.bucketNo l)) l) = none →
      exec (.spillMiss port tag ue) s = .next (s1.bucketIn p n use l ue) ∧ exec (.spillHit port tag) s = .next s)) ∧
  (∀ (s : State) (port tag p : Nat) (mp : MemPort) (c : MemCmd), s.memPort port = some mp → mp.cmd tag = some c → c.givenUp = false →
    c.owner.phys = some p →
    let s0 := s.modMemPort port fun m => { m with out := m.out.map fun x => if x.tag = tag then { x with givenUp := true } else x }
    let s1 (s : State) : State := (s.logEv 0x17 2 p port (addrDetail c.line 0)).setHealth fun g => { g with linkFault := true };
    (c.kind ≠ .read → exec (.memoryPortTimeout port tag) s = .next ((s1 (s0.logPoison p c.line 4)).writeDone c)) ∧
    (c.kind = .read → exec (.memoryPortTimeout port tag) s = .next ((s1 s0).drawLine.2.readDone c (s1 s0).drawLine.1 0 true true)))

/-- MEMACK: what an acknowledgement answers ends, and the trackers that await it are told: a write of the WPQ, whose entry and mirror
record go; a write of a nibble or of a bucket; the oldest mirror update that the buddy has taken, with which the victim-buffer
entries that waited for it are freed; a stamp; a dirty mark (R213, R308, R313, R147, R352). One that nothing awaits is an error in
the slice's control state (R216). -/
def Obligations.AcknowledgementsEndWhatTheyAnswer : Prop :=
  ∀ (s : State) (p : Nat) (pg : Page) (sl : Slice), s.slice p = some sl →
    (∀ (port tag : Nat) (mp : MemPort) (c : MemCmd), s.memPort port = some mp → mp.cmd tag = some c → c.givenUp = false → c.kind ≠ .read →
      let s1 := (s.memFree port tag).memBack port c false false
      (∀ w, c.owner = .wpq p w → exec (.memAck (.mem port tag)) s =
        .next ((((((s1.modSlice p fun x => { x with
          msc := { x.msc with wpq := x.msc.wpq.filter fun y => y.wid != w }
          ident := { x.ident with busyMove := true, gated := false } }).mirSend p [.delWpq w]).1.deliverAll p
            fun _ a => a.kind == .lineWrite w).unstall p).quiesceKick p).settle p)) ∧
      (∀ n vic, c.owner = .metaW p n vic → exec (.memAck (.mem port tag)) s = .next ((s1.deliverAck p n ⟨.metaWrite, vic⟩).settle p)) ∧
      (∀ n vic, c.owner = .bucketW p n vic → exec (.memAck (.mem port tag)) s = .next ((s1.deliverAck p n ⟨.bucket, vic⟩).settle p))) ∧
    (∀ (u : Nat) (r : List Nat), sl.mir.acked = u :: r →
      exec (.memAck (.mirror p)) s = .next ((((s.modSlice p fun x => { x.setVb (x.msc.vb.filter fun v => !(v.inWpq && v.mirror == some u)) with
        mir := { x.mir with acked := r } }).deliverAll p fun _ k => k.kind == .mirror u).quiesceKick p).settle p)) ∧
    (sl.mir.acked = [] → sl.mir.link ≠ [] → exec (.memAck (.mirror p)) s = .next s) ∧
    (sl.mir.acked = [] → sl.mir.link = [] → sl.live = true → exec (.memAck (.mirror p)) s = .next (s.failSlice p .control)) ∧
    (s.net.contains (.stampAck p pg) = true →
      let hit (t : Tracker) (k : Ack) : Bool := k.kind == .stamp && pageOf (t.ackLine k) == pg
      let s1 := (s.takeMsg (.stampAck p pg)).modSlice p fun x => { x with stamps := x.stamps.filter fun y => y != pg };
      (s.awaitsAck p hit = true → exec (.memAck (.stamp p pg)) s = .next ((s1.deliverAll p hit).settle p)) ∧
      (s.awaitsAck p hit = false → sl.live = true → exec (.memAck (.stamp p pg)) s = .next (s1.failSlice p .control))) ∧
    (s.net.contains (.markAck p pg) = true →
      let hit (t : Tracker) (k : Ack) : Bool := k.kind == .dirtyMark && pageOf (t.ackLine k) == pg
      let s1 := (s.takeMsg (.markAck p pg)).modSlice p fun x => { x with marks := x.marks.filter fun y => y != pg };
      (s.awaitsAck p hit = true → exec (.memAck (.dirtyMark p pg)) s = .next ((s1.deliverAll p hit).settle p)) ∧
      (s.awaitsAck p hit = false → sl.live = true → exec (.memAck (.dirtyMark p pg)) s = .next (s1.failSlice p .control)))

/-- MIGSTART: a page move that is not declined takes a tracker, of the maintenance pool or else a shared one, when no tracker holds a
line of the page, and waits in hold otherwise; without a tracker and a hold entry that it may use it stays at the slice's input; a
demotion of a page warmer than the threshold is declined (R26, R206, R349). MIGDONE reaches every tracker of the page that is in MG,
once the entry updates sent before it have arrived, and answers the PROMOs of the page that are still under way (log 53); with none it
is an error in control state, but in a slice that took over a failed slice's range, which drops it (R214, R215, R216). -/
def Obligations.PageMovesTakeTrackersAndEnd : Prop :=
  (∀ (s : State) (p : Nat) (pg : Page) (k : MigKind) (sl : Slice), s.slice p = some sl → sl.live = true → sl.ident.adoptStall = false →
    s.eg.drainReq = false → s.net.contains (.migStart p pg k) = true →
    let s1 := s.takeMsg (.migStart p pg k)
    let declined : Prop := k = .demotion ∧ (∃ m, s.moveOf pg = some m ∧ m.forced = false) ∧
      ∃ n w, sl.pmFind pg = some (n, w) ∧ s.pdCold < w.heat.toNat;
    (sl.holdFree = true → ¬ declined →
      (sl.pageIdle pg = true → sl.poolFree .maint = true → exec (.migStart p pg k) s = .next (s1.openMig p (migReq pg k) .maint)) ∧
      (sl.pageIdle pg = true → sl.poolFree .maint = false → sl.poolFree .shared = true →
        exec (.migStart p pg k) s = .next (s1.openMig p (migReq pg k) .shared)) ∧
      (sl.pageIdle pg = false → sl.poolFree .maint = true ∨ sl.poolFree .shared = true →
        exec (.migStart p pg k) s = .next (s1.enterHold p (migReq pg k)))) ∧
    (sl.holdFree = false ∨ (sl.poolFree .maint = false ∧ sl.poolFree .shared = false) → exec (.migStart p pg k) s = .next s) ∧
    (∀ n w m, sl.holdFree = true → sl.poolFree .maint = true ∨ sl.poolFree .shared = true →
      k = .demotion → s.moveOf pg = some m → m.forced = false → sl.pmFind pg = some (n, w) → s.pdCold < w.heat.toNat →
      exec (.migStart p pg k) s = .next (s1.declineMove pg w.heat))) ∧
  (∀ (s : State) (p : Nat) (pg : Page) (sl : Slice) (a b : List NMsg), s.slice p = some sl → sl.live = true →
    s.net = a ++ .migDone p pg :: b → .migDone p pg ∉ a →
    let mine := sl.trk.filter fun (t : Tracker) => t.st == .mg && pageOf t.req.line == pg;
    let s1 : State := { s with net := s.net.filter fun m => m != .migDone p pg && m != .promo p pg };
    (.entry pg ∈ a → exec (.migDone p pg) s = .next s) ∧
    (.entry pg ∉ a → mine ≠ [] → exec (.migDone p pg) s = .next ((mine.foldl (fun (s : State) (t : Tracker) =>
      s.feed p t.num { inp := .migDone, line := t.req.line }) s1).settle p)) ∧
    (.entry pg ∉ a → mine = [] → (∀ r ∈ s.cast.redirect, r.2 ≠ p) → exec (.migDone p pg) s = .next (s1.failSlice p .control)) ∧
    (∀ r ∈ s.cast.redirect, .entry pg ∉ a → mine = [] → r.2 = p → exec (.migDone p pg) s = .next s1))

/-- MOVETICK, SELFCHECK, REEVAL: the first tracker, in ascending number, that had armed it at the move's start is given MoveTick,
counted; a slice whose copies agree in the move's first maintenance slot beats, once a move, and one whose copies differ fails; a
tracker that is due looks its line up again (R80, R81, R200, R29). P1_GATE, P1_UNGATE: a slice idle for the set number of moves gates
its clock, and its clock runs again (R502). -/
def Obligations.TicksChecksReevaluationsAndGating : Prop :=
  (∀ (s : State) (p n : Nat) (sl : Slice) (t : Tracker) (u v : List Tracker), s.slice p = some sl → sl.live = true →
    (sl.trk = u ++ t :: v → (∀ x ∈ u, x.armed = false ∨ x.tickDue = false) → t.armed = true → t.tickDue = true →
      exec (.moveTick p t.num) s = .next ((((s.modTrk p t.num fun x => { x with tickDue := false }).count p 0x4E none).feed p t.num
        { inp := .moveTick, line := t.req.line }).settle p) ∧
      (n ≠ t.num → exec (.moveTick p n) s = .next s)) ∧
    ((∀ x ∈ sl.trk, x.armed = false ∨ x.tickDue = false) → exec (.moveTick p n) s = .next s) ∧
    (sl.arb.selfSlot = true → sl.arb.selfDone = false → exec (.selfCheck p true) s = .next (s.modSlice p fun x =>
      { x with arb := { x.arb with selfDone := true }, ident := { x.ident with beatThisMove := true, beats := x.ident.beats + 1 } })) ∧
    (sl.arb.selfSlot = true → sl.arb.selfDone = false → exec (.selfCheck p false) s = .next (s.modSlice p fun x =>
      { x with ident := { x.ident with failed := some .mismatch } })) ∧
    (sl.arb.selfSlot = true → sl.arb.selfDone = true → ∀ ok, exec (.selfCheck p ok) s = .next s) ∧
    (s.tracker p n = some t → t.reevalDue = true → t.stall = none → exec (.reeval p n) s = .next ((s.lookupPump p n).settle p)) ∧
    (s.tracker p n = some t → t.reevalDue = false → exec (.reeval p n) s = .next s)) ∧
  (∀ (s : State) (p : Nat) (sl : Slice), s.slice p = some sl →
    (bitAt (s.actReg 0x010) 29 = true → s.pwr.phase = .p0 → sl.live = true → sl.beating = true → sl.idle = true → sl.arb.selfDone = true →
      sl.ident.busyMove = false → max 1 (fieldN (s.actReg 0x010) 8 12) ≤ sl.ident.idleMoves →
      exec (.p1Gate p) s = .next (s.modSlice p fun x => { x with ident := { x.ident with gated := true } })) ∧
    (bitAt (s.actReg 0x010) 29 = false ∨ sl.idle = false → exec (.p1Gate p) s = .next s) ∧
    exec (.p1Ungate p) s = .next (s.modSlice p fun x => { x with ident := { x.ident with gated := false } }))

/-- R89: each cycle of a move has exactly one slot kind. -/
def Obligations.EveryCycleHasOneSlotKind : Prop :=
  ∀ c : Nat, c < 1024 →
    (c % 8 = 0 ↔ slotKind c = .k) ∧ (c % 4 = 2 ↔ slotKind c = .q) ∧ (c % 16 = 5 ↔ slotKind c = .maint) ∧
    (c % 8 ≠ 0 ∧ c % 4 ≠ 2 ∧ c % 16 ≠ 5 ↔ slotKind c = .lottery)

/-- ISSUE_SLOT: a class-K or lottery slot accepts the request eligible for the class-K budget that has waited longest, and a Q slot
the request of the candidate drawn; the first maintenance slot of a move is the self-check's; a slot that finds nothing is counted;
then the cycle ends. A slice that is not live, or whose clock is gated, does nothing (R80, R90, R91, R95, R502). STARVATION_LIMIT,
KCREDIT_ISSUE: an input whose count has reached its limit is due a forced win; an input without a class-K credit is given one, for
which a tracker is reserved, and what its port kept for want of it leaves (R92, R98). HOLD_RELEASE: of the requests that wait for a
line no tracker holds, the first of class K, or else the first, takes a tracker, where no error is stored (R25, R27). -/
def Obligations.SlotsCreditsAndHold : Prop :=
  (∀ (s : State) (p : Nat) (sl : Slice), s.slice p = some sl →
    (sl.live = false ∨ sl.ident.gated = true → exec (.issueSlot p) s = .next s) ∧
    (sl.live = true → sl.ident.gated = false →
      let k := slotKind (sl.arb.cyc % 1024)
      let had := (s.cands sl fun _ => true).map fun c => c.input
      let q1 := if s.variant = .yzh16 then s.drawQ p sl else none
      let l1 := if s.variant = .yzh16 then s.drawLottery p sl else none
      let dq := if s.variant = .yzh16 then sl.arb.pipeQ else s.drawQ p sl
      let dl := if s.variant = .yzh16 then sl.arb.pipeL else s.drawLottery p sl
      let s1 := s.cycleCounts p sl;
      (∀ (n : Nat) (q : Req), k = .k ∨ k = .lottery → s1.kPick sl = some (n, q) →
        exec (.issueSlot p) s = .next ((s1.accept p n q).cycleEnd p sl k had q1 l1)) ∧
      (∀ (c : Cand) (q : Req), k = .q → dq = some c → s1.resetSince sl c.input = false →
        s1.candReq sl c (fun q => s1.slotClass sl q == .q) (s1.onTurn sl) = some q → s1.tickets p c ≠ 0 →
        exec (.issueSlot p) s = .next ((s1.accept p c.input q).cycleEnd p sl k had q1 l1)) ∧
      (k = .maint → sl.arb.selfSlot = false →
        exec (.issueSlot p) s = .next ((s1.modArb p fun a => { a with selfSlot := true }).cycleEnd p sl k had q1 l1)) ∧
      (k ≠ .maint → s1.kPick sl = none → s1.forcedPick sl = none → dq = none ∨ k ≠ .q → dl = none → s1.maintWaits p sl = false →
        exec (.issueSlot p) s = .next ((s1.count p 0x07 none).cycleEnd p sl k had q1 l1)))) ∧
  (∀ (s : State) (p n : Nat) (sl : Slice) (i : InputQ), s.slice p = some sl → sl.arb.inputs[n]? = some i →
    (s.starveLimit p n ≠ 0 → s.starveLimit p n ≤ i.starve → i.forced = false →
      exec (.starvationLimit p n) s = .next (s.modSlice p fun x =>
        { x with arb := { x.arb with starved := setBit x.arb.starved n true,
                                     inputs := x.arb.inputs.modify n fun y => { y with forced := true } } })) ∧
    (i.starve < s.starveLimit p n → exec (.starvationLimit p n) s = .next s) ∧
    (∀ o, sl.creditPool = some o → s.variant.hasInput n = true → sl.live = true → sl.ident.role.serves = true → i.kcredit = none →
      exec (.kcreditIssue p n) s = .next ((s.modSlice p fun x =>
        { x with arb := { x.arb with inputs := x.arb.inputs.modify n fun y => { y with kcredit := some o } } }).portRelease n)) ∧
    (sl.creditPool = none ∨ i.kcredit.isSome = true → exec (.kcreditIssue p n) s = .next s)) ∧
  (∀ (s : State) (p : Nat) (l : LineAddr) (sl : Slice) (h : HoldEnt) (o : Pool), s.slice p = some sl → sl.live = true →
    sl.obs.errs = [] → h ∈ sl.hold → h.req.line = l → h.req.kind ≠ .migStart →
    (∀ x ∈ sl.hold, x.req.line = l → x ≠ h →
      (x.req.cls = .k → h.req.cls = .k) ∧ ((x.req.cls = .k ↔ h.req.cls = .k) → h.order < x.order)) →
    (sl.holderTrk l = none → s.replaying p l = false → s.releasePool sl h.req = some o →
      exec (.holdRelease p l) s = .next ((((s.modSlice p fun x => { x with hold := x.hold.filter fun y => y.num != h.num }).openTracker p
        h.req o true).noteOcc p).settleIn p)) ∧
    ((sl.holderTrk l).isSome = true → exec (.holdRelease p l) s = .next s))

/-- WRITEBACK_WALK_TURN: while the dirty count calls for it the walk writes back the dirty lines of its next set, and waits
where the WPQ lacks room for them (R310). CACHE_DRAIN_WALK_TURN: of a cache being disabled, the lines of the next set that no hold
entry waits for go, the dirty ones to the WPQ; the last set ends the walk, or begins another pass while lines or victims remain (R320).
DRAIN_WALK_TURN: a drain writes back the dirty lines of the next set, which stay valid (R382). -/
def Obligations.WritebackAndDrainWalks : Prop :=
  (∀ (s : State) (p : Nat) (sl : Slice), s.slice p = some sl → sl.live = true → sl.msc.retiring = [] → sl.ident.unprot = false →
    let dirty := (sl.setLines sl.msc.walkSet).filter fun x => x.2.dirty;
    (sl.msc.walkBusy = false → sl.dirtyCount ≤ s.dirtyHigh p → exec (.writebackWalkTurn p) s = .next s) ∧
    (s.dirtyHigh p < sl.dirtyCount ∨ sl.msc.walkBusy = true → sl.wpqRoom < dirty.length →
      exec (.writebackWalkTurn p) s = .next (s.modSlice p fun x => { x with msc := { x.msc with walkBusy := true } })) ∧
    (s.dirtyHigh p < sl.dirtyCount ∨ sl.msc.walkBusy = true → dirty.length ≤ sl.wpqRoom → ∀ y,
      let s1 := dirty.foldl (fun (s : State) x => s.writeBack p (sl.msc.walkSet * 16 + x.1) x.2) s
      s1.slice p = some y →
      exec (.writebackWalkTurn p) s = .next (((s1.modMsc p fun m =>
        { m with walkSet := (m.walkSet + 1) % 4096, walkBusy := decide (s.dirtyLow p < y.dirtyCount) }).noteOcc p).settle p))) ∧
  (∀ (s : State) (p : Nat) (sl : Slice), s.slice p = some sl → sl.live = true →
    (sl.msc.state = .draining →
      let ls := sl.setLines sl.msc.drainSet
      let goes (x : Nat × CLine) : Bool := !sl.holdWaits x.2.line
      let left := sl.msc.drainLeft || ls.any fun x => !goes x;
      ((ls.filter fun x => x.2.dirty).length ≤ sl.wpqRoom →
        let s1 := (ls.filter fun x => x.2.dirty && goes x).foldl (fun (s : State) x => s.writeBack p (sl.msc.drainSet * 16 + x.1) x.2) s
        let s2 := (ls.filter goes).foldl (fun (s : State) x => s.modSlice p fun y => y.mscDel (sl.msc.drainSet * 16 + x.1)) s1
        exec (.cacheDrainWalkTurn p) s = .next (((s2.modMsc p fun m =>
          if sl.msc.drainSet + 1 < 4096 then { m with drainSet := sl.msc.drainSet + 1, drainLeft := left }
          else if left || !m.vb.isEmpty then { m with drainSet := 0, drainLeft := false }
          else { m with drainSet := 0, drainLeft := false, state := .disabled }).noteOcc p).settle p)) ∧
      (sl.wpqRoom < (ls.filter fun x => x.2.dirty).length → exec (.cacheDrainWalkTurn p) s = .next s)) ∧
    (sl.msc.state ≠ .draining → exec (.cacheDrainWalkTurn p) s = .next s) ∧
    (sl.ident.draining = true → sl.ident.drainPass = false → s.eg.drainReq = true →
      let dirty := (sl.setLines sl.ident.drainSet).filter fun x => x.2.dirty;
      (dirty.length ≤ sl.wpqRoom → exec (.drainWalkTurn p) s = .next ((((dirty.foldl (fun (s : State) x =>
        s.writeBack p (sl.ident.drainSet * 16 + x.1) x.2) s).modSlice p fun x =>
        { x with ident := { x.ident with drainSet := (x.ident.drainSet + 1) % 4096,
                                         drainPass := x.ident.drainPass || x.ident.drainSet + 1 == 4096 } }).noteOcc p).settle p)) ∧
      (sl.wpqRoom < dirty.length → exec (.drainWalkTurn p) s = .next s)) ∧
    (sl.ident.draining = false → exec (.drainWalkTurn p) s = .next s))

/-- WPQ_ISSUE: the oldest entry not yet issued goes to its memory port, at the line's near address (R308, R110). MIRROR_UPDATE: the
buddy takes the oldest update that a slice has sent, applies its changes in order, holds the slice's journal and acknowledges it (R32,
R313, R413). VICTIM_TO_WPQ, PENDING_KPIN_FILL: a victim-buffer entry, the only one of its line, takes a WPQ entry, and is freed at
once in unprotected mode; a pending class-K fill stays pending while no way of its set is eligible (R305, R306, R420). Of a slice in
which no error is stored. -/
def Obligations.LinesLeaveForMemory : Prop :=
  (∀ (s : State) (p : Nat) (sl : Slice) (a b : List WpqEnt) (w : WpqEnt), s.slice p = some sl → sl.ident.isolated = false →
    sl.ident.failed = none → sl.obs.errs = [] → sl.msc.wpq = a ++ w :: b → (∀ x ∈ a, x.issued = true) → w.issued = false →
    let s1 := ((s.modSlice p fun x => { x with msc := { x.msc with wpq := x.msc.wpq.map fun y =>
      if y.wid = w.wid then { y with issued := true, poison := w.poison } else y } }).memSubmit
      (memCmd .write w.ktag ((s.lineEnt sl w.line).na w.line) w.line w.nib w.data w.poison (.wpq p w.wid))).count p 0x41 none
    exec (.wpqIssue p) s = .next (if w.ktag then s1.count p 0x43 none else s1)) ∧
  (∀ (s : State) (p b : Nat) (sl : Slice) (u : MirUpd) (r : List MirUpd), s.slice p = some sl → s.buddyOf p = some b →
    sl.obs.errs = [] → sl.mir.link = u :: r →
    exec (.mirrorUpdate p) s = .next ((s.modSlice p fun x => { x with mir := { x.mir with link := r, acked := x.mir.acked ++ [u.uid] } }).modSlice
      b fun x => { x with mir := { x.mir with
        dirty := (u.ops.foldl (fun (a : List MirLine × List (Nat × MirLine)) op => op.apply a.1 a.2) (x.mir.dirty, x.mir.wpq)).1
        wpq := (u.ops.foldl (fun (a : List MirLine × List (Nat × MirLine)) op => op.apply a.1 a.2) (x.mir.dirty, x.mir.wpq)).2
        jTrk := sl.trk
        jHold := sl.hold } })) ∧
  (∀ (s : State) (p v n : Nat) (sl : Slice) (x : VbEnt) (t : Tracker), s.slice p = some sl → sl.ident.isolated = false → sl.ident.failed = none →
    sl.obs.errs = [] →
    (∀ a b, sl.msc.vb = a ++ x :: b → x.num = v → x.inWpq = false → (∀ y ∈ a ++ b, y.num ≠ v ∧ y.cl.line ≠ x.cl.line) →
      let e := (s.modSlice p fun y => y.setVb (y.msc.vb.map fun z => if z.num == v then { z with inWpq := true } else z)).toWpq p x.cl.line
        x.cl.data x.cl.nib x.cl.poison false;
      (sl.wpqFits x.cl.line = true → (e.s.mirSend p e.ops).2 = none → exec (.victimToWpq p v) s =
        .next (((((e.s.mirSend p e.ops).1.modSlice p fun y => y.setVb (y.msc.vb.filter fun z => z.num != v)).noteOcc p).quiesceKick p).settle p)) ∧
      (∀ u, sl.wpqFits x.cl.line = true → (e.s.mirSend p e.ops).2 = some u → exec (.victimToWpq p v) s =
        .next (((((e.s.mirSend p e.ops).1.modSlice p fun y => y.setVb (y.msc.vb.map fun z =>
          if z.num == v then { z with inWpq := true, mirror := some u } else z)).noteOcc p).quiesceKick p).settle p)) ∧
      (sl.wpqFits x.cl.line = false → exec (.victimToWpq p v) s = .next s)) ∧
    (∀ (d : Line), s.tracker p n = some t → t.acks = [⟨.kFill true, false⟩] → t.buf = some d →
      let e := s.writeDirty p t.req.line d (t.nib.getD (s.nibNow 0b01)) t.poison (s.lineEnt sl t.req.line).kpin false t.ktag;
      (e.pend = true → exec (.pendingKpinFill p n) s = .next s) ∧
      (e.pend = false → e.wid = none → e.ops ≠ [] → exec (.pendingKpinFill p n) s = .next (((((e.s.mirSend p e.ops).1.modTrk p n fun y =>
        { y with acks := y.acks ++ (match (e.s.mirSend p e.ops).2 with | some u => [Ack.mk (.mirror u) false] | none => []),
                 held := y.held.map fun h => if h.fill then { h with mirror := (e.s.mirSend p e.ops).2, write := none } else h }).deliverAck p n
          ⟨.kFill true, false⟩).noteOcc p).settle p))))

/-- WAY_RETIRE, ERROR_WINDOW_RESTART: a way whose errors have reached the threshold begins to be retired while more ways than
MIN_WAYS are on, and is kept and logged otherwise; the error counts restart at a window's end (R321, R322). SF_WAY_DISABLE_WALK:
a set whose disabled ways hold no entry is passed; an entry of one is resolved as a victim by a maintenance tracker; after the last
set, with nothing left behind, the disabled ways are marked empty (R540). -/
def Obligations.WaysRetireAndAreDisabled : Prop :=
  (∀ (s : State) (p w : Nat) (sl : Slice), s.slice p = some sl → sl.live = true → w < 16 →
    let ctl := s.slReg p 0x120;
    (fieldN ctl 24 8 ≠ 0 → fieldN ctl 24 8 ≤ (kget w sl.msc.wayErr).getD 0 → s.mscDis p w = false → bitAt sl.msc.auto w = false →
      (∀ r ∈ sl.msc.retiring, r.1 ≠ w) →
      (clamp 4 16 (fieldN ctl 8 8) < s.waysOn p sl → exec (.wayRetire p w) s =
        .next (s.modSlice p fun x => { x with msc := { x.msc with retiring := x.msc.retiring ++ [(w, 0, true)] } })) ∧
      (s.waysOn p sl ≤ clamp 4 16 (fieldN ctl 8 8) → exec (.wayRetire p w) s = .next (s.logEv 0x19 1 p w 0))) ∧
    ((kget w sl.msc.wayErr).getD 0 < fieldN ctl 24 8 → exec (.wayRetire p w) s = .next s) ∧
    (s.gl.move.toNat % (65536 * max 1 (fieldN ctl 16 8)) = 0 → exec (.errorWindowRestart p) s =
      .next (s.modSlice p fun x => { x with msc := { x.msc with wayErr := [] } }))) ∧
  (∀ (s : State) (p set : Nat) (sl : Slice), s.slice p = some sl → sl.live = true → sl.dir.wdSet = some set →
    ((∀ w < 16, s.sfDis p w = true → sl.sfAt set w = none) →
      (set + 1 < 32768 → exec (.sfWayDisableWalk p) s = .next ((s.modSlice p fun x =>
        { x with dir := { x.dir with wdSet := some (set + 1) } }).settle p)) ∧
      (set + 1 = 32768 → sl.dir.wdLeft = 0 → exec (.sfWayDisableWalk p) s = .next ((s.modSlice p fun x =>
        { x with dir := { x.dir with wdSet := none, wdLeft := 0, empty := x.dir.empty ||| (s.slReg p 0x024).extractLsb' 0 16 } }).settle p))) ∧
    (∀ (w : Nat) (e : Entry) (y : Slice), w < 16 → s.sfDis p w = true → sl.sfAt set w = some e → e.opn = false →
      (∀ v < 16, v ≠ w → s.sfDis p v = true → sl.sfAt set v = none) → sl.poolFree .maint = true → set + 1 < 32768 →
      let s1 := s.evictEntry p (set * 16 + w) e
      s1.slice p = some y → y.sfAt set w = none →
      exec (.sfWayDisableWalk p) s = .next ((s1.modSlice p fun x => { x with dir := { x.dir with wdSet := some (set + 1) } }).settle p)))

/-- BLINDFOLD_SWEEP_GROUP: with no page left the range is done, which is logged; a group of a near page of which the snoop filter
holds an entry for every line whose nibble the slice does not hold is passed; a page whose entry is not in the page-map cache is
read first (R423, R424). PREFETCH_ACCEPT: the oldest queued prefetch is looked up as a MemSpecRd of its class, when the slice has the
trackers and hold entries for it (R302). PRELOAD_WALK_TURN: the walk does nothing when not busy; a line that is not near is counted
as skipped; the walk ends when no page is left and no line that it ordered is outstanding (R315). -/
def Obligations.SweepersPrefetchesAndPreloads : Prop :=
  (∀ (s : State) (p : Nat) (sl : Slice) (b : Blind) (rest : List Blind), s.slice p = some sl → sl.live = true → sl.ident.adoptStall = false →
    s.eg.drainReq = false → sl.blind = b :: rest →
    (s.sweepPage b = none →
      let s1 := (s.modSlice p fun x => { x with blind := x.blind.drop 1 }).logEv 0x05 0 p b.log 0
      exec (.blindfoldSweepGroup p) s =
        .next (if s1.slices.any fun x => !x.blind.isEmpty then s1 else s1.setHealth fun g => { g with blind := false })) ∧
    (∀ (pg : Page) (f : Option Nat), s.sweepPage b = some (pg, f) → sl.sweepers = [] → (sl.pmFind pg).isSome = true →
      (s.pageEnt pg).near = true →
      (∀ i < 4, (sl.sfFind (pageLine pg (4 * b.group + i))).isSome = true ∨
        ∃ n, sl.nibHere (pageLine pg (4 * b.group + i)) = some n ∧ Nib.dir n ≠ 0b01) →
      exec (.blindfoldSweepGroup p) s = .next (s.modSlice p fun x => { x with blind := b.next f :: rest })) ∧
    (∀ (pg : Page) (f : Option Nat), s.sweepPage b = some (pg, f) → sl.sweepers = [] → sl.pmFind pg = none →
      exec (.blindfoldSweepGroup p) s = .next (s.pmRequest p pg))) ∧
  (∀ (s : State) (p : Nat) (sl : Slice), s.slice p = some sl → sl.live = true →
    (∀ (l : LineAddr) (c : Cls) (r : List (LineAddr × Cls)), sl.msc.pfq = (l, c) :: r → sl.ident.adoptStall = false → s.eg.drainReq = false →
      sl.poolUsed .shared + sl.creditsOf .shared ≤ 128 → sl.holdFree = true →
      exec (.prefetchAccept p) s = .next ((((s.modSlice p fun x => { x with msc := { x.msc with pfq := r } }).count p 0x27 (some c)).present p
        (ownReq .memSpecRd .prefetch 0 l c) .shared).settle p)) ∧
    (sl.msc.pre.busy = false → exec (.preloadWalkTurn p) s = .next s) ∧
    (∀ (n : Nat), sl.msc.pre.busy = true → sl.msc.pre.clearing = none → sl.msc.pre.left = n + 1 →
      s.homeSlice sl.msc.pre.page = some p → sl.msc.pre.lineNo < 63 →
      (s.lineEnt sl (pageLine sl.msc.pre.page sl.msc.pre.lineNo)).near = false →
      exec (.preloadWalkTurn p) s = .next (s.modSlice p fun x => { x with msc := { x.msc with pre :=
        { x.msc.pre with skipped := x.msc.pre.skipped + 1, lineNo := sl.msc.pre.lineNo + 1, left := n + 1 } } })) ∧
    (sl.msc.pre.busy = true → sl.msc.pre.clearing = none → sl.msc.pre.left = 0 → sl.preloading = false →
      exec (.preloadWalkTurn p) s = .next (s.modSlice p fun x => { x with msc := { x.msc with pre :=
        { x.msc.pre with busy := false, done := true, clearing := none, loaded := s.inTargets p sl } } })))

/-- MOVE_BOUNDARY: the count goes up and the limits of records start anew; in P2 nothing else happens; otherwise the mesh carries its
flits on, errors of control state are met, pending commits come into force, and each slice begins its move, and what the
director does by the move comes due (R77 to R79, R150, R348, R363, R411, R504); while the block is in reset nothing happens. -/
def Obligations.AMoveBoundaryStartsTheMoveInEverySlice : Prop :=
  ∀ s : State,
    let s1 : State := { s with
      gl := { s.gl with move := s.gl.move + 1 }
      hostPorts := s.hostPorts.map fun h => { h with logged := [] }
      ev := { s.ev with escLogged := [], poisonDir := 0 } }
    let s2 := s1.meshMove.ctlSettle
    let begun (s : State) (offs : List Nat) : State :=
      (((List.range s.variant.phys).foldl (fun (s : State) p => s.sliceBoundary offs p) s).probesFollow).rootTick.directorDue;
    (s.pins.blkPor = false → exec .moveBoundary s = .next s) ∧
    (s.pins.blkPor = true → s.pwr.phase = .p2 → exec .moveBoundary s = .next s1) ∧
    (s.pins.blkPor = true → s.pwr.phase ≠ .p2 → s2.gl.anyCommit = false →
      exec .moveBoundary s = .next (begun s2 (s.gl.commit.map (·.1)))) ∧
    (s.pins.blkPor = true → s.pwr.phase ≠ .p2 → s2.gl.anyCommit = true →
      let s3 := s2.gl.commit.foldl (fun (s : State) x => s.putForce x.1 x.2) { s2 with gl := { s2.gl with commit := [], anyCommit := false } }
      exec .moveBoundary s = .next (begun (s3.inForce s2 (s2.gl.commit.map (·.1))) (s.gl.commit.map (·.1))))

/-- SLICE_FAILURE_DECLARED: a reserve that fails is isolated, which leaves no reserve and is logged; a serving slice whose buddy is
healthy, with no error stored, is replayed into the free reserve, or adopted by the buddy when there is none; without a buddy its
range is lost; a cause other than the slice's own changes nothing (R412, R414, R415, R425, R428). -/
def Obligations.AFailedSliceIsReplacedOrLost : Prop :=
  ∀ (s : State) (p : Nat) (sl : Slice) (c : FailCause), s.slice p = some sl → sl.ident.failed = some c → sl.ident.isolated = false →
    (sl.ident.role = .reserve → (∀ r ∈ s.cast.replays, r.target ≠ p) →
      exec (.sliceFailureDeclared p (BitVec.ofNat 4 c.code)) s =
        .next ((s.isolate p).setHealthWith (fun g => { g with noReserve := g.noReserve || !g.reserveUsed }) 0x04 1 0 0)) ∧
    (sl.ident.role = .active → s.buddyOf p = none → exec (.sliceFailureDeclared p (BitVec.ofNat 4 c.code)) s = .next (s.lose p)) ∧
    (∀ (b : Nat) (sb : Slice), sl.ident.role = .active → sl.ident.unprot = false → s.buddyOf p = some b → s.castleLive b = true →
      s.cast.replays = [] →
      let s1 := s.landUpdates p b
      s1.slice b = some sb → sb.obs.errs = [] →
      (∀ g, s1.reserveFree = some g → exec (.sliceFailureDeclared p (BitVec.ofNat 4 c.code)) s =
        .next (((s1.takeRegs p g).startReplay ⟨p, g, b, sl.ident.logA, false, c, replayItems sl sb, replayItems sl sb⟩).enterUnprot b)) ∧
      (s1.reserveFree = none → exec (.sliceFailureDeclared p (BitVec.ofNat 4 c.code)) s =
        .next ((s1.pairUnprot b 0).startReplay ⟨p, b, b, sl.ident.logA, true, c, replayItems sl sb, replayItems sl sb⟩))) ∧
    (∀ cause : BitVec 4, cause.toNat ≠ c.code → exec (.sliceFailureDeclared p cause) s = .next s)

/-- CASTLEREPLAY: the target takes the replay's next item, in order - a WPQ entry or a hold entry as it was, or the end of the replay -
and outside a replay one is discarded and logged (R215, R415). ADOPTION_ITEM_MOVE: the adopting slice takes the next item, a line
into the WPQ once it has room (R426). RESYNC_COMPLETE: with no error stored in the mirror, the buddy holds the slice's dirty lines, WPQ
entries and journal, and the slice is mirrored again (R420). -/
def Obligations.ReplaysPlaceTheirItemsInOrder : Prop :=
  ∀ (s : State) (p : Nat) (sl : Slice), s.slice p = some sl →
    (sl.live = true → (∀ r ∈ s.cast.replays, r.target ≠ p) → exec (.castleReplay p) s = .next (s.logEv 0x29 0 p 0 0)) ∧
    (∀ (r : Replay) (rest : List RItem), s.cast.replays = [r] → r.target = p → r.adoption = false →
      s.castleLive p = true → s.castleLive r.buddy = true → (s.busBeat r.buddy).2 = false →
      let s0 := (s.busBeat r.buddy).1
      let end_ (s1 : State) : State :=
        ((({ s1 with cast := { s1.cast with replays := [{ r with items := rest }] } }.cleanStart p).noteOcc p).settle p);
      (∀ (w : Nat) (m : MirLine), r.items = .wpq w m :: rest →
        exec (.castleReplay p) s = .next (end_ (s0.modSlice p fun x => { x with msc := { x.msc with
          wpq := x.msc.wpq ++ [⟨w, m.line, m.data, m.nib, m.poison, false, false⟩], widNext := max x.msc.widNext (w + 1) } }))) ∧
      (∀ h : HoldEnt, r.items = .hold h :: rest →
        exec (.castleReplay p) s = .next (end_ (s0.modSlice p fun x =>
          { x with hold := x.hold ++ [h], holdSeq := max x.holdSeq (h.order + 1) }))) ∧
      (r.items = .replayEnd :: rest → exec (.castleReplay p) s = .next (s.replayEnd r))) ∧
    (∀ (r : Replay) (w : Nat) (m : MirLine) (rest : List RItem), s.cast.replays = [r] → r.target = p → r.adoption = true →
      r.items = .wpq w m :: rest → s.castleLive p = true →
      (sl.wpqFits m.line = true →
        let s1 := (s.toWpq p m.line m.data m.nib m.poison false).s
        exec (.adoptionItemMove p) s = .next
          (((({ s1 with cast := { s1.cast with replays := [{ r with items := rest }] } }).cleanStart p).noteOcc p).settle p)) ∧
      (sl.wpqFits m.line = false → exec (.adoptionItemMove p) s = .next s)) ∧
    (∀ (b : Nat) (sb : Slice), s.buddyOf p = some b → s.slice b = some sb → sb.ident.role = .active → sb.ident.adoptStall = false →
      sb.obs.errs = [] →
      (s.cast.linkFailed[s.channelOf p]?).getD false = false → sl.ident.unprot = true → s.castleLive p = true → s.castleLive b = true →
      sl.ident.role ≠ .adopting → sl.ident.adoptStall = false →
      let s1 := (s.modSlice b fun x => { x with mir := { x.mir with
        dirty := (sl.msc.lines.filter fun y => y.2.dirty).map (fun y => y.2.mir) ++ (sl.msc.vb.filter fun v => v.cl.dirty && !v.inWpq).map fun v => v.cl.mir
        wpq := sl.msc.wpq.map fun w => (w.wid, MirLine.mk w.line w.data w.nib w.poison)
        jTrk := sl.trk
        jHold := sl.hold } }).modSlice p fun x => { x with ident := { x.ident with unprot := false } }
      let c := s.channelOf p
      exec (.resyncComplete p) s = .next ((if s.cast.reported.contains c then
        { s1 with cast := { s1.cast with reported := s1.cast.reported.filter (· != c) } }.logEv 0x07 0 srcCastle c 0 else s1).settle p)) ∧
    (sl.ident.unprot = false → exec (.resyncComplete p) s = .next s)

/-- PROMO, its chunk loaded and its message under way: a page already plain near is answered with MigDone; the slice joins a
promotion under way, and waits for a demotion or an eviction of the page; otherwise the promotion starts with a frame taken, or waits
while no move may start (R337, R340, R344). DACK: a quiesced demotion is compressed when its pool has room and goes to the persistent
tier otherwise; a hint promotion of a page already near ends; a move abandoned before is abandoned now. DNOTE after DACK abandons a
demotion, and flushes its compression (R338, R339, R343, R350). -/
def Obligations.PromotionsAndQuiescedMoves : Prop :=
  (∀ (s : State) (p : Nat) (pg : Page), s.chunkIn pg = true → s.net.contains (.promo p pg) = true →
    let s1 := s.takeMsg (.promo p pg)
    let waits : State := { s1 with dir := { s1.dir with waiting := s1.dir.waiting ++ [(p, pg)] } };
    (s.moveOf pg = none → (s.pageEnt pg).near = true → exec (.promo p pg) s = .next (s1.send (.migDone p pg)).hintSettle) ∧
    (∀ f s2 m, s.moveOf pg = none → (s.pageEnt pg).near = false → s.moveRoom = true → s1.takeFrame pg 255 = some (f, s2) →
      (s2.newMove pg .demandPromotion .copy [p] f false).moveOf pg = some m →
      exec (.promo p pg) s = .next ((s2.newMove pg .demandPromotion .copy [p] f false).startCopy m).hintSettle) ∧
    (s.moveOf pg = none → (s.pageEnt pg).near = false → s.moveRoom = true → s1.takeFrame pg 255 = none →
      exec (.promo p pg) s = .next waits.makeRoom.hintSettle) ∧
    (s.moveOf pg = none → (s.pageEnt pg).near = false → s.moveRoom = false → exec (.promo p pg) s = .next waits.hintSettle) ∧
    (∀ m, s.moveOf pg = some m → m.kind = .demandPromotion ∨ m.kind = .hintPromotion →
      exec (.promo p pg) s = .next (s1.modMove pg fun m => { m with askers := if m.askers.contains p then m.askers else m.askers ++ [p] }).hintSettle) ∧
    (∀ m, s.moveOf pg = some m → m.kind = .demotion ∨ m.kind = .slotEviction → exec (.promo p pg) s = .next waits.hintSettle)) ∧
  (∀ (s : State) (p : Nat) (pg : Page) (m : Move), s.moveOf pg = some m →
    (s.net.contains (.dack p pg) = true → m.stage = .quiesce →
      let s0 := s.takeMsg (.dack p pg)
      let s1 := s0.modMove pg fun x => { x with dacked := true };
      (m.aborted = true → exec (.dack p pg) s = .next (s0.abortMove m).hintSettle) ∧
      (m.aborted = false → m.kind = .demotion → s.pdCompEnable = true → s1.poolOk (s1.expectedPool pg) = true →
        exec (.dack p pg) s = .next (s1.compress { m with dacked := true } (if s.pdEffort = 1 then 1 else 0)).hintSettle) ∧
      (m.aborted = false → m.kind = .demotion → s.pdCompEnable = false →
        exec (.dack p pg) s = .next (s1.demoteToPersist { m with dacked := true }).hintSettle) ∧
      (m.aborted = false → m.kind = .hintPromotion → (s.pageEnt pg).near = true →
        exec (.dack p pg) s = .next (s1.abortMove { m with dacked := true }).hintSettle) ∧
      (m.aborted = false → m.kind = .hintPromotion → (s.pageEnt pg).near = false →
        exec (.dack p pg) s = .next (s1.startCopy { m with dacked := true }).hintSettle)) ∧
    (s.net.contains (.dnote p pg) = true →
      let s1 := s.takeMsg (.dnote p pg)
      let s2 := s1.modMove pg fun x => { x with aborted := true };
      (m.kind = .demotion → m.dacked = true → m.aborted = false → m.stage ≠ .compress → exec (.dnote p pg) s = .next s2.hintSettle) ∧
      (m.kind = .demotion → m.dacked = true → m.aborted = false → m.stage = .compress →
        let x := s2.teSend (.flush m.ctag) .none
        exec (.dnote p pg) s = .next (x.1.modMove pg fun y => { y with stage := .flush, len := x.2 }).hintSettle) ∧
      (m.kind ≠ .demotion ∨ m.dacked = false → exec (.dnote p pg) s = .next s1.hintSettle)))

/-- DIRTY_MARK, DIRTY_MARK_RELEASE: a mark of a dirty page is acknowledged, and one of a page being cleaned, which stays dirty;
another is granted while D is below the budget and no mark waits, which makes the page dirty and D one more, and waits otherwise;
the oldest waiting mark is granted once D is below the budget (R353). CLEANING_START, CLEAN_COMMAND, CLEAN_ACK, CLEAN_COPY_DONE: the
next dirty page's entry loses DIRTY and its slice is told; the slice writes the page's dirty lines back; the acknowledged page is
copied; when its copy ends the page is counted clean, and DIRTY again when the copy failed (R354). An entry that is
read corrupt is rewritten first, and a frame whose entry no longer points back is freed (R332). -/
def Obligations.DirtyMarksAndCleaning : Prop :=
  (∀ (s : State) (p f : Nat) (pg : Page),
    (s.net.contains (.mark p pg) = true →
      let s1 := s.takeMsg (.mark p pg);
      ((s.pageEnt pg).dirty = true → exec (.dirtyMark p pg) s = .next (s1.send (.markAck p pg)).hintSettle) ∧
      ((s.pageEnt pg).dirty = false → (∃ c ∈ s.dir.cleaning, c.page = pg) →
        exec (.dirtyMark p pg) s = .next ((({ s1 with dir := { s1.dir with cleaning := s1.dir.cleaning.map fun (c : Cleaning) =>
          if c.page == pg then { c with remarked := true } else c } }).setEnt pg { s.pageEnt pg with dirty := true }).send
            (.markAck p pg)).hintSettle) ∧
      ((s.pageEnt pg).dirty = false → (∀ c ∈ s.dir.cleaning, c.page ≠ pg) → s.dir.d < s.budgetPages → s.dir.marks = [] →
        s.entFrame (s.pageEnt pg) = some f →
        exec (.dirtyMark p pg) s = .next (((s1.setEnt pg { s.pageEnt pg with dirty := true }).dirtyFrame f).send (.markAck p pg)).hintSettle) ∧
      ((s.pageEnt pg).dirty = false → (∀ c ∈ s.dir.cleaning, c.page ≠ pg) → s.budgetPages ≤ s.dir.d ∨ s.dir.marks ≠ [] →
        exec (.dirtyMark p pg) s = .next ({ s1 with dir := { s1.dir with marks := s1.dir.marks ++ [(p, pg)] } }).hintSettle)) ∧
    (∀ r, s.dir.marks = (p, pg) :: r →
      let s1 : State := { s with dir := { s.dir with marks := r } };
      ((s.pageEnt pg).dirty = true → exec .dirtyMarkRelease s = .next (s1.send (.markAck p pg)).hintSettle) ∧
      ((s.pageEnt pg).dirty = false → s.dir.d < s.budgetPages → s.entFrame (s.pageEnt pg) = some f →
        exec .dirtyMarkRelease s = .next (((s1.setEnt pg { s.pageEnt pg with dirty := true }).dirtyFrame f).send (.markAck p pg)).hintSettle) ∧
      ((s.pageEnt pg).dirty = false → s.budgetPages ≤ s.dir.d → exec .dirtyMarkRelease s = .next s.hintSettle))) ∧
  (∀ (s : State) (p f : Nat) (pg : Page) (c : Cleaning),
    (∀ (x : FrameEnt), s.cleaningWanted = true → s.movesOpen = true → s.dir.cleaning = [] → s.pdMoves ≠ 0 → s.dir.dirtyFrames = [f] →
      kget f s.dir.frames = some x → (s.frameOwned f x = true → (s.pageEnt x.page).kpin = false ∧ s.moveOf x.page = none) →
      let s0 : State := ({ s with dir := { s.dir with cleaningOn := true, cleanPos := f + 1 } }).readEnt x.page;
      (s0.frameOwned f x = false → exec .cleaningStart s = .next (s0.dropFrame f).hintSettle) ∧
      (s0.frameOwned f x = true → s0.homeSlice x.page = some p → exec .cleaningStart s = .next (((({ s0 with dir := { s0.dir with
          cleaning := s0.dir.cleaning ++ [(⟨x.page, f, false, 0, false⟩ : Cleaning)] } } : State).setEnt x.page
            { s0.pageEnt x.page with dirty := false }).send (.clean p x.page)).hintSettle))) ∧
    (∀ sl, s.slice p = some sl → sl.live = true → s.net.contains (.clean p pg) = true →
      let ls := sl.msc.lines.filter fun x => x.2.dirty && pageOf x.2.line == pg
      let vs := sl.msc.vb.filter fun v => !v.inWpq && pageOf v.cl.line == pg;
      (ls.length + vs.length ≤ sl.wpqRoom → ∀ y,
        let s1 := (s.takeMsg (.clean p pg)).modSlice p fun x => { x with pm := x.pm.map fun z =>
          if z.2.page == pg then (z.1, { z.2 with ent := { z.2.ent with dirty := false } }) else z }
        let s2 := vs.foldl (fun (s : State) v => s.victimToWpq p v.num) (ls.foldl (fun (s : State) x => s.writeBack p x.1 x.2) s1)
        s2.slice p = some y →
        exec (.cleanCommand p pg) s = .next ((((s2.modSlice p fun x => { x with quiesce := x.quiesce ++
          [(pg, (y.msc.wpq.filter fun w => pageOf w.line == pg).map fun w => w.wid, true)] }).quiesceKick p).noteOcc p).settle p)) ∧
      (sl.wpqRoom < ls.length + vs.length → exec (.cleanCommand p pg) s = .next s)) ∧
    (s.net.contains (.cleanAck p pg) = true → s.dir.cleaning = [c] → c.page = pg → c.copying = false →
      let r := (s.takeMsg (.cleanAck p pg)).teSend (.copyToPersist c.frame (s.persistNo pg)) .none
      exec (.cleanAck p pg) s = .next ({ r.1 with dir := { r.1.dir with cleaning := r.1.dir.cleaning.map fun (x : Cleaning) =>
        if x.page == pg then { x with copying := true, ctag := r.2 } else x } }).hintSettle) ∧
    (∀ (t n a : Nat) (st : BitVec 4), t < 256 → s.teCmd t = some ⟨t, .copyToPersist n a, .none⟩ → s.dir.cleaning = [c] →
      c.copying = true → c.ctag = t →
      let s1 := (s.teFree t).teStatus st
      let s2 : State := { s1 with dir := { s1.dir with cleaning := [] } };
      (st = 0 → c.remarked = false → exec (.cleanCopyDone t st) s = .next (({ s2 with dir := { s2.dir with
        dirtyFrames := s2.dir.dirtyFrames.filter (· != c.frame), d := s2.dir.d - 1 } }).kick.hintSettle)) ∧
      (st = 0 → c.remarked = true → exec (.cleanCopyDone t st) s = .next s2.kick.hintSettle) ∧
      (st ≠ 0 → s2.entBad c.page = false → exec (.cleanCopyDone t st) s =
        .next (((s2.modEnt c.page fun e => { e with dirty := true }).logEv 0x14 1 srcDirector 0 (c.page.setWidth 64)).kick.hintSettle)) ∧
      (st ≠ 0 → s2.entBad c.page = true → exec (.cleanCopyDone t st) s =
        .next (((s2.rewriteCorrupt c.page).logEv 0x14 1 srcDirector 0 (c.page.setWidth 64)).kick.hintSettle))))

/-- STAMP, HEAT_REPORT, HEAT_DECAY: a stamp gives the page's entry and the slice's copy the current game and is acknowledged; a heat
reported enters the frame table; decay halves the heat of every way once it is due (R147, R334, R348). PAGE_MAP_FILL: a fill
installs the entry and wakes the lookups that waited for it, unless an update has overtaken it, when the entry is read again; the
next entry that a castling has still to load is asked for (R423). PAGE_MAP_ENTRY_UPDATE: an update replaces a cached copy, which
KLINE of the page's lines follows, and marks a fill under way (R295, R335). -/
def Obligations.StampsHeatAndPageMapCopies : Prop :=
  (∀ (s : State) (p f : Nat) (pg : Page) (h : BitVec 8),
    (s.net.contains (.stamp p pg) = true →
      exec (.stamp p pg) s = .next (((((s.takeMsg (.stamp p pg)).setEnt pg { s.pageEnt pg with game := s.gl.game }).modSlice p fun sl =>
        { sl with pm := sl.pm.map fun x => if x.2.page = pg then (x.1, { x.2 with ent := { x.2.ent with game := s.gl.game } }) else x }).send
          (.stampAck p pg)).hintSettle)) ∧
    (s.net.contains (.heat p pg h) = true → s.entFrame (s.pageEnt pg) = some f →
      exec (.heatReport p pg h) s = .next (({ s.takeMsg (.heat p pg h) with
        dir := { s.dir with frames := kset f ⟨pg, h⟩ s.dir.frames } }).hintSettle)) ∧
    (s.dctl.decayDue = false → exec .heatDecay s = .next s) ∧
    (s.dctl.decayDue = true → exec .heatDecay s = .next { s with dctl := { s.dctl with decayDue := false }, slices := s.slices.map fun sl =>
      { sl with pm := sl.pm.map fun x => (x.1, { x.2 with heat := x.2.heat >>> 1 }) } })) ∧
  (∀ (s : State) (p : Nat) (pg : Page) (sl : Slice), s.slice p = some sl →
    (s.chunkIn pg = true → s.net.contains (.pmRead p pg) = true → sl.live = true → ∀ again,
      (sl.pmOut.find? fun x => x.1 == pg) = some (pg, again) →
      (again = true → ∀ ue, exec (.pageMapFill p pg ue) s = .next (((s.takeMsg (.pmRead p pg)).modSlice p fun x =>
        { x with pmOut := x.pmOut.map fun y => if y.1 == pg then (pg, false) else y }).send (.pmRead p pg))) ∧
      (∀ w, again = false → s.entBad pg = false → sl.pmWay pg = some w →
        exec (.pageMapFill p pg false) s = .next ((((((s.takeMsg (.pmRead p pg)).modSlice p fun x =>
          { x with pmOut := x.pmOut.filter fun y => y.1 != pg }).kpLoaded p pg).pmInstall p pg (s.pageEnt pg) w).pmWake p pg).settle p))) ∧
    (s.net.contains (.entry pg) = true → s.homeSlice pg = some p →
      exec (.pageMapEntryUpdate pg) s = .next ((s.takeMsg (.entry pg)).modSlice p fun x =>
        Slice.kFollow { x with
          pm := x.pm.map fun y => if y.2.page == pg then (y.1, { y.2 with ent := s.pageEnt pg }) else y
          pmOut := x.pmOut.map fun y => if y.1 == pg then (pg, true) else y } pg (s.pageEnt pg).kpin)))

/-- DEMOTION_CLOCK_STEP, SLOT_EVICTION_CLOCK_STEP: with enough free space the clocks are off; below the low mark the demotion clock
passes a warm page, halving its heat, and starts the demotion of a cold one; the eviction clock starts the eviction of a clean
page's slot (R349, R350). Both read the page's entry first, rewrite a corrupt one, and free a frame or slot that it does not point
back to (R332). GAME_SWEEPER_STEP: the sweeper visits once a move as many entries as its rate says, four times as many when it is
fast. PAGE_MAP_CHUNK_LOAD: a chunk whose turn it is is loaded once, its pinned pages are promoted, and the restart goes on (R149,
R150, R337). -/
def Obligations.ClocksSweeperAndChunks : Prop :=
  (∀ (s : State) (k f : Nat) (x : FrameEnt) (rest : List (Nat × FrameEnt)),
    (4096 * s.pdFreeLow ≤ s.freeFrames → 4096 * s.pdFreeHigh ≤ s.freeFrames →
      exec .demotionClockStep s = .next ({ s with dir := { s.dir with demOn := false } }).hintSettle) ∧
    (k < 3 → 16777216 * s.pdCFreeLow ≤ s.freeSlots k * poolSlot k → 16777216 * s.pdCFreeHigh ≤ s.freeSlots k * poolSlot k →
      exec (.slotEvictionClockStep k) s = .next ({ s with dir := { s.dir with slotOn := s.dir.slotOn.set k false } }).hintSettle) ∧
    (∀ (n : Nat) (y : FrameEnt) (l : List (Nat × FrameEnt)), k < 3 → s.freeSlots k * poolSlot k < 16777216 * s.pdCFreeLow → s.movesOpen = true →
      s.moveRoom = true → rotateFrom (s.usedSlots k) (s.dir.slotClocks.getD k 0) = (n, y) :: l →
      (∀ z ∈ (n, y) :: l, s.slotOwned z.1 z.2 = true) → s.moveOf y.page = none → (s.homeSlice y.page).isSome = true →
      (s.pageEnt y.page).dirty = false →
      let s0 : State := ({ s with dir := { s.dir with slotOn := s.dir.slotOn.set k true,
                                                      slotClocks := s.dir.slotClocks.set k (n + 1) } }).readEnt y.page
      exec (.slotEvictionClockStep k) s = .next (if s0.slotOwned n y then s0.startEviction n y.page else s0.dropSlot n).hintSettle) ∧
    (s.freeFrames < 4096 * s.pdFreeLow → s.movesOpen = true → rotateFrom s.dir.frames s.dir.demClock = (f, x) :: rest →
      let s1 : State := ({ s with dir := { s.dir with demOn := true, demClock := f + 1 } }).readEnt x.page;
      (s1.frameOwned f x = false → exec .demotionClockStep s = .next (s1.dropFrame f).hintSettle) ∧
      (s1.frameOwned f x = true → s1.clockSkips x = true → exec .demotionClockStep s = .next s1.hintSettle) ∧
      (s1.frameOwned f x = true → s1.clockSkips x = false → s.pdCold < x.heat.toNat →
        exec .demotionClockStep s = .next ({ s1 with dir := { s1.dir with
          frames := kset f ⟨x.page, x.heat >>> 1⟩ s1.dir.frames } }).hintSettle) ∧
      (∀ h, s1.frameOwned f x = true → s1.clockSkips x = false → x.heat.toNat ≤ s.pdCold → s.moveRoom = true →
        s1.homeSlice x.page = some h → exec .demotionClockStep s =
          .next ((s1.newMove x.page .demotion .quiesce [h] 0 false).send (.migStart h x.page .demotion)).hintSettle))) ∧
  (∀ (s : State) (n : Nat) (pins : List (Page × BitVec 3)),
    (s.pagesEnd = 0 ∨ s.dctl.sweepDue = false → exec .gameSweeperStep s = .next s.hintSettle) ∧
    (s.pagesEnd ≠ 0 → s.dctl.sweepDue = true → exec .gameSweeperStep s = .next ((List.replicate (if s.dctl.sweepFast then 4 * s.pdSweepRate
      else s.pdSweepRate) ()).foldl (fun (s : State) _ => s.sweepOne) { s with dctl := { s.dctl with sweepDue := false } }).hintSettle) ∧
    (s.gl.phase = 4 ∨ s.gl.phase = 5 → n < s.chunkCount → kget n s.dir.loaded = none → s.chunkTurn n = true →
      exec (.pageMapChunkLoad n pins) s = .next (((({ s with dir := { s.dir with
        loaded := kset n (s.gl.game - 1) s.dir.loaded
        classPins := (pins.filter fun (x : Page × BitVec 3) => chunkOf x.1 == n && x.2 != 0).foldl
          (fun (l : List (Nat × BitVec 3)) (x : Page × BitVec 3) => kset x.1.toNat x.2 l) (s.dir.classPins.filter fun x => x.1 / 131072 != n)
        pages := s.dir.pages.filter fun x => x.1 / 131072 != n
        entErrs := s.dir.entErrs.filter fun p => chunkOf p != n } }).promotePinned
          (pins.filter fun (x : Page × BitVec 3) => chunkOf x.1 == n)).reconcile).hintSettle)) ∧
    ((kget n s.dir.loaded).isSome = true ∨ s.chunkTurn n = false → exec (.pageMapChunkLoad n pins) s = .next s.hintSettle))

/-- The response to a tier-engine command frees its CTAG and goes on with the move it was for: a page copied becomes near, a stored
slot or a copy to the persistent tier gives the page its new tier, and a compressed page's slot is written, unless the move has been
abandoned; a response to a flush or to an offered victim ends it; a response that no command of its kind awaits changes nothing
(R304, R338, R340, R342, R345, R557). -/
def Obligations.EngineResponsesFinishTheirMove : Prop :=
  ∀ (s : State) (t : Nat) (st : BitVec 4) (m : Move) (len : Nat) (crc : W32), t < 256 →
    let s1 := (s.teFree t).teStatus st
    let e := s1.pageEnt m.page;
    (∀ a b c d g cs, s.teCmd t = some ⟨t, .copyToFrame a b c d g, .none⟩ ∨ s.teCmd t = some ⟨t, .decompToFrame a cs b c d g, .none⟩ →
      s.moveByTag t [.copy] = some m →
      (m.aborted = true → exec (.copyDone t st) s = .next (s1.abortMove m).hintSettle) ∧
      (m.aborted = false → st = 0 → m.poisonAll = false → s1.entSlot e = none →
        let s2 := s1.setEnt m.page { e with tier := 1, frame := s1.frameField m.frame, game := s1.gl.game, mig := false, cslot := 0 }
        let s3 := if e.dirty then s2.dirtyFrame m.frame else s2
        exec (.copyDone t st) s = .next ({ s3 with dir := { s3.dir with corrupt := s3.dir.corrupt.filter (· != m.page) } }.endMove
          m).hintSettle)) ∧
    (∀ a b c, s.teCmd t = some ⟨t, .compress a b c, .none⟩ → s.moveByTag t [.compress] = some m →
      (m.aborted = true → exec (.compressDone t st len crc) s = .next ((s1.teSend (.discard m.ctag) .none).1.abortMove m).hintSettle) ∧
      (∀ k n s2, m.aborted = false → st = 0 → slotFor len = some k →
        ({ s1 with dir := { s1.dir with compSizes := (s1.dir.compSizes.filter fun (x : Page × Nat) => x.1 != m.page) ++ [(m.page, len + 4)] } }).takeSlot k
          m.page = some (n, s2) →
        let x := s2.teSend (.storeSlot m.ctag n (BitVec.ofNat 2 (k + 1))) .none
        exec (.compressDone t st len crc) s = .next (x.1.modMove m.page fun y =>
          { y with stage := .store, ctag := x.2, slot := some (BitVec.ofNat 2 (k + 1), n) }).hintSettle)) ∧
    (∀ a b c cs n f, s.teCmd t = some ⟨t, .storeSlot a b c, .none⟩ → s.moveByTag t [.store] = some m → m.slot = some (cs, n) →
      s1.entFrame e = some f → m.aborted = false → st = 0 →
      let s2 := (s1.setEnt m.page { e with tier := 2, frame := s1.slotField n, cslot := cs, mig := false }).dropFrame f
      exec (.stagingStoreDone t st) s = .next ((if e.dirty then s2.dirtySlot n else s2).endMove m).hintSettle) ∧
    (∀ a b f, s.teCmd t = some ⟨t, .copyToPersist a b, .none⟩ → s.moveByTag t [.persist] = some m → s1.entFrame e = some f →
      m.aborted = false → st = 0 →
      exec (.demotionToPersistentDone t st) s =
        .next (((s1.setEnt m.page { e with tier := 0, frame := 0, dirty := false, mig := false }).dropFrame f).endMove m).hintSettle) ∧
    (∀ a b c n, s.teCmd t = some ⟨t, .decompToPersist a b c, .none⟩ → s.moveByTag t [.persist] = some m → s1.entSlot e = some n →
      m.aborted = false → st = 0 →
      exec (.evictionFromCompressedDone t st) s =
        .next (((s1.setEnt m.page { e with tier := 0, frame := 0, cslot := 0, dirty := false, mig := false }).dropSlot n).endMove m).hintSettle) ∧
    (∀ a, s.teCmd t = some ⟨t, .flush a, .none⟩ → (∀ x ∈ s.dir.moves, x.stage ≠ .flush ∨ x.len ≠ t) →
      exec (.flushDone t st) s = .next s1.hintSettle) ∧
    (∀ a, s.teCmd t = some ⟨t, .flush a, .none⟩ → (s.dir.moves.find? fun x => x.stage == .flush && x.len == t) = some m →
      let s2 := (s.teSend (.discard m.ctag) .none).1.abortMove { m with slot := none }
      (s2.teCmd t).isSome = true → exec (.flushDone t st) s = .next ((s2.teFree t).teStatus st).hintSettle) ∧
    (∀ op, s.teCmd t = some ⟨t, op, .none⟩ → (∃ a b, op = .offerVictim a b) → exec (.victimOfferResponse t st) s = .next s1) ∧
    (s.teCmd t = none → exec (.copyDone t st) s = .next s.hintSettle ∧ exec (.victimOfferResponse t st) s = .next s)

/-- PERSISTENT_WRITE_DONE: a write of a root copy is counted off; with the last of them the restart reads the manifest, or the save
ends; a write that failed is sent again (log 33). PERSISTENT_READ_DONE: a valid header of a root copy is kept and its pins are read,
another is no copy; pins read are kept. SAVE_PAGE_DONE: the pages saved without a gap count as the save's progress; with more to save
the next are sent, with every page saved the save goes on, and a page that could not be saved is logged and poisoned (R384, R394,
R396). -/
def Obligations.PersistentAnswersDriveRestartAndSave : Prop :=
  ∀ (s : State) (t a : Nat) (st : BitVec 4) (ls : List Line) (ps : List PLine), t < 256 →
    let s1 := (s.teFree t).teStatus st;
    (s.teCmd t = some ⟨t, .persistWrite a ls, .rootWrite⟩ → st = 0 →
      let s2 : State := { s1 with root := { s1.root with writes := s1.root.writes - 1 } };
      (s2.root.writes ≠ 0 → exec (.persistentWriteDone t st) s = .next s2.hintSettle) ∧
      (s2.root.writes = 0 → s2.root.stage = .writing → s2.root.save = .idle →
        exec (.persistentWriteDone t st) s = .next s2.readManifest.reconcile.hintSettle) ∧
      (s2.root.writes = 0 → s2.root.save = .last → exec (.persistentWriteDone t st) s = .next s2.saveEnd.hintSettle) ∧
      (s2.root.writes = 0 → s2.root.save = .manifest → exec (.persistentWriteDone t st) s =
        .next (({ s2 with root := { s2.root with save := .inProgress } }.writeRoot 1 s2.root.manifest.length 0).hintSettle))) ∧
    (∀ use, s.teCmd t = some ⟨t, .persistWrite a ls, use⟩ → st ≠ 0 →
      exec (.persistentWriteDone t st) s = .next (s1.teSend (.persistWrite a ls) use).1.hintSettle) ∧
    (∀ n second, s.teCmd t = some ⟨t, .persistRead a n, .rootHdr second⟩ →
      let b := linesBytes (ps.map PLine.data);
      (intact st ps = true → b.length = 4096 → headerValid b = true → exec (.persistentReadDone t st ps) s =
        .next ({ s1 with root := { s1.root with hdr := some (RootCopy.parse b), pinLines := [] } }.readPins second (RootCopy.parse b))) ∧
      (intact st ps = false ∨ b.length ≠ 4096 ∨ headerValid b = false →
        exec (.persistentReadDone t st ps) s = .next (s1.copyRead second none))) ∧
    (∀ n second c, s.teCmd t = some ⟨t, .persistRead a n, .rootPins second⟩ → s1.root.hdr = some c →
      (intact st ps = true → ps ≠ [] → exec (.persistentReadDone t st ps) s =
        .next ({ s1 with root := { s1.root with pinLines := s1.root.pinLines ++ ps.map PLine.data } }.readPins second c)) ∧
      (intact st ps = false ∨ ps = [] → exec (.persistentReadDone t st ps) s = .next (s1.copyRead second none))) ∧
    (∀ x y z i pg, s.teCmd t = some ⟨t, .savePage x y z false, .save i⟩ → s1.root.manifest[i]? = some pg →
      let s2 := if st = 0 then s1 else (s1.poisonPage pg 9).logEv 0x14 1 srcDirector 0 (pg.setWidth 64)
      let k := leading (s2.root.acked.length + 1) (i :: s2.root.acked) s2.root.progress
      let s3 : State := { s2 with root := { s2.root with acked := (i :: s2.root.acked).filter fun n => k ≤ n, progress := k } };
      (k = s3.root.manifest.length → exec (.savePageDone t st) s = .next (s3.saveNext s1.eg.causes.shutdown)) ∧
      (k ≠ s3.root.manifest.length → s2.root.progress / 1048576 = k / 1048576 →
        exec (.savePageDone t st) s = .next (s3.sendSaves 256)))

/-- DOORBELL, RING_POLL, HINT_SLOT, PIN_COMPLETE: a ring that is enabled is noted, once; a poll that is due notes every enabled
ring; a slot whose OWN is 0 ends the ring's turn, another begins its hint; a pin completes when its writes have ended (R357, R361,
R363). LIST_READ_DONE, MASTER_READ_ERROR: entries read are kept until they are acted on; a read that ends without data stops the
list after its current page, or ends the fetch whose read it was (R499, R500). -/
def Obligations.HintRingsAndListReads : Prop :=
  (∀ (s : State) (r : Nat),
    (s.net.contains (.doorbell r) = true → r < s.pdRings →
      exec (.doorbell r) s = .next ({ s.takeMsg (.doorbell r) with dctl := { s.dctl with
        bells := if s.dctl.bells.contains r then s.dctl.bells else s.dctl.bells ++ [r] } }).hintSettle) ∧
    (s.net.contains (.doorbell r) = true → s.pdRings ≤ r → exec (.doorbell r) s = .next (s.takeMsg (.doorbell r)).hintSettle) ∧
    (s.dctl.pollDue = false → exec .ringPoll s = .next s.hintSettle) ∧
    (s.dctl.pollDue = true → exec .ringPoll s = .next ({ s with dctl := { s.dctl with
      pollDue := false, bells := s.dctl.bells ++ (List.range s.pdRings).filter fun x => !s.dctl.bells.contains x } }).hintSettle) ∧
    (∀ (c : HintCtx) (l : Line), s.dctl.ctxs = [c] → c.ring = r → c.stage = .readWait → s.dctl.slotDone = [(ringTag r 0, some l)] →
      (slotOwn l = false → exec (.hintSlot r) s = .next ({ s with dctl := { s.dctl with ctxs := [], slotDone := [] } }).hintSettle) ∧
      (slotOwn l = true → slotRefused l (decide (r < s.pdPrivRings)) = none →
        exec (.hintSlot r) s = .next ({ s with dctl := { s.dctl with slotDone := [], ctxs :=
          [{ c with line := l, idx := 0, entry := 0, stage := .page }] } }).hintSettle)) ∧
    (∀ (pg : Page), s.pinWriting pg = false → s.stampsOut pg = false → s.dctl.ctxs = [] → s.dctl.list.busy = true → s.dctl.list.op = 1 →
      s.dctl.list.cur = some pg → s.dctl.list.stage = .pinWrite →
      exec (.pinComplete pg) s = .next ({ s with dctl := { s.dctl with list := { s.dctl.list with stage := .pinned } } }).hintSettle)) ∧
  (∀ (s : State) (t first : Nat) (d : Line) (why : MasterErr), s.dctl.list.reads = [(t, first, true)] → s.dctl.list.busy = true →
    exec (.listReadDone t [d]) s = .next (((s.modList fun l => { l with reads := [] }).modList fun l =>
      { l with entries := (List.range 8).foldl (fun es i =>
          if first + i < l.count then kset (first + i) (d.extractLsb' (64 * i) 64) es else es) l.entries }).hintSettle) ∧
    (s.dctl.list.stopping = none → exec (.masterReadError t why) s = .next ((s.modList fun l =>
      { l with reads := [], stopping := some 0x0B }).hintSettle)) ∧
    (∀ f u, u ≠ t → s.ld.fetch = some f → f.tags.contains u = true → exec (.masterReadError u why) s = .next (s.fetchEnd 5).hintSettle))

/-- EG_POR_RELEASE, BLK_POR_RELEASE: the first leaves the Endgame unit as after its reset and clears what was written to its
registers, and touches nothing else; the second does so with everything outside the Endgame unit, starts the self-tests, and
keeps the Endgame unit, near memory and the links' levels (R44, R58, R488; what it keeps is the model's choice, log 46).
SELF_TEST_DONE: a slice passes with no uncorrectable read-back, at most 8 repaired rows in an array, no mismatch of its sequencers and
a good loopback; its first result is kept, and the last slice's result ends the phase of self-tests (R58, R62); a second result, or
one of a slice fused off, changes nothing. -/
def Obligations.PowerOnResetsAndSelfTests : Prop :=
  (∀ s : State,
    (∃ t, exec .egPorRelease s = .next t ∧ t = { s with
        eg := Endgame.blank
        regs := t.regs
        pins := { s.pins with egPor := true }
        gl := { s.gl with commit := t.gl.commit } } ∧
      ∀ o, kget o t.regs.base = (if inEndgame o then none else kget o s.regs.base) ∧
        kget o t.regs.act = (if inEndgame o then none else kget o s.regs.act) ∧
        kget o t.gl.commit = (if inEndgame o then none else kget o s.gl.commit)) ∧
    (∃ t, exec .blkPorRelease s = .next t ∧ t.gl.phase = 1 ∧ t.gl.serving = false ∧ t.gl.game = State.reset.gl.game ∧
      t.gl.move = 0 ∧ t.ld.state = .sfdp ∧ t.pins.blkPor = true ∧
      (∀ o, kget o t.regs.base = (if inEndgame o then kget o s.regs.base else none)) ∧
      (∀ p sl, t.slice p = some sl → sl = Slice.blank 16 8) ∧ (∀ h x, t.hid h = some x → x = Hid.blank) ∧
      (∀ p a, t.agentPort p = some a → a = AgentPort.blank 17) ∧
      (∀ p h, t.hostPort p = some h → ∃ h0, s.hostPort p = some h0 ∧
        h = { HostPort.blank with linkUp := h0.linkUp, inReset := h0.inReset }) ∧
      t.dir = State.reset.dir ∧ t.root = State.reset.root ∧ t.cast = State.reset.cast ∧ t.pwr = State.reset.pwr ∧ t.net = [] ∧
      t.ring = [] ∧ t.ringSnoops = [] ∧ t.fb = State.reset.fb ∧ t.ev = State.reset.ev ∧
      t.eg = s.eg ∧ t.spill = s.spill ∧ t.variant = s.variant ∧ t.pending = s.pending)) ∧
  (∀ (s : State) (p : Nat) (found : SelfTest) (sl : Slice), s.slice p = some sl →
    (s.pins.blkPor = true → p < s.variant.phys → bitAt s.pins.fuseOff p = false → sl.ident.selfTest = none → s.gl.phase = 1 →
      let s1 := s.modSlice p fun x => { x with ident := { x.ident with selfTest := some (!found.badRead && decide (found.repaired ≤ 8) && !found.mismatch && found.loopback) } }
      ((∃ q x, q ≠ p ∧ q < s.variant.phys ∧ bitAt s.pins.fuseOff q = false ∧ s.slice q = some x ∧ x.ident.selfTest = none) →
        exec (.selfTestDone p found) s = .next s1) ∧
      ((∀ q x, q ≠ p → q < s.variant.phys → bitAt s.pins.fuseOff q = false → s.slice q = some x → x.ident.selfTest ≠ none) →
        exec (.selfTestDone p found) s = .next { s1 with gl := { s1.gl with phase := 3 } })) ∧
    (sl.ident.selfTest ≠ none ∨ bitAt s.pins.fuseOff p = true → exec (.selfTestDone p found) s = .next s))

/-- SLOT_HEADERS_READ, IMAGE_SLOT_LOADED, ROOT_OF_TRUST_TIMEOUT: of two usable slots the one with the later SEQ is tried first,
slot A when equal; with none, or without SFDP tables of at least 2 MiB, the block waits without an image (R466); a slot that passes its checks is accepted, or waits for the root
of trust; one that fails is logged and the other is next; a root of trust that does not answer rejects (R475 to R478, R481). -/
def Obligations.TheLoaderTriesTheLaterSlotFirst : Prop :=
  ∀ (s : State) (a b img : List Byte) (x : Sfdp),
    (s.ld.state = .sfdp → x.ok = true → headerUsable s.variant a = true → headerUsable s.variant b = true →
      ∃ t, exec (.slotHeadersRead a b (some x)) s = .next t ∧ t = { s with ld := t.ld } ∧ t.ld.state = .loading ∧ t.ld.sfdp = some x ∧
        t.ld.toTry = (if serialLater (imgSeq b) (imgSeq a) then [(true, imgSeq b), (false, imgSeq a)]
          else [(false, imgSeq a), (true, imgSeq b)])) ∧
    (s.ld.state = .sfdp → headerUsable s.variant a = false → headerUsable s.variant b = false →
      ∃ t, exec (.slotHeadersRead a b (some x)) s = .next t ∧ t.ld.state = .noImage ∧ t.gl.phase = 6 ∧ t.gl.setupFail = true) ∧
    (∀ y, s.ld.state = .sfdp → y = none ∨ (y = some x ∧ x.ok = false) →
      ∃ t, exec (.slotHeadersRead a b y) s = .next t ∧ t.ld.state = .noImage ∧ t.ld.sfdp = none ∧ t.gl.phase = 6 ∧ t.gl.setupFail = true) ∧
    (∀ (sb : Bool) (q : W32) (r : List (Bool × W32)), s.ld.state = .loading → s.ld.accepted = false → s.ld.toTry = (sb, q) :: r →
      s.gl.phase ≠ 6 →
      let img1 := img.take (imgLen img)
      ∃ t, exec (.imageSlotLoaded img) s = .next t ∧ match s.checkSlot img1 with
        | none => t = { s with ld := t.ld } ∧ t.ld.image = img1 ∧ t.ld.toTry = s.ld.toTry ∧ t.ld.accepted = !s.pins.rotEn ∧
            t.ld.state = if s.pins.rotEn then .rot else .loading
        | some sec => r ≠ [] → t = { s with ld := t.ld, ev := (s.slotRejected sb sec).ev } ∧ t.ld.toTry = r ∧ t.ld.second = true ∧
            t.ld.accepted = false) ∧
    (∀ (sb : Bool) (q : W32) (r : List (Bool × W32)), s.ld.state = .rot → s.ld.reload = none → s.ld.toTry = (sb, q) :: r → r ≠ [] →
      ∃ t, exec .rootOfTrustTimeout s = .next t ∧ t = { s with ld := t.ld, ev := (s.slotRejected sb 0xFE).ev } ∧
        t.ld.state = .loading ∧ t.ld.toTry = r ∧ t.ld.accepted = false) ∧
    (s.ld.state ≠ .rot → exec .rootOfTrustTimeout s = .next s)

/-- R59: with enough eligible slices, the walk gives the first N of them along the chain the logical numbers 0 to N - 1 in chain
order, makes the next one the reserve, and gives the others no number. -/
def Obligations.TheWalkNumbersTheEligibleSlices : Prop :=
  ∀ (s : State) (p : Nat) (sl : Slice), s.slice p = some sl → p < s.variant.phys → s.cast.homes.length = 16 →
    let el (q : Nat) : Bool := (s.eligible q s.cfg.excl).isNone
    let k := ((List.range p).filter el).length
    s.variant.active ≤ ((List.range s.variant.phys).filter el).length →
    ∃ x, s.walk.slice p = some x ∧
      (el p = true → k < s.variant.active → x.ident.role = .active ∧ x.ident.logA = k ∧
        s.walk.cast.homes[k]? = some ⟨true, false, false, p⟩) ∧
      (el p = true → k = s.variant.active → x.ident.role = .reserve) ∧
      (el p = false → x.ident.role = .none)

/-- SETUP_WALK, RESTART_COMPLETE: the walk runs once, when the self-tests are done and a slot is accepted; with fewer eligible
slices than one below the variant's count it ends in a setup failure with health Failed; the end of the restart opens the block
for service, with the declared HIDs Unbound or Bound as their links are (R59, R61, R62, R177, R402). -/
def Obligations.TheWalkAndTheRestartOpenTheBlock : Prop :=
  ∀ s : State,
    (s.testsDone = false ∨ s.ld.accepted = false → exec .setupWalk s = .next s) ∧
    (s.testsDone = true → s.ld.accepted = true → s.ld.state = .loading →
      (∀ p < s.variant.phys, (s.eligible p (mapOf s.cfg s.ld.image).excl).isSome = true) → s.eg.pstate = .start →
      ∃ t, exec .setupWalk s = .next t ∧ t.gl.setupFail = true ∧ t.gl.phase = 6 ∧ t.gl.health = 3 ∧ t.ld.accepted = false ∧
        (t.hids = s.hids.mapIdx fun i _ => hidAt (secBytes s.ld.image 2) i) ∧
        ∀ p sl, p < s.variant.phys → t.slice p = some sl → sl.ident.role = .none) ∧
    (s.testsDone = true → s.ld.accepted = true → s.ld.state = .loading →
      s.variant.active ≤ ((List.range s.variant.phys).filter fun p => (s.eligible p (mapOf s.cfg s.ld.image).excl).isNone).length →
      ∃ t, exec .setupWalk s = .next t ∧ t.gl.setupFail = false ∧ t.gl.phase = 4 ∧ t.ld.state = .loaded ∧ t.ld.image = s.ld.image ∧
        t.root.stage = .reading) ∧
    (s.gl.phase ≠ 4 ∨ s.root.stage ≠ .ready → exec .restartComplete s = .next s) ∧
    (s.eg.pstate = .start → s.root.stage = .ready → s.gl.phase = 4 →
      ∃ t, exec .restartComplete s = .next t ∧ t.gl.phase = 5 ∧ t.gl.serving = true ∧
        (s.pwr.p3 = false → t.eg = { s.eg with pstate := .normal, frozen := false, causes := Causes.none }))

/-- WARM_RELOAD, FETCH_STEP_DONE, NOR_ERASE_PROGRAM_TIMEOUT: a reload runs only after warm_ack with a reload armed, and without
a usable slot the image in force stays; a fetch goes from step to step, and a NOR that does not answer ends it with result 6
(R483, R485, R486). -/
def Obligations.ReloadsAndFetches : Prop :=
  ∀ (s : State) (a b : List Byte),
    (s.pwr.warmAck = false ∨ s.ld.armed = false → exec (.warmReload a b) s = .next s) ∧
    (s.pwr.warm = true → s.pwr.warmAck = true → s.ld.armed = true → s.ld.busy = false → s.ld.sfdp.isSome = true →
      headerUsable s.variant a = false → headerUsable s.variant b = false →
      ∃ t, exec (.warmReload a b) s = .next t ∧ t = { s with ld := t.ld, ev := t.ev } ∧ t.ld.state = .loaded ∧ t.ld.image = s.ld.image ∧
        t.ld.armed = false ∧ t.ld.busy = false) ∧
    (s.pwr.warm = true → s.pwr.warmAck = true → s.ld.armed = true → s.ld.busy = false → s.ld.sfdp.isSome = true → s.pins.rotEn = false →
      headerUsable s.variant a = true → headerUsable s.variant b = false →
      ∃ t, exec (.warmReload a b) s = .next t ∧ t.ld.state = .loaded ∧ t.ld.armed = false ∧ t.ld.busy = false ∧
        match s.checkSlot (a.take (imgLen a)) with
        | none => t.ld.slotB = false ∧ t.ld.image = a.take (imgLen a) ∧ t.cfg.table = tableOf t.ld.image ∧
            t.hids = s.hids.mapIdx fun i _ => hidAt (secBytes t.ld.image 2) i
        | some _ => t.ld.image = s.ld.image ∧ t.cfg = s.cfg ∧ t.hids = s.hids ∧ t.regs = s.regs) ∧
    (∀ f, s.ld.fetch = some f →
      (f.step = .eraseFirst → s.norErase < s.fetchLen → exec (.fetchStepDone .erased) s =
        .next { s with ld := { s.ld with fetch := some { f with
          step := .eraseRest ((s.fetchLen + s.norErase - 1) / s.norErase - 1), tags := [] } } }) ∧
      (∀ n bs, f.step = .page n → exec (.fetchStepDone (.read bs)) s =
        .next { s with ld := { s.ld with fetch := some { f with step := .program n, tags := [] } } }) ∧
      (∀ bs, f.step = .compare → exec (.fetchStepDone (.readBack bs)) s = .next { s with
        ld := { s.ld with fetch := none, result := if bs.take 256 == f.page0 then 0 else 7, done := true } }) ∧
      (∀ n, f.step = .eraseFirst ∨ f.step = .eraseRest n ∨ f.step = .program n ∨ f.step = .programHeader →
        exec .norEraseProgramTimeout s = .next { s with ld := { s.ld with fetch := none, result := 6, done := true } }) ∧
      (f.step = .verify → exec .norEraseProgramTimeout s = .next s)) ∧
    (s.ld.fetch = none → exec (.fetchStepDone .erased) s = .next s ∧ exec .norEraseProgramTimeout s = .next s)

/-- WARM_REQ, DRAIN_COMPLETE, FAB_RST: the request starts the drain of the slices that serve; the drain's end is acknowledged,
or begins a save; the reset after the acknowledgement clears what the warm reset clears, raises the game number by one and goes
back to the restart; outside the handshake it changes nothing (R44, R45, R146, R382; the last clause is the model's choice, log
45). -/
def Obligations.TheWarmResetDrainsAcknowledgesAndClears : Prop :=
  ∀ s : State,
    (s.pwr.warm = true → exec .warmReq s = .next s) ∧
    (s.pwr.warm = false → s.eg.pstate = .normal → s.eg.drainReq = false → s.pwr.phase = .p0 → exec .warmReq s = .next { s with
      pwr := { s.pwr with warm := true, warmAck := false }
      slices := s.slices.map fun sl => if sl.ident.role.serves && !sl.ident.isolated then
        { sl with ident := { sl.ident with draining := true, drainSet := 0, drainPass := false } } else sl }) ∧
    (s.drained = true → s.pwr.warm = true → s.pwr.phase = .p0 → s.eg.pstate = .normal → exec .drainComplete s = .next { s with
      pwr := { s.pwr with warmAck := true }
      slices := s.slices.map fun sl => { sl with ident := { sl.ident with draining := false } } }) ∧
    (s.drained = true → s.eg.pstate = .drain → exec .drainComplete s = .next (({ s with
      eg := { s.eg with pstate := .save }
      slices := s.slices.map fun (sl : Slice) => { sl with ident := { sl.ident with frozen := true, draining := false } } }).beginSave
        s.eg.causes.shutdown)) ∧
    (s.drained = false → exec .drainComplete s = .next s) ∧
    (s.pwr.warm = false ∨ s.pwr.warmAck = false → exec .fabRst s = .next s) ∧
    (s.pwr.warm = true → s.pwr.warmAck = true → s.ld.armed = false → s.ld.busy = false →
      ∃ t, exec .fabRst s = .next t ∧ t.pwr.warm = false ∧ t.pwr.warmAck = false ∧ t.gl.game = s.gl.game + 1 ∧ t.gl.serving = false ∧
        t.gl.phase = 4 ∧ t.ring = [] ∧ t.ringSnoops = [] ∧
        ∀ p sl, t.slice p = some sl → sl.trk = [] ∧ sl.hold = [] ∧ sl.dir.sf = [] ∧ sl.dir.monitors = [] ∧ sl.msc.lines = [] ∧
          sl.msc.vb = [] ∧ sl.msc.wpq = [] ∧ ∀ i ∈ sl.arb.inputs, i.kcredit = none ∧ ∀ q ∈ i.waiting, q.hid.isSome = true)

/-- ENDGAME_INPUT_CHANGE, ADC_SAMPLE, ALLOWANCE_COMPUTE, DEBOUNCE_COMPLETE, RIDE_TIME_END, RIDE_RECOVER: a feed lost in NORMAL goes
to RIDE; an eFuse fault drains; the channel whose turn it is takes the trimmed, filtered code; the allowance is computed in NORMAL
alone; a debounced feed starts the block; the ride ends in DRAIN, or in NORMAL with the feed back (R367, R370, R377, R387). -/
def Obligations.TheEndgameUnitFollowsTheFeed : Prop :=
  ∀ (s : State) (i : EgInputs) (c : Nat) (k : BitVec 12),
    (s.pins.egPor = false → exec (.endgameInputChange i) s = .next s ∧ exec (.adcSample c k) s = .next s) ∧
    (s.pins.egPor = true → s.eg.pstate = .normal → i.sel ≠ 3 → i.efuseFlt = false → feedPins i = false → s.eg.calLoaded = false →
      exec (.endgameInputChange i) s = .next { s with eg := { s.eg with
        inp := i, good := false, pstate := .ride, frozen := true, ints := setBit s.eg.ints 3 true } }) ∧
    (s.pins.egPor = true → s.eg.pstate = .normal → i.sel ≠ 3 → i.efuseFlt = true →
      exec (.endgameInputChange i) s = .next ({ s with eg := { s.eg with inp := i, good := false } }.enterDrain 0)) ∧
    (s.pins.egPor = true → 8 ≤ c ∨ c ≠ s.eg.adcNext → exec (.adcSample c k) s = .next s) ∧
    (s.pins.egPor = true → c = s.eg.adcNext → c = 0 ∨ c = 1 ∨ c = 4 ∨ c = 5 → exec (.adcSample c k) s = .next { s with eg := { s.eg with
      adcNext := (c + 1) % 8, chans := s.eg.chans.modify c fun x => x.take (s.egFilt c) (trimCode ((s.pins.trim[c]?).getD 0) k.toNat) } }) ∧
    (s.eg.pstate ≠ .normal ∨ s.eg.calLoaded = false → exec .allowanceCompute s = .next s) ∧
    (s.eg.pstate = .normal → s.eg.calLoaded = true → s.eg.frozen = false → s.eg.sensor = false →
      exec .allowanceCompute s = .next (s.allowTake s.allowNow).checkBudget.checkShrunk) ∧
    (s.eg.pstate = .debounce → s.eg.good = true →
      exec .debounceComplete s = .next { s with eg := { s.eg with pstate := .start, pg := true } }) ∧
    (s.eg.pstate = .ride → exec .rideTimeEnd s = .next (s.enterDrain 2)) ∧
    (s.eg.pstate ≠ .ride → exec .rideTimeEnd s = .next s ∧ exec .rideRecover s = .next s) ∧
    (s.eg.pstate = .ride → s.eg.good = true → exec .rideRecover s =
      .next (({ s with eg := { s.eg with pstate := .normal, frozen := false } }).logEv 0x32 0 srcEndgame 0 0))

/-- R388: the allowance falls at once; it rises only with the hundredth computation in a row that is not below it, to the lowest
of them. -/
def Obligations.TheAllowanceFallsAtOnceAndRisesSlowly : Prop :=
  ∀ (s : State) (a : Nat),
    (a < s.eg.allow → (s.allowTake a).eg = { s.eg with allow := a, riseRun := 0 }) ∧
    ∀ (l : List Nat), s.eg.riseRun = 0 → (∀ x ∈ l, s.eg.allow < x) →
      (l.length < 100 → (l.foldl State.allowTake s).eg.allow = s.eg.allow ∧ (l.foldl State.allowTake s).eg.riseRun = l.length) ∧
      (∀ m, l.length = 100 → m ∈ l → (∀ x ∈ l, m ≤ x) → (l.foldl State.allowTake s).eg.allow = m ∧
        (l.foldl State.allowTake s).eg.riseRun = 0)

/-- GPF_PHASE1, GPF_PHASE1_ACK, GPF_PHASE2: phase 1 presents Flush to every enabled caching agent that answers; it is
acknowledged once every Flush is answered and no WbDirty and no store buffer is left; phase 2 drains with GPF as the cause;
during an entry to P2 a phase waits (R390, R391, R562). -/
def Obligations.GpfFlushesThenDrains : Prop :=
  ∀ s : State,
    (s.pwr.phase = .entering →
      exec .gpfPhase1 s = .next { s with pwr := { s.pwr with gpfLater := s.pwr.gpfLater ++ [1] } } ∧
      exec .gpfPhase2 s = .next { s with pwr := { s.pwr with gpfLater := s.pwr.gpfLater ++ [2] } }) ∧
    (s.pwr.phase ≠ .entering → ∃ t, exec .gpfPhase1 s = .next t ∧
      t = { s with pwr := { s.pwr with gpf1 := true, gpf1Ack := false }, agentPorts := t.agentPorts } ∧
      ∀ p a, s.agentPort p = some a → ∃ f, t.agentPort p = some { a with flush := f } ∧ ∀ g < 4, bitAt f g =
        (decide (p < s.variant.agents) && s.agentOn p g && s.agentCaching p g && !bitAt a.silent g)) ∧
    (s.pwr.gpf1 = true → (∀ a ∈ s.agentPorts, a.flush = 0 ∧ a.held = []) →
      exec .gpfPhase1Ack s = .next { s with pwr := { s.pwr with gpf1Ack := true } }) ∧
    (∀ a ∈ s.agentPorts, a.flush ≠ 0 → exec .gpfPhase1Ack s = .next s) ∧
    (s.pwr.phase ≠ .entering → s.eg.pstate = .normal → exec .gpfPhase2 s =
      .next (({ s with pwr := { s.pwr with gpf2 := true, gpf2Ack := false } }).enterDrain 5))

/-- PM_DSTATE_D3HOT, P2_ENTRY_COMPLETE, PM_DSTATE_D0, PM_P3_REQ, PM_DSTATE_RESERVED: the entry to P2 stops the ports and drains
the slices; its end puts the slices' arrays to sleep; D0 wakes them; a P3 request drains as a shutdown and is latched; a
reserved D-state is counted and changes nothing else (R501, R503, R505, R507). -/
def Obligations.PowerStatesAreEnteredAndLeft : Prop :=
  ∀ (s : State) (v : BitVec 2),
    (s.pwr.phase = .p0 → s.gl.serving = true → ∃ t, exec .pmDstateD3hot s = .next t ∧ t.pwr.phase = .entering ∧ t.pwr.dstate = 3 ∧
      t.pwr.ack = false ∧ (∀ a ∈ t.agentPorts, a.stopped = true) ∧
      (s.eg.drainReq = false → ∀ sl ∈ t.slices, sl.ident.role.serves = true → sl.ident.isolated = false → sl.ident.draining = true)) ∧
    (s.pwr.phase = .p0 → s.gl.serving = false → exec .pmDstateD3hot s = .next { s with pwr := { s.pwr with later := some 3 } }) ∧
    (s.pwr.phase = .p2 → exec .pmDstateD3hot s = .next s) ∧
    (s.pwr.phase ≠ .entering → exec .p2EntryComplete s = .next s) ∧
    (s.pwr.phase = .entering → (∀ sl ∈ s.slices, sl.p2Ready = true) → s.cast.replays = [] → (∀ a ∈ s.agentPorts, a.held = []) →
      s.pwr.gpfLater = [] → s.pwr.later = none → s.pwr.warm = false →
      exec .p2EntryComplete s = .next { s with
        pwr := { s.pwr with phase := .p2, ack := true }
        slices := s.slices.map Slice.p2Sleep
        agentPorts := s.agentPorts.map fun (a : AgentPort) => { a with resv := [] } }) ∧
    (s.pwr.phase = .p0 → exec .pmDstateD0 s = .next { s with pwr := { s.pwr with dstate := 0, later := none } }) ∧
    (s.pwr.phase = .entering → exec .pmDstateD0 s = .next { s with pwr := { s.pwr with later := some 0 } }) ∧
    (s.pwr.phase = .p2 → ∃ t, exec .pmDstateD0 s = .next t ∧ t.pwr.phase = .p0 ∧ t.pwr.dstate = 0 ∧ t.pwr.ack = true) ∧
    (s.pwr.p3 = true → exec .pmP3Req s = .next s) ∧
    (s.pwr.p3 = false → s.dctl.list.busy = false → s.ld.fetch = none → s.eg.pstate = .normal → exec .pmP3Req s = .next (({ s with
      pwr := { s.pwr with p3 := true }
      agentPorts := s.agentPorts.map fun (a : AgentPort) => { a with resv := [] }
      slices := s.slices.map fun (sl : Slice) => { sl with dir := { sl.dir with monitors := [] } } }).enterDrain 4)) ∧
    (v = 1 ∨ v = 2 → exec (.pmDstateReserved v) s = .next { s with pwr := { s.pwr with dErr := s.pwr.dErr + 1 } })

/-- A write that the table names by the command field it sets is the ordinary write of that register with the field set (R79,
R145, R315, R364, R397, R451, R458, R463, R478, R483, R500, R542). -/
def Obligations.CommandFieldsAreWritesOfTheirRegister : Prop :=
  ∀ (s : State) (w : RegAcc) (n : Nat), n < 17 →
    ∀ x ∈ ([(.pdListStart w, 0x30048, 31), (.pdListAbort w, 0x30048, 30), (.pdRingCtlReset w, 0x3002C, 31),
        (.fbTraceCtlFlush w, 0x50000, 29), (.fbPrbCtlClear n w, 0x50100 + 0x40 * n, 25),
        (.slPmcClrCyc n w, 0x800888 + 0x40000 * n, 8), (.slPeekGo n w, 0x800300 + 0x40000 * n, 31),
        (.slMscPreStart n w, 0x800114 + 0x40000 * n, 31), (.slMscPreAbort n w, 0x800114 + 0x40000 * n, 30),
        (.ldCmdFetch w, 0x10010, 31), (.ldCmdArmReload w, 0x10010, 30), (.ldCmdDisarm w, 0x10010, 29), (.ldCmdRetry w, 0x10010, 28),
        (.ldRotAccept w, 0x10014, 31), (.ldRotReject w, 0x10014, 30), (.egCtlShutdown w, 0x20004, 31),
        (.egCtlAcceptLoss w, 0x20004, 30)] : List (Instr × Nat × Nat)),
      exec x.1 s = exec (.registerWrite (BitVec.ofNat 27 x.2.1) { w with data := setBit w.data x.2.2 true }) s

/-- The command fields of the loader and of the Endgame unit, written by a privileged and secure master with no other bit set: a
fetch begins with the header, a reload is armed or disarmed, RETRY looks for a slot again, the root of trust accepts or rejects,
SHUTDOWN drains, ACCEPT_LOSS lets a held restart go on, from a fresh record when no root copy was good (R397, R478, R481, R483, R485). -/
def Obligations.LoaderAndEndgameCommandsAct : Prop :=
  ∀ (s : State) (w : RegAcc), w.be = 15 → w.priv = true → w.sec = true → w.data = 0 →
    let s1 : State := { s with pins := { s.pins with regUr := false } }
    (s.ld.fetch = none → s.ld.armed = false → s.ld.state = .loaded → s.ld.sfdp.isSome = true → s.pwr.phase = .p0 → s.pins.mstEn = true →
      exec (.ldCmdFetch w) s = .next { s1 with
        ld := { s.ld with result := 1, pages := 0, fetch := some ⟨.header, !s.ld.slotB, [], s.fetchTags 4⟩ } }) ∧
    (s.ld.fetch = none → exec (.ldCmdArmReload w) s = .next { s1 with ld := { s.ld with armed := true } }) ∧
    exec (.ldCmdDisarm w) s = .next { s1 with ld := { s.ld with armed := false } } ∧
    (s.ld.state = .noImage → exec (.ldCmdRetry w) s =
      .next { s1 with ld := { s.ld with state := .loading }, gl := { s.gl with phase := if s.testsDone then 3 else 1 } }) ∧
    (s.ld.state = .rot → s.ld.reload = none →
      exec (.ldRotAccept w) s = .next { s1 with ld := { s.ld with state := .loading, accepted := true } } ∧
      ∀ (sb : Bool) (q : W32) (r : List (Bool × W32)), s.ld.toTry = (sb, q) :: r → r ≠ [] → ∃ t, exec (.ldRotReject w) s = .next t ∧
        t = { s1 with ld := t.ld, ev := (s.slotRejected sb 0xFE).ev } ∧ t.ld.state = .loading ∧ t.ld.toTry = r ∧ t.ld.accepted = false) ∧
    (s.eg.pstate = .normal → exec (.egCtlShutdown w) s = .next (s1.enterDrain 4)) ∧
    (s.root.held = true → s.root.rootBad = false → exec (.egCtlAcceptLoss w) s = .next s1.writeRunning) ∧
    (s.root.held = true → s.root.rootBad = true → exec (.egCtlAcceptLoss w) s = .next (({ s1 with
      gl := { s.gl with game := 0 }
      dctl := { s.dctl with sweepPage := 0, sweepGame := 0, sweepIncs := 0, sweepFast := false }
      root := { s.root with seq := 0, nextSecond := false, repin := [], sent := 0, progress := 0 } } : State).writeRunning)) ∧
    (s.root.held = false → exec (.egCtlAcceptLoss w) s = .next s1)

/-- The command fields of the director, the fabric and the slices, written whole by a privileged and secure master: a list
starts and orders its reads, or stops; a ring's head goes back to 0; the trace FIFO is emptied; counters are cleared; a peek
answers at once; a preload starts, or ends once its reads have ended (R315, R316, R364, R451, R458, R463, R500, R542). -/
def Obligations.DirectorFabricAndSliceCommandsAct : Prop :=
  ∀ (s : State) (w : RegAcc), w.be = 15 → w.priv = true → w.sec = true →
    (s.dctl.list.busy = false → s.dctl.list.reads = [] → s.ld.fetch = none → s.pins.mstEn = true → s.ctxsUsed ≤ 63 → bitAt w.data 30 = false →
      1 ≤ fieldN w.data 22 8 → fieldN w.data 22 8 < 7 → fieldN w.data 0 20 ≠ 0 → ∃ t, exec (.pdListStart w) s = .next t ∧
        t.dctl.list.busy = true ∧ t.dctl.list.op.toNat = fieldN w.data 22 8 ∧ t.dctl.list.count = fieldN w.data 0 20 ∧
        t.dctl.list.pages = 0 ∧ t.dctl.list.reads ≠ []) ∧
    (s.dctl.list.busy = true → s.dctl.list.cur = none → s.dctl.list.stopping = none → s.ctxsUsed ≤ 64 → bitAt w.data 31 = false →
      ∃ t, exec (.pdListAbort w) s = .next t ∧ t.dctl.list.busy = false ∧ t.dctl.list.done = true ∧ t.dctl.list.status = 0x0C) ∧
    (fieldN w.data 16 14 < s.pdRings → exec (.pdRingCtlReset w) s = .next { s with
      pins := { s.pins with regUr := false }
      dctl := { s.dctl with heads := kdel (fieldN w.data 16 14) s.dctl.heads, rseqs := kdel (fieldN w.data 16 14) s.dctl.rseqs } }) ∧
    (∃ t, exec (.fbTraceCtlFlush w) s = .next t ∧ t = { s with pins := { s.pins with regUr := false }, regs := t.regs, fb := t.fb } ∧
      t.fb = { s.fb with trace := [], probes := s.fb.probes.map fun p => { p with packet := none, buf := [] } }) ∧
    (∀ n < 12, ∃ t, exec (.fbPrbCtlClear n w) s = .next t ∧
      t = { s with pins := { s.pins with regUr := false }, regs := t.regs, fb := t.fb } ∧
      t.fb.probes = s.fb.probes.modify n fun p => { p with cnt := p.cnt.clear }) ∧
    ∀ (p : Nat) (sl : Slice), s.slice p = some sl → p < s.variant.phys → sl.ident.isolated = false →
      (∃ t x, exec (.slPmcClrCyc p w) s = .next t ∧ t.slice p = some x ∧ x.obs.cyc = sl.obs.cyc.clear ∧
        x.obs.pmc = sl.obs.pmc.mapIdx fun i k => if bitAt w.data i then k.clear else k) ∧
      (sl.obs.peek.busy = false → ∃ t x, exec (.slPeekGo p w) s = .next t ∧ t.slice p = some x ∧ x.obs.peek.done = true ∧
        x.obs.peek.busy = false) ∧
      (sl.msc.pre.busy = false → fieldN w.data 0 24 ≠ 0 → bitAt w.data 30 = false → ∃ t x, exec (.slMscPreStart p w) s = .next t ∧
        t.slice p = some x ∧ x.msc.pre = { sl.msc.pre with
          busy := true, left := fieldN w.data 0 24, lineNo := 0, clearing := if bitAt w.data 29 then some 0 else none,
          page := (s.slReg p 0x110).extractLsb' 0 4 ++ s.slReg p 0x10C, skipped := 0 }) ∧
      (sl.msc.pre.busy = true → bitAt w.data 31 = false → ∃ t x, exec (.slMscPreAbort p w) s = .next t ∧
        t.slice p = some x ∧ (sl.preloading = true → x.msc.pre = { sl.msc.pre with left := 0, clearing := none }) ∧
        (sl.preloading = false → x.msc.pre.busy = false ∧ x.msc.pre.done = true ∧ x.msc.pre.clearing = none ∧
          x.msc.pre.left = sl.msc.pre.left))

/-- A write of a window offset where no register is defined, or of an alias of a register without a field an alias may write, is
answered UR: it is counted and nothing is accessed (R492). A GS register refuses a master that is not privileged or not secure:
the write is counted, its offset is recorded, and no field and no command of it is touched; a write by a privileged and secure
master is not counted (R509, R517). -/
def Obligations.RefusedAccessesTouchNothing : Prop :=
  (∀ (s : State) (off : BitVec 27) (w : RegAcc) (r : RegRd),
    let o := off.toNat % 0x1000000
    let view := off.toNat / 0x1000000
    (4 ≤ view ∨ s.defined o = false ∨ (view ≠ 0 ∧ s.aliasOk o = false) →
      ∀ c ∈ [Instr.registerWrite off w, Instr.registerAliasWrite off w], exec c s = .next { s with
        gl := { s.gl with urCnt := satInc s.gl.urCnt }, pins := { s.pins with regUr := true, regRdata := 0 } }) ∧
    (r.be ≠ 0 → 5 ≤ view ∨ s.defined o = false →
      ∀ c ∈ [Instr.counterLowRead off r, Instr.wideRegisterLowRead off r, Instr.readClearRegister off r], exec c s = .next { s with
        gl := { s.gl with urCnt := satInc s.gl.urCnt }, pins := { s.pins with regUr := true, regRdata := 0 } }) ∧
    (r.be = 0 →
      ∀ c ∈ [Instr.counterLowRead off r, Instr.wideRegisterLowRead off r, Instr.readClearRegister off r], exec c s = .next { s with
        pins := { s.pins with regUr := false, regRdata := 0 } })) ∧
  (∀ (s : State) (w : RegAcc), w.be = 15 →
    (w.priv = false ∨ w.sec = false →
      ∀ x ∈ ([(.ldCmdFetch w, 0x10010), (.ldCmdArmReload w, 0x10010), (.ldCmdDisarm w, 0x10010), (.ldCmdRetry w, 0x10010),
        (.ldRotAccept w, 0x10014), (.ldRotReject w, 0x10014), (.egCtlShutdown w, 0x20004), (.egCtlAcceptLoss w, 0x20004)] : List (Instr × BitVec 27)),
      exec x.1 s = .next { s with
        pins := { s.pins with regUr := false }
        gl := { s.gl with guardCnt := satInc s.gl.guardCnt, guardLast := 0x80000000 ||| x.2.setWidth 32 } }))

/-- REGISTER_WRITE, REGISTER_ALIAS_WRITE: a write gives a register's fields the enabled bytes of the data; aliases 1, 2 and 3
set, clear and toggle the fields' old bits; the values in force of fields that a commit brings into force stay, and no other
register changes (R509, R513). -/
def Obligations.WritesAndAliasesChangeTheEnabledFields : Prop :=
  ∀ (s : State) (o view : Nat) (w : RegAcc) (d : RegDef), o < 0x50000 → view < 4 → s.defined o = true → regDef s.variant o = some d →
    d.rw = 0 → d.gs = 0 → gsBits o = 0 → o ∉ [0x008, 0x014, 0x10010, 0x10014, 0x20004, 0x3002C, 0x30048] → w.data &&& beMask w.be ≠ 0 →
    let old := s.baseReg o
    let m := beMask w.be
    let v := w.data &&& m
    let new := if view = 0 then (old &&& ~~~m) ||| v else if view = 1 then old ||| v else if view = 2 then old &&& ~~~v else old ^^^ v
    ∀ c ∈ [Instr.registerWrite (BitVec.ofNat 27 (0x1000000 * view + o)) w, .registerAliasWrite (BitVec.ofNat 27 (0x1000000 * view + o)) w],
      ∃ t, exec c s = .next t ∧ t = { s with regs := { s.regs with base := t.regs.base }, pins := { s.pins with regUr := false } } ∧
        kget o t.regs.base = some (new &&& d.rwb) ∧ ∀ q, q ≠ o → kget q t.regs.base = kget q s.regs.base

/-- GL_COMMIT names blocks, whose pending values are gathered to come into force at the next boundary, the last value written
last; a mask that names none does nothing; GL_GAME is not written, and the attempt is counted (R79, R145). -/
def Obligations.CommitsGatherTheNamedBlocks : Prop :=
  ∀ (s : State) (w : RegAcc), w.be = 15 →
    (w.data &&& 0x01FFFF3F = 0 → exec (.glCommit w) s = .next { s with pins := { s.pins with regUr := false } }) ∧
    (w.data &&& 0x01FFFF3F ≠ 0 → ∃ t, exec (.glCommit w) s = .next t ∧
      t = { s with pins := { s.pins with regUr := false }, gl := { s.gl with anyCommit := true, commit := t.gl.commit } } ∧
      (∀ o, (∀ d, regDef s.variant o = some d → d.rwb = 0) ∨ s.commitBlock w.data o = false → kget o t.gl.commit = kget o s.gl.commit) ∧
      ∀ o d v, regDef s.variant o = some d → d.rwb ≠ 0 → s.commitBlock w.data o = true → ksorted s.regs.base = true →
        kget o s.regs.base = some v → kget o t.gl.commit = some v) ∧
    exec (.glGameWrite w) s = .next { s with
      pins := { s.pins with regUr := false }, gl := { s.gl with gameIgnored := satInc s.gl.gameIgnored } }

/-- R458: a read of FB_TRACE_DATA returns the head word and removes it; with the FIFO empty, the head the reserved slot of an
open packet, or SINK at 1, it returns 0 and removes nothing. -/
def Obligations.TraceDataReturnsTheHeadWord : Prop :=
  ∀ (s : State) (r : RegRd), r.be = 15 →
    (∀ (x : W32) (rest : List TraceWord), s.fb.trace = .word x :: rest → bitAt (s.actReg 0x50000) 30 = false →
      exec (.fbTraceDataRead r) s = .next { s with fb := { s.fb with trace := rest }, pins := { s.pins with regUr := false, regRdata := x } }) ∧
    (s.fb.trace = [] ∨ (∃ n rest, s.fb.trace = .slot n :: rest) ∨ bitAt (s.actReg 0x50000) 30 = true →
      exec (.fbTraceDataRead r) s = .next { s with pins := { s.pins with regUr := false, regRdata := 0 } })

/-- R460, R461: a record logged with the FIFO full is lost, counted, and LOST set; the pop of FB_EVT_HI answers the head
record's bits [127:96], keeps the rest in the latch, and the entry it frees takes the record of the lost ones; a pop of an empty
FIFO latches zeros. -/
def Obligations.TheEventFifoCountsWhatItLoses : Prop :=
  ∀ (s : State) (e : EvRec) (r : RegRd), r.be = 15 → r.priv = true → r.sec = true →
    (s.ev.fifo.length = 512 → s.ev.push e = { s.ev with lost := satInc s.ev.lost, lostBit := true }) ∧
    (∀ (h : EvRec) (rest : List EvRec), s.ev.fifo = h :: rest → ∃ t bits,
      exec (.fbEvtPop r) s = .next t ∧ bits = h.code ++ h.sev ++ h.src ++ h.unit ++ h.move ++ h.detail ∧
      t = { s with ev := { s.ev with latch := bits, lost := 0, staleHalt := false, fifo := t.ev.fifo },
                   pins := { s.pins with regUr := false, regRdata := bits.extractLsb' 96 32 } } ∧
      (s.ev.lost = 0 → t.ev.fifo = rest) ∧
      (s.ev.lost ≠ 0 → ∃ x, t.ev.fifo = rest ++ [x] ∧ x.code = 0x3B ∧ x.src = 0x16 ∧ x.detail = s.ev.lost.setWidth 64)) ∧
    (s.ev.fifo = [] → exec (.fbEvtPop r) s = .next { s with
      ev := { s.ev with latch := 0, staleHalt := false }, pins := { s.pins with regUr := false, regRdata := 0 } })

/-- COUNTER_LOW_READ, WIDE_REGISTER_LOW_READ, SL_OCC_MAX_READ, READ_CLEAR_REGISTER and SL_PMC_CLR_CNT: a counter's low half
answers its low bits and latches the rest; so does GL_MOVE; a read of the maxima restarts them at what is held; a read clears
the bits it returns; counters are cleared that the data selects (R454, R463, R509, R518, R538). -/
def Obligations.ReadsLatchClearAndRestart : Prop :=
  ∀ (s : State) (p : Nat) (sl : Slice) (r : RegRd) (w : RegAcc), s.slice p = some sl → p < s.variant.phys → sl.ident.isolated = false →
    r.be = 15 → w.be = 15 →
    exec (.counterLowRead (BitVec.ofNat 27 (slBase p + 0x880)) r) s = .next ((s.modSlice p fun x => { x with
      obs := { x.obs with cyc := { x.obs.cyc with latch := b1 x.obs.cyc.sat ++ x.obs.cyc.value.extractLsb' 32 16 } }
      ident := { x.ident with gated := false } }).answer (sl.obs.cyc.value.setWidth 32)) ∧
    exec (.wideRegisterLowRead 0x018 r) s =
      .next ({ s with ld := { s.ld with moveLatch := (s.gl.move.extractLsb' 32 16).setWidth 32 } }.answer (s.gl.move.setWidth 32)) ∧
    (∃ t x, exec (.slOccMaxRead p r) s = .next t ∧ t.slice p = some x ∧ x.obs.occTrk = sl.trk.length ∧
      x.obs.occHold = sl.hold.length ∧ x.obs.occWpq = sl.msc.wpq.length) ∧
    exec (.readClearRegister 0x060 r) s = .next ({ s with gl := { s.gl with latchMaint := false, latchErr := false } }.answer
      (word32 [(1, n1 s.gl.latchMaint), (0, n1 s.gl.latchErr)])) ∧
    (∃ t, exec (.slPmcClrCnt p w) s = .next t ∧ t = { s with pins := { s.pins with regUr := false }, slices := t.slices } ∧
      ∀ x, t.slice p = some x → x.obs.pmc = sl.obs.pmc.mapIdx fun i k => if bitAt w.data i then k.clear else k)

/-- DVSEC_CONFIG_WRITE, EXPANSION_ROM_READ, EXPANSION_ROM_WRITE, ATOMIC_APERTURE_ATOMICOP: no DVSEC field is writable; the ROM
window shows the image in force and 0 beyond it, and a write is only counted; an AtomicOp is one request of the aperture's
agent, and UR while the aperture is off (R490, R494, R497). -/
def Obligations.RomDvsecAndAperture : Prop :=
  ∀ (s : State) (n : Nat) (v : W32) (off : BitVec 27) (r : RegRd) (w : RegAcc) (a : AgentMsg) (d : Line),
    exec (.dvsecConfigWrite n v) s = .next s ∧
    exec (.expansionRomRead off r) s = .next { s with pins := { s.pins with regUr := false, regRdata :=
      if s.ld.state = .loaded ∧ off.toNat / 4 * 4 < s.ld.image.length then BitVec.ofNat 32 (fieldAt s.ld.image (off.toNat / 4 * 4) 4) else 0 } } ∧
    exec (.expansionRomWrite off w) s = .next { s with
      ld := { s.ld with romWrites := s.ld.romWrites + 1 }, pins := { s.pins with regUr := false } } ∧
    (s.atomEn = false ∨ 134217728 ≤ n → exec (.atomicApertureAtomicOp n a d) s = .next { s with
      gl := { s.gl with urCnt := satInc s.gl.urCnt }, pins := { s.pins with regUr := true, regRdata := 0 } }) ∧
    (∀ ap, s.atomEn = true → n < 134217728 →
      let ctl := s.actReg 0x40080
      let m : AgentMsg := { a with
        port := fieldN ctl 2 3, agent := ctl.extractLsb' 0 2, opc := 0x16, addr := BitVec.ofNat 52 (s.hintBase + n) }
      s.walkFailed = false → s.agentPort m.port = some ap → s.agentTakes m.port ap (some .atomicOp) = true →
      bitAt ap.silent m.agent.toNat = false → s.agentOn m.port m.agent.toNat = true → ap.credits m.agent.toNat ≠ 0 → a.cls.toNat < 5 →
      s.agentRefusal m false = none → (ap.held.filter PortReq.buffers).length < 32 → a.reach = .port →
      exec (.atomicApertureAtomicOp n a d) s = .next (s.modAgentPort m.port fun x =>
        { x with held := x.held ++ [s.portReqOf .atomicOp m d false] }))

/-- PROBE_MATCH, TRACE_PACKET_GAP, TRACE_PORT_TRANSFER, EVENT_FIFO_STALE, EVENT_REQUEST_ACCEPT: an enabled probe that does not
trace adds to its counter alone, and one that traces hands the flit to its buffer as well; a gap closes the probe's packet when the
buffers have emptied; with SINK 1 the trace port takes the head word; the stale timer sets STALE once; the request kept is offered when
the one offered is taken (R438, R452, R456, R457, R458, R462). -/
def Obligations.ProbesTraceAndEventPorts : Prop :=
  ∀ (s : State) (n : Nat) (f : Flit),
    (n < 12 → bitAt (s.prb n 0) 31 = true → linkIn s.variant (fieldN (s.prb n 0) 13 8) = true → s.probeHits n f.header = true →
      bitAt (s.prb n 0) 27 = false → exec (.probeMatch n f) s = .next { s with fb := { s.fb with
        probes := s.fb.probes.modify n fun p => { p with cnt := p.cnt.add (probeAdds (s.prb n 0) f) } } }) ∧
    (bitAt (s.prb n 0) 31 = false ∨ s.probeHits n f.header = false → exec (.probeMatch n f) s = .next s) ∧
    (n < 12 → bitAt (s.prb n 0) 31 = true → linkIn s.variant (fieldN (s.prb n 0) 13 8) = true → s.probeHits n f.header = true →
      bitAt (s.prb n 0) 27 = true → bitAt (s.actReg 0x50000) 31 = true → exec (.probeMatch n f) s = .next (State.traceFlit
        { s with fb := { s.fb with probes := s.fb.probes.modify n fun p => { p with cnt := p.cnt.add (probeAdds (s.prb n 0) f) } } } n
        ⟨fieldN (s.prb n 0) 13 8, f.lane, f.header, (s.gl.move <<< 10) ||| f.cycle.setWidth 48⟩)) ∧
    (let s1 := s.traceAll;
      (∀ (b : Probe) (k : Packet) (u v : List TraceWord), s1.fb.probes[n]? = some b → b.packet = some k →
        s1.fb.trace = u ++ .slot n :: v → .slot n ∉ u → .slot n ∉ v →
        exec (.tracePacketGap n) s = .next { s1 with fb := { s1.fb with
          trace := u ++ .word (lengthWord n k.records false) :: v
          probes := s1.fb.probes.modify n fun x => { x with packet := none } } }) ∧
      (∀ (x : W32) (rest : List TraceWord), bitAt (s.actReg 0x50000) 30 = true → s1.fb.trace = .word x :: rest →
        exec .tracePortTransfer s = .next { s1 with fb := { s1.fb with trace := rest, trcData := x } })) ∧
    (bitAt (s.actReg 0x50000) 30 = false → exec .tracePortTransfer s = .next s) ∧
    (s.ev.fifo ≠ [] → s.ev.staleHalt = false → fieldN (s.actReg 0x50020) 10 10 ≠ 0 →
      exec .eventFifoStale s = .next { s with ev := { s.ev with stale := true, staleHalt := true } }) ∧
    (s.ev.fifo = [] ∨ s.ev.staleHalt = true → exec .eventFifoStale s = .next s) ∧
    exec .eventRequestAccept s = .next { s with ev := { s.ev with offer := s.ev.kept, kept := none } }
end

