-- ==== Sys2Proof/Laws/Fixed.lean ====
section
/-! SUPPORT. What no command changes: the part's variant, how many ports, host identities and slices it has, and, but for the step
that takes a command from it, the queue. -/

namespace Sys2Proof.Machine

open Sys2Proof

set_option linter.unreachableTactic false
set_option linter.unusedTactic false
set_option linter.unusedSimpArgs false

/-- The variant of the part, the commands that wait, and how many of each numbered part the block has. -/
def State.fixed (s : State) : Variant × List Instr × Nat × Nat × Nat × Nat × Nat :=
  (s.variant, s.pending, s.hostPorts.length, s.hids.length, s.agentPorts.length, s.slices.length, s.memPorts.length)

@[simp] theorem State.fixed_eta (s : State) :
    (s.variant, s.pending, s.hostPorts.length, s.hids.length, s.agentPorts.length, s.slices.length, s.memPorts.length) = s.fixed := rfl

@[simp] theorem State.fixed_mk (variant : Variant) (pending : List Instr) (free : Nat) (pins : Pins) (gl : Gl) (regs : Regs)
    (cfg : Cfg) (hostPorts : List HostPort) (hids : List Hid) (agentPorts : List AgentPort) (slices : List Slice)
    (memPorts : List MemPort) (spill : List (Nat × Line)) (cast : Cast) (dir : Director) (dctl : DirCtl) (root : Root)
    (eg : Endgame) (pwr : Power) (ld : Loader) (fb : Fabric) (net : List NMsg) (ring : List RingFlit)
    (ringSnoops : List SnpFlit) (ev : Events) :
    (State.mk variant pending free pins gl regs cfg hostPorts hids agentPorts slices memPorts spill cast dir dctl root eg pwr ld
      fb net ring ringSnoops ev).fixed =
    (variant, pending, hostPorts.length, hids.length, agentPorts.length, slices.length, memPorts.length) := rfl

/-- A branch of a conditional. -/
@[simp] theorem State.fixed_ite (c : Prop) [Decidable c] (a b : State) :
    (if c then a else b).fixed = if c then a.fixed else b.fixed := by
  split <;> rfl

/-- Both branches of a conditional keep what is fixed. -/
theorem State.fixed_branch {c : Prop} [Decidable c] {a b s : State} (ha : a.fixed = s.fixed) (hb : b.fixed = s.fixed) :
    (if c then a else b).fixed = s.fixed := by
  split <;> assumption

/-- A fold of an operation that keeps what is fixed keeps it. -/
@[simp] theorem State.fixed_foldl {α : Type} (f : State → α → State) (hf : ∀ s a, (f s a).fixed = s.fixed) (l : List α) (s : State) :
    (l.foldl f s).fixed = s.fixed := by
  induction l generalizing s with
  | nil => rfl
  | cons a l ih => rw [List.foldl_cons, ih, hf]

/-- A fold that carries more than the state. -/
@[simp] theorem State.fixed_foldl_fst {α β : Type} (f : State × β → α → State × β) (hf : ∀ x a, (f x a).1.fixed = x.1.fixed)
    (l : List α) (x : State × β) : (l.foldl f x).1.fixed = x.1.fixed := by
  induction l generalizing x with
  | nil => rfl
  | cons a l ih => rw [List.foldl_cons, ih, hf]

/-- A repetition of an operation that keeps what is fixed keeps it. -/
theorem State.fixed_iter (f : State → State) (hf : ∀ s, (f s).fixed = s.fixed) (n : Nat) (s : State) :
    (Nat.rec s (fun _ t => f t) n : State).fixed = s.fixed := by
  induction n with
  | zero => rfl
  | succ n ih => exact (hf _).trans ih

/-- The state of a pair that an operation answers. -/
theorem State.fixed_fst {α : Type} {x : State × α} {a : α} {t s : State} (h : x = (t, a)) (hx : x.1.fixed = s.fixed) :
    t.fixed = s.fixed := by
  rw [h] at hx; exact hx

/-- The state of a pair that an operation answers. -/
theorem State.fixed_snd {α : Type} {x : α × State} {a : α} {t s : State} (h : x = (a, t)) (hx : x.2.fixed = s.fixed) :
    t.fixed = s.fixed := by
  rw [h] at hx; exact hx

end Sys2Proof.Machine
end

