-- ==== Sys2Proof/Laws/FixedBase.lean ====
section
/-! SUPPORT. Each operation keeps the variant, the queue and the number of ports, host identities and slices: the operations over registers, ports and tables, the placement tables, the root record, the Endgame unit and the loader. -/

namespace Sys2Proof.Machine

open Sys2Proof

set_option linter.unreachableTactic false
set_option linter.unusedTactic false
set_option linter.unusedSimpArgs false

/-! ### Machine/Ops.lean -/

@[simp] theorem State.modSlice_fixed (s :
    State) (p : Nat) (f : Slice → Slice) : (State.modSlice s p f).fixed = s.fixed := by simp [State.modSlice]

@[simp] theorem State.modTrk_fixed (s :
    State) (p n : Nat) (f : Tracker → Tracker) : (State.modTrk s p n f).fixed = s.fixed := by simp [State.modTrk]

@[simp] theorem State.failSlice_fixed (s :
    State) (p : Nat) (c : FailCause) : (State.failSlice s p c).fixed = s.fixed := by simp [State.failSlice]

@[simp] theorem State.modHostPort_fixed (s :
    State) (p : Nat) (f : HostPort → HostPort) : (State.modHostPort s p f).fixed = s.fixed := by simp [State.modHostPort]

@[simp] theorem State.modHid_fixed (s :
    State) (h : Nat) (f : Hid → Hid) : (State.modHid s h f).fixed = s.fixed := by simp [State.modHid]

@[simp] theorem State.modAgentPort_fixed (s :
    State) (p : Nat) (f : AgentPort → AgentPort) : (State.modAgentPort s p f).fixed = s.fixed := by simp [State.modAgentPort]

@[simp] theorem State.modMemPort_fixed (s :
    State) (p : Nat) (f : MemPort → MemPort) : (State.modMemPort s p f).fixed = s.fixed := by simp [State.modMemPort]

@[simp] theorem State.takeMsg_fixed (s : State) (m : NMsg) : (State.takeMsg s m).fixed = s.fixed := rfl

@[simp] theorem State.logEv_fixed (s :
    State) (code sev src unit : Nat) (detail : W64) : (State.logEv s code sev src unit detail).fixed = s.fixed := rfl

@[simp] theorem State.logPoison_fixed (s :
    State) (p : Nat) (line : LineAddr) (row : Nat) : (State.logPoison s p line row).fixed = s.fixed := by
  unfold State.logPoison; split <;> simp

@[simp] theorem State.logPoisonDir_fixed (s :
    State) (line : LineAddr) (row : Nat) : (State.logPoisonDir s line row).fixed = s.fixed := by simp [State.logPoisonDir]

@[simp] theorem State.setHealth_fixed (s :
    State) (f : Gl → Gl) : (State.setHealth s f).fixed = s.fixed := by simp [State.setHealth]

@[simp] theorem State.setHealthWith_fixed (s :
    State) (f : Gl → Gl) (code sev unit : Nat) (detail : W64) : (State.setHealthWith s f code sev unit detail).fixed = s.fixed := rfl

/-! ### Machine/Mesh.lean -/

@[simp] theorem State.meshSend_fixed (s : State) (m : MeshMsg) : (State.meshSend s m).fixed = s.fixed := rfl

@[simp] theorem State.meshData_fixed (s :
    State) (m : MeshMsg) (poison : Bool) : (State.meshData s m poison).fixed = s.fixed := rfl

@[simp] theorem State.send_fixed (s : State) (m : NMsg) : (State.send s m).fixed = s.fixed := rfl

@[simp] theorem State.meshCycle_fixed (s : State) : (State.meshCycle s).fixed = s.fixed := rfl

@[simp] theorem State.meshRun_fixed (n : Nat) (s : State) : (State.meshRun n s).fixed = s.fixed := by
  induction n generalizing s with
  | zero => rfl
  | succ n ih =>
    unfold State.meshRun
    repeat' (first
      | with_reducible rfl
      | split
      | simp [ih])

@[simp] theorem State.meshMove_fixed (s : State) : (State.meshMove s).fixed = s.fixed := by simp [State.meshMove]

/-! ### Machine/RegMap.lean -/

@[simp] theorem State.count_fixed (s : State) (p ev : Nat) (c : Option Cls) (n : Nat := 1) :
    (State.count s p ev c n).fixed = s.fixed := by simp [State.count]

/-! ### Machine/Directory.lean -/

@[simp] theorem State.setBucket_fixed (s : State) (n : Nat) (b : Line) : (State.setBucket s n b).fixed = s.fixed := rfl

/-! ### Machine/Cache.lean -/

@[simp] theorem State.memSubmit_fixed (s :
    State) (c : MemCmd) : (State.memSubmit s c).fixed = s.fixed := by simp [State.memSubmit]

@[simp] theorem State.memBack_fixed (s :
    State) (port : Nat) (c : MemCmd) (line poison : Bool) : (State.memBack s port c line poison).fixed = s.fixed := rfl

@[simp] theorem State.memFree_fixed (s :
    State) (m tag : Nat) : (State.memFree s m tag).fixed = s.fixed := by simp [State.memFree]

@[simp] theorem State.mirSend_fixed (s :
    State) (p : Nat) (ops : List MirOp) : (State.mirSend s p ops).1.fixed = s.fixed := by
  unfold State.mirSend
  split
  · rfl
  · split <;> simp

@[simp] theorem State.meetErr_fixed (s :
    State) (p : Nat) (arr : ErrArr) (ev : Option Nat) (ce : Nat) (hit : Nat → Bool) : (State.meetErr s p arr ev ce hit).1.fixed = s.fixed := by
  unfold State.meetErr
  repeat' (first
    | split
    | simp)

@[simp] theorem State.wayCount_fixed (s :
    State) (p : Nat) (arr : ErrArr) (hit : Nat → Bool) : (State.wayCount s p arr hit).fixed = s.fixed := by
  simp [State.wayCount]

@[simp] theorem State.lineUe_fixed (s :
    State) (p : Nat) (arr : ErrArr) (i : Nat) : (State.lineUe s p arr i).fixed = s.fixed := by simp [State.lineUe]

@[simp] theorem State.readBuf_fixed (s :
    State) (p : Nat) (arr : ErrArr) (i : Nat) (l : LineAddr) : (State.readBuf s p arr i l).1.fixed = s.fixed := by
  unfold State.readBuf
  repeat' (first
    | split
    | simp)

@[simp] theorem State.readWay_fixed (s : State) (p i : Nat) : (State.readWay s p i).1.fixed = s.fixed := by
  unfold State.readWay
  repeat' (first
    | split
    | simp)

@[simp] theorem State.toWpq_fixed (s :
    State) (p : Nat) (l : LineAddr) (d : Line) (n : Nib) (po k : Bool) : (State.toWpq s p l d n po k).s.fixed = s.fixed := by
  unfold State.toWpq; split <;> simp

@[simp] theorem State.newestToWpq_fixed (s :
    State) (p : Nat) (l : LineAddr) (d : Line) (n : Nib) (po k : Bool) : (State.newestToWpq s p l d n po k).s.fixed = s.fixed := by
  simp [State.newestToWpq]

@[simp] theorem State.noteFull_fixed (s :
    State) (p : Nat) (sl : Slice) (set : Nat) (freed : Bool) : (State.noteFull s p sl set freed).fixed = s.fixed := by
  simp [State.noteFull]

@[simp] theorem State.teSend_fixed (s : State) (op : TeOp) (use : PerUse) : (State.teSend s op use).1.fixed = s.fixed := rfl

@[simp] theorem State.place_fixed (s : State) (p i : Nat) (c : CLine) : (State.place s p i c).1.fixed = s.fixed := by
  unfold State.place
  repeat' (first
    | split
    | simp)

@[simp] theorem State.noWay_fixed (s :
    State) (p : Nat) (k : Bool) : (State.noWay s p k).s.fixed = s.fixed := by unfold State.noWay; split <;> simp

@[simp] theorem State.placeClean_fixed (s : State) (p : Nat) (c : CLine) : (State.placeClean s p c).s.fixed = s.fixed := by
  unfold State.placeClean
  repeat' (first
    | split
    | simp)

@[simp] theorem State.fillClean_fixed (s :
    State) (p : Nat) (l : LineAddr) (d : Line) (n : Nib) (po k pf : Bool) : (State.fillClean s p l d n po k pf).s.fixed = s.fixed := by
  unfold State.fillClean
  repeat' (first
    | split
    | simp)

@[simp] theorem State.fillTarget_fixed (s :
    State) (p : Nat) (l : LineAddr) (d : Line) (n : Nib) (po k : Bool) : (State.fillTarget s p l d n po k).s.fixed = s.fixed := by
  unfold State.fillTarget
  repeat' (first
    | split
    | simp)

@[simp] theorem State.writeAround_fixed (s :
    State) (p : Nat) (l : LineAddr) (d : Line) (n : Nib) (po k keep : Bool) (ktag : Bool) : (State.writeAround s p l d n po k keep ktag).s.fixed = s.fixed := by
  simp [State.writeAround]

@[simp] theorem State.writeThrough_fixed (s :
    State) (p : Nat) (l : LineAddr) (d : Line) (n : Nib) (po k ktag : Bool) : (State.writeThrough s p l d n po k ktag).s.fixed = s.fixed := by
  unfold State.writeThrough
  repeat' (first
    | split
    | simp)

@[simp] theorem State.cleanStart_fixed (s :
    State) (p : Nat) : (State.cleanStart s p).fixed = s.fixed := by unfold State.cleanStart; split <;> simp

@[simp] theorem State.writeDirty_fixed (s :
    State) (p : Nat) (l : LineAddr) (d : Line) (n : Nib) (po k around ktag : Bool) : (State.writeDirty s p l d n po k around ktag).s.fixed = s.fixed := by
  unfold State.writeDirty
  repeat' (first
    | split
    | simp)

@[simp] theorem State.invalidate_fixed (s :
    State) (p : Nat) (l : LineAddr) : (State.invalidate s p l).s.fixed = s.fixed := by
  unfold State.invalidate
  repeat' (first
    | split
    | simp)

@[simp] theorem State.recordNib_fixed (s :
    State) (p : Nat) (l : LineAddr) (n : Nib) : (State.recordNib s p l n).1.fixed = s.fixed := by
  unfold State.recordNib; split <;> simp

@[simp] theorem State.writeBack_fixed (s :
    State) (p i : Nat) (c0 : CLine) : (State.writeBack s p i c0).fixed = s.fixed := by simp [State.writeBack]

/-! ### Machine/Placement.lean -/

@[simp] theorem State.setEnt_fixed (s :
    State) (p : Page) (e : PEnt) : (State.setEnt s p e).fixed = s.fixed := by simp [State.setEnt]

@[simp] theorem State.modEnt_fixed (s :
    State) (p : Page) (f : PEnt → PEnt) : (State.modEnt s p f).fixed = s.fixed := by simp [State.modEnt]

@[simp] theorem State.rewriteCorrupt_fixed (s :
    State) (p : Page) : (State.rewriteCorrupt s p).fixed = s.fixed := by simp [State.rewriteCorrupt]

@[simp] theorem State.readEnt_fixed (s : State) (p : Page) : (State.readEnt s p).fixed = s.fixed := by
  unfold State.readEnt; split <;> simp

theorem State.takeFrame_fixed {s : State} {p : Page} {heat : BitVec 8} {n' : Nat} {t : State} (h : State.takeFrame s p heat = some (n', t)) : t.fixed = s.fixed := by
  unfold State.takeFrame at h
  repeat' (first | contradiction | split at h)
  all_goals
    injection h with h
    injection h with h1 h2
    subst h2
    repeat' (first
      | with_reducible rfl
      | with_reducible refine (State.fixed_foldl _ (fun s a => ?_) _ _).trans ?_
      | split
      | simp
      | with_reducible refine State.fixed_fst (by assumption) ?_
      | with_reducible refine State.fixed_snd (by assumption) ?_)

theorem State.takeSlot_fixed {s : State} {k : Nat} {p : Page} {n' : Nat} {t : State} (h : State.takeSlot s k p = some (n', t)) : t.fixed = s.fixed := by
  unfold State.takeSlot at h
  repeat' (first | contradiction | split at h)
  all_goals
    injection h with h
    injection h with h1 h2
    subst h2
    repeat' (first
      | with_reducible rfl
      | with_reducible refine (State.fixed_foldl _ (fun s a => ?_) _ _).trans ?_
      | split
      | simp
      | with_reducible refine State.fixed_fst (by assumption) ?_
      | with_reducible refine State.fixed_snd (by assumption) ?_)

@[simp] theorem State.dropFrame_fixed (s : State) (f : Nat) : (State.dropFrame s f).fixed = s.fixed := rfl

@[simp] theorem State.dropSlot_fixed (s : State) (n : Nat) : (State.dropSlot s n).fixed = s.fixed := rfl

@[simp] theorem State.dirtyFrame_fixed (s :
    State) (f : Nat) : (State.dirtyFrame s f).fixed = s.fixed := by simp [State.dirtyFrame]

@[simp] theorem State.dirtySlot_fixed (s :
    State) (n : Nat) : (State.dirtySlot s n).fixed = s.fixed := by simp [State.dirtySlot]

@[simp] theorem State.modMove_fixed (s : State) (p : Page) (f : Move → Move) : (State.modMove s p f).fixed = s.fixed := rfl

@[simp] theorem State.startCopy_fixed (s : State) (m : Move) : (State.startCopy s m).fixed = s.fixed := rfl

@[simp] theorem State.newMove_fixed (s :
    State) (p : Page) (kind : MoveKind) (stage : MoveStage) (askers : List Nat) (frame : Nat) (forced : Bool) : (State.newMove s p kind stage askers frame forced).fixed = s.fixed := by
  simp [State.newMove]

@[simp] theorem State.startDemotion_fixed (s :
    State) (p : Page) (forced : Bool) : (State.startDemotion s p forced).fixed = s.fixed := by
  unfold State.startDemotion; split <;> simp

@[simp] theorem State.makeRoom_fixed (s : State) : (State.makeRoom s).fixed = s.fixed := by
  unfold State.makeRoom
  split
  · rfl
  · split <;> simp

@[simp] theorem State.startPromotion_fixed (s :
    State) (phys : Nat) (p : Page) : (State.startPromotion s phys p).fixed = s.fixed := by
  unfold State.startPromotion
  repeat' (first
    | split
    | simp
    | refine (State.takeFrame_fixed (by assumption)).trans ?_)

@[simp] theorem State.startHintPromotion_fixed (s : State) (p : Page) : (State.startHintPromotion s p).fixed = s.fixed := by
  unfold State.startHintPromotion
  repeat' (first
    | split
    | simp
    | refine (State.takeFrame_fixed (by assumption)).trans ?_)

@[simp] theorem State.takePromo_fixed (s : State) (phys : Nat) (p : Page) : (State.takePromo s phys p).fixed = s.fixed := by
  unfold State.takePromo
  repeat' (first
    | split
    | simp)

@[simp] theorem State.kick_fixed (s : State) : (State.kick s).fixed = s.fixed := by simp [State.kick]

@[simp] theorem State.endMove_fixed (s : State) (m : Move) : (State.endMove s m).fixed = s.fixed := by
  unfold State.endMove
  repeat' (first
    | with_reducible refine (State.fixed_foldl _ (fun s a => ?_) _ _).trans ?_
    | split
    | simp)

@[simp] theorem State.abortMove_fixed (s : State) (m : Move) : (State.abortMove s m).fixed = s.fixed := by
  unfold State.abortMove
  repeat' (first
    | split
    | simp)

@[simp] theorem State.poisonPage_fixed (s :
    State) (p : Page) (row : Nat) : (State.poisonPage s p row).fixed = s.fixed := by simp [State.poisonPage]

@[simp] theorem State.finishPromotion_fixed (s : State) (m : Move) : (State.finishPromotion s m).fixed = s.fixed := by
  unfold State.finishPromotion
  repeat' (first
    | split
    | simp)

@[simp] theorem State.teRename_fixed (s : State) (a b : Nat) : (State.teRename s a b).fixed = s.fixed := rfl

@[simp] theorem State.teFree_fixed (s : State) (t : Nat) : (State.teFree s t).fixed = s.fixed := by
  unfold State.teFree
  repeat' (first
    | split
    | simp)

@[simp] theorem State.teStatus_fixed (s :
    State) (st : BitVec 4) : (State.teStatus s st).fixed = s.fixed := by simp [State.teStatus]

@[simp] theorem State.promotionCopied_fixed (s :
    State) (m : Move) (st : BitVec 4) : (State.promotionCopied s m st).fixed = s.fixed := by simp [State.promotionCopied]

@[simp] theorem State.demoteToPersist_fixed (s : State) (m : Move) : (State.demoteToPersist s m).fixed = s.fixed := by
  unfold State.demoteToPersist
  repeat' (first
    | split
    | simp)

@[simp] theorem State.compress_fixed (s :
    State) (m : Move) (tables : BitVec 2) : (State.compress s m tables).fixed = s.fixed := by
  unfold State.compress; split <;> simp

@[simp] theorem State.takeDack_fixed (s : State) (p : Page) : (State.takeDack s p).fixed = s.fixed := by
  unfold State.takeDack
  repeat' (first
    | split
    | simp)

@[simp] theorem State.takeDnote_fixed (s :
    State) (p : Page) : (State.takeDnote s p).fixed = s.fixed := by unfold State.takeDnote; split <;> simp

@[simp] theorem State.flushDone_fixed (s :
    State) (t : Nat) : (State.flushDone s t).fixed = s.fixed := by unfold State.flushDone; split <;> simp

@[simp] theorem State.compressed_fixed (s :
    State) (m : Move) (st : BitVec 4) (len : Nat) : (State.compressed s m st len).fixed = s.fixed := by
  unfold State.compressed
  repeat' (first
    | split
    | simp
    | refine (State.takeSlot_fixed (by assumption)).trans ?_)

@[simp] theorem State.slotStored_fixed (s :
    State) (m : Move) (st : BitVec 4) : (State.slotStored s m st).fixed = s.fixed := by
  unfold State.slotStored
  repeat' (first
    | split
    | simp)

@[simp] theorem State.demotedToPersist_fixed (s :
    State) (m : Move) (st : BitVec 4) : (State.demotedToPersist s m st).fixed = s.fixed := by
  unfold State.demotedToPersist
  repeat' (first
    | split
    | simp)

@[simp] theorem State.startEviction_fixed (s :
    State) (n : Nat) (p : Page) : (State.startEviction s n p).fixed = s.fixed := by
  unfold State.startEviction
  repeat' (first
    | split
    | simp)

@[simp] theorem State.evicted_fixed (s : State) (m : Move) (st : BitVec 4) : (State.evicted s m st).fixed = s.fixed := by
  unfold State.evicted
  repeat' (first
    | split
    | simp)

@[simp] theorem State.declineMove_fixed (s :
    State) (p : Page) (heat : BitVec 8) : (State.declineMove s p heat).fixed = s.fixed := by
  unfold State.declineMove
  split
  · rfl
  · split <;> simp

@[simp] theorem State.putHeat_fixed (s :
    State) (p : Page) (heat : BitVec 8) : (State.putHeat s p heat).fixed = s.fixed := by unfold State.putHeat; split <;> simp

@[simp] theorem State.abandonMoves_fixed (s : State) : (State.abandonMoves s).fixed = s.fixed := by
  unfold State.abandonMoves
  repeat' (first
    | with_reducible refine (State.fixed_foldl _ (fun s a => ?_) _ _).trans ?_
    | split
    | simp)

@[simp] theorem State.demotionClock_fixed (s : State) : (State.demotionClock s).fixed = s.fixed := by
  unfold State.demotionClock
  repeat' (first
    | split
    | simp)

@[simp] theorem State.evictionClock_fixed (s : State) (k : Nat) : (State.evictionClock s k).fixed = s.fixed := by
  unfold State.evictionClock
  repeat' (first
    | split
    | simp)

@[simp] theorem State.ackMark_fixed (s : State) (phys : Nat) (p : Page) : (State.ackMark s phys p).fixed = s.fixed := rfl

@[simp] theorem State.grantMark_fixed (s : State) (phys : Nat) (p : Page) : (State.grantMark s phys p).fixed = s.fixed := by
  unfold State.grantMark
  repeat' (first
    | split
    | simp)

@[simp] theorem State.takeMark_fixed (s :
    State) (phys : Nat) (p : Page) : (State.takeMark s phys p).fixed = s.fixed := by simp [State.takeMark]

@[simp] theorem State.releaseMark_fixed (s :
    State) : (State.releaseMark s).fixed = s.fixed := by unfold State.releaseMark; split <;> simp

@[simp] theorem State.startCleaning_fixed (s : State) : (State.startCleaning s).fixed = s.fixed := by
  unfold State.startCleaning
  repeat' (first
    | split
    | simp)

@[simp] theorem State.takeCleanAck_fixed (s :
    State) (p : Page) : (State.takeCleanAck s p).fixed = s.fixed := by unfold State.takeCleanAck; split <;> simp

@[simp] theorem State.cleaned_fixed (s :
    State) (c : Cleaning) (st : BitVec 4) : (State.cleaned s c st).fixed = s.fixed := by
  unfold State.cleaned
  repeat' (first
    | split
    | simp)

@[simp] theorem State.checkBudget_fixed (s : State) : (State.checkBudget s).fixed = s.fixed := by simp [State.checkBudget]

@[simp] theorem State.takeStamp_fixed (s :
    State) (phys : Nat) (p : Page) : (State.takeStamp s phys p).fixed = s.fixed := by simp [State.takeStamp]

@[simp] theorem State.sweepOne_fixed (s : State) : (State.sweepOne s).fixed = s.fixed := by simp [State.sweepOne]

@[simp] theorem State.sweep_fixed (s : State) : (State.sweep s).fixed = s.fixed := by
  unfold State.sweep
  repeat' (first
    | with_reducible refine (State.fixed_iter _ (fun s => ?_) _ _).trans ?_
    | split
    | simp)

@[simp] theorem State.sweepIncrement_fixed (s :
    State) : (State.sweepIncrement s).fixed = s.fixed := by simp [State.sweepIncrement]

@[simp] theorem State.loadChunk_fixed (s :
    State) (n : Nat) (pins : List (Page × BitVec 3)) : (State.loadChunk s n pins).fixed = s.fixed := by
  simp [State.loadChunk]

@[simp] theorem State.promotePinned_fixed (s :
    State) (pins : List (Page × BitVec 3)) : (State.promotePinned s pins).fixed = s.fixed := by simp [State.promotePinned]

/-! ### Machine/Root.lean -/

@[simp] theorem State.persistWrites_fixed (n : Nat) (s :
    State) (a : Nat) (ls : List Line) : (State.persistWrites n s a ls).1.fixed = s.fixed := by
  induction n generalizing s a ls with
  | zero => rfl
  | succ n ih =>
    unfold State.persistWrites
    repeat' (first
      | with_reducible rfl
      | split
      | simp [ih])

@[simp] theorem State.writeRoot_fixed (s :
    State) (st : BitVec 8) (manifest progress : Nat) : (State.writeRoot s st manifest progress).fixed = s.fixed := by
  simp [State.writeRoot]

@[simp] theorem State.beginRestart_fixed (s : State) : (State.beginRestart s).fixed = s.fixed := rfl

@[simp] theorem State.writeRunning_fixed (s : State) : (State.writeRunning s).fixed = s.fixed := by simp [State.writeRunning]

@[simp] theorem State.adoptCopy_fixed (s :
    State) (second : Bool) (c : RootCopy) (pins : List Page) : (State.adoptCopy s second c pins).fixed = s.fixed := by
  simp [State.adoptCopy]

@[simp] theorem State.decideRestart_fixed (s :
    State) : (State.decideRestart s).fixed = s.fixed := by unfold State.decideRestart; split <;> simp

@[simp] theorem State.copyRead_fixed (s :
    State) (second : Bool) (r : Option (RootCopy × List Page)) : (State.copyRead s second r).fixed = s.fixed := by
  simp [State.copyRead]

@[simp] theorem State.readPins_fixed (s :
    State) (second : Bool) (c : RootCopy) : (State.readPins s second c).fixed = s.fixed := by simp [State.readPins]

@[simp] theorem State.headerRead_fixed (s :
    State) (second : Bool) (st : BitVec 4) (ls : List PLine) : (State.headerRead s second st ls).fixed = s.fixed := by
  simp [State.headerRead]

@[simp] theorem State.pinsRead_fixed (s :
    State) (second : Bool) (st : BitVec 4) (ls : List PLine) : (State.pinsRead s second st ls).fixed = s.fixed := by
  unfold State.pinsRead; split <;> simp

@[simp] theorem State.readManifest_fixed (s : State) : (State.readManifest s).fixed = s.fixed := by simp [State.readManifest]

@[simp] theorem State.manifestRead_fixed (s :
    State) (from_ : Nat) (ls : List PLine) : (State.manifestRead s from_ ls).fixed = s.fixed := by simp [State.manifestRead]

@[simp] theorem State.installPm_fixed (s :
    State) (p : Page) : (State.installPm s p).fixed = s.fixed := by unfold State.installPm; split <;> simp

@[simp] theorem State.stampPage_fixed (s :
    State) (p : Page) : (State.stampPage s p).fixed = s.fixed := by unfold State.stampPage; split <;> simp

@[simp] theorem State.pinDirty_fixed (s : State) (p : Page) : (State.pinDirty s p).fixed = s.fixed := by
  unfold State.pinDirty
  repeat' (first
    | split
    | simp)

@[simp] theorem State.reconcileOne_fixed (s :
    State) (p : Page) (poison : Bool) : (State.reconcileOne s p poison).fixed = s.fixed := by
  unfold State.reconcileOne
  repeat' (first
    | split
    | simp
    | refine (State.takeFrame_fixed (by assumption)).trans ?_)

@[simp] theorem State.reconcile_fixed (s : State) : (State.reconcile s).fixed = s.fixed := by simp [State.reconcile]

@[simp] theorem State.restartCopied_fixed (s :
    State) (p : Page) (f : Nat) (poison : Bool) : (State.restartCopied s p f poison).fixed = s.fixed := by
  simp [State.restartCopied]

@[simp] theorem State.sendSaves_fixed (n : Nat) (s : State) : (State.sendSaves n s).fixed = s.fixed := by
  induction n generalizing s with
  | zero => rfl
  | succ n ih =>
    unfold State.sendSaves
    repeat' (first
      | with_reducible rfl
      | split
      | simp [ih])

@[simp] theorem State.saveNext_fixed (s : State) (shutdown : Bool) : (State.saveNext s shutdown).fixed = s.fixed := by
  unfold State.saveNext
  split
  · rfl
  · split <;> simp

@[simp] theorem State.beginSave_fixed (s :
    State) (shutdown : Bool) : (State.beginSave s shutdown).fixed = s.fixed := by simp [State.beginSave]

@[simp] theorem State.pageSaved_fixed (s00 :
    State) (idx : Nat) (st : BitVec 4) (shutdown poison : Bool) : (State.pageSaved s00 idx st shutdown poison).fixed = s00.fixed := by
  unfold State.pageSaved
  repeat' (first
    | split
    | simp)

/-! ### Machine/Endgame.lean -/

@[simp] theorem State.enterDrain_fixed (s :
    State) (n : Nat) : (State.enterDrain s n).fixed = s.fixed := by simp [State.enterDrain]

@[simp] theorem State.drainCause_fixed (s :
    State) (n : Nat) : (State.drainCause s n).fixed = s.fixed := by unfold State.drainCause; split <;> simp

@[simp] theorem State.failBlock_fixed (s : State) (code : Nat) : (State.failBlock s code).fixed = s.fixed := by simp [State.failBlock]

@[simp] theorem State.blockFail_fixed (s :
    State) (code : Nat) : (State.blockFail s code).fixed = s.fixed := by simp [State.blockFail]

@[simp] theorem State.egInt_fixed (s : State) (bit : Nat) : (State.egInt s bit).fixed = s.fixed := rfl

@[simp] theorem State.egSettle_fixed (s0 : State) : (State.egSettle s0).fixed = s0.fixed := by
  unfold State.egSettle
  repeat' (first
    | split
    | simp)

@[simp] theorem State.egWake_fixed (s : State) (bit : Nat) : (State.egWake s bit).fixed = s.fixed := by simp [State.egWake]

@[simp] theorem State.egInputs_fixed (s :
    State) (i : EgInputs) : (State.egInputs s i).fixed = s.fixed := by simp [State.egInputs]

@[simp] theorem State.egWarned_fixed (s : State) : (State.egWarned s).fixed = s.fixed := by simp [State.egWarned]

@[simp] theorem State.egVref_fixed (s : State) : (State.egVref s).fixed = s.fixed := by simp [State.egVref]

@[simp] theorem State.egSample_fixed (s :
    State) (c : Nat) (raw : BitVec 12) : (State.egSample s c raw).fixed = s.fixed := by simp [State.egSample]

@[simp] theorem State.adcTurn_fixed (s : State) (c : Nat) (raw : BitVec 12) : (State.adcTurn s c raw).fixed = s.fixed := by
  unfold State.adcTurn
  split
  · rw [State.egSample_fixed]; rfl
  · rfl

@[simp] theorem State.checkShrunk_fixed (s : State) : (State.checkShrunk s).fixed = s.fixed := by simp [State.checkShrunk]

@[simp] theorem State.allowTake_fixed (s :
    State) (a : Nat) : (State.allowTake s a).fixed = s.fixed := by simp [State.allowTake]

@[simp] theorem State.allowCompute_fixed (s : State) : (State.allowCompute s).fixed = s.fixed := by simp [State.allowCompute]

@[simp] theorem State.saveEnd_fixed (s : State) : (State.saveEnd s).fixed = s.fixed := by simp [State.saveEnd]

@[simp] theorem State.warmDrain_fixed (s : State) : (State.warmDrain s).fixed = s.fixed := by
  unfold State.warmDrain
  split
  · rfl
  · split <;> simp

@[simp] theorem State.restartOn_fixed (s : State) : (State.restartOn s).fixed = s.fixed := by simp [State.restartOn]

@[simp] theorem State.resumeService_fixed (s :
    State) : (State.resumeService s).fixed = s.fixed := by simp [State.resumeService]

@[simp] theorem State.rootWritten_fixed (s : State) : (State.rootWritten s).fixed = s.fixed := by simp [State.rootWritten]

/-! ### Machine/Registers.lean -/

@[simp] theorem State.cfgError_fixed (s : State) (o : Nat) : (State.cfgError s o).fixed = s.fixed := by simp [State.cfgError]

@[simp] theorem State.putForce_fixed (s :
    State) (o : Nat) (v : W32) : (State.putForce s o v).fixed = s.fixed := by simp [State.putForce]

@[simp] theorem State.ur_fixed (s : State) : (State.ur s).fixed = s.fixed := rfl

@[simp] theorem State.guarded_fixed (s :
    State) (write : Bool) (off : BitVec 27) : (State.guarded s write off).fixed = s.fixed := rfl

@[simp] theorem State.answer_fixed (s : State) (w : W32) : (State.answer s w).fixed = s.fixed := rfl

@[simp] theorem State.readEffect_fixed (s :
    State) (o : Nat) (m : W32) (gs : Bool) : (State.readEffect s o m gs).fixed = s.fixed := by
  unfold State.readEffect
  repeat' (first
    | with_reducible rfl
    | with_reducible refine State.fixed_branch ?_ ?_
    | split
    | simp
    | with_reducible refine State.fixed_fst (by assumption) ?_
    | with_reducible refine State.fixed_snd (by assumption) ?_)

@[simp] theorem State.touchSlice_fixed (s :
    State) (o : Nat) : (State.touchSlice s o).fixed = s.fixed := by unfold State.touchSlice; split <;> simp

@[simp] theorem State.traceServe_fixed (s : State) (n : Nat) : (State.traceServe s n).fixed = s.fixed := rfl

@[simp] theorem State.traceAll_fixed (s : State) : (State.traceAll s).fixed = s.fixed := rfl

@[simp] theorem State.traceFlit_fixed (s : State) (n : Nat) (r : TraceRec) : (State.traceFlit s n r).fixed = s.fixed := rfl

@[simp] theorem State.regRead_fixed (s :
    State) (off : BitVec 27) (r : RegRd) : (State.regRead s off r).fixed = s.fixed := by simp [State.regRead]

@[simp] theorem State.store_fixed (s :
    State) (o : Nat) (d : RegDef) (v : W32) : (State.store s o d v).fixed = s.fixed := by simp [State.store]

@[simp] theorem State.commit_fixed (s : State) (m : W32) : (State.commit s m).fixed = s.fixed := by simp [State.commit]

@[simp] theorem State.peekErr_fixed (s : State) (p t i : Nat) : (State.peekErr s p t i).fixed = s.fixed := by
  unfold State.peekErr
  repeat' (first
    | split
    | simp)

@[simp] theorem State.peek_fixed (s :
    State) (p : Nat) (ctl : W32) : (State.peek s p ctl).fixed = s.fixed := by unfold State.peek; split <;> simp

/-! ### Machine/Force.lean -/

@[simp] theorem State.dealCredits_fixed (s :
    State) (p : Nat) : (State.dealCredits s p).fixed = s.fixed := by simp [State.dealCredits]

@[simp] theorem State.entryFreed_fixed (s :
    State) (p g : Nat) : (State.entryFreed s p g).fixed = s.fixed := by simp [State.entryFreed]

@[simp] theorem State.mscFollow_fixed (s :
    State) (p : Nat) : (State.mscFollow s p).fixed = s.fixed := by simp [State.mscFollow]

@[simp] theorem State.mscWaysFollow_fixed (s old :
    State) (p : Nat) : (State.mscWaysFollow s old p).fixed = s.fixed := by simp [State.mscWaysFollow]

@[simp] theorem State.sfWaysFollow_fixed (s old :
    State) (p : Nat) : (State.sfWaysFollow s old p).fixed = s.fixed := by simp [State.sfWaysFollow]

@[simp] theorem State.pmcFollow_fixed (s :
    State) (p : Nat) (offs : List Nat) : (State.pmcFollow s p offs).fixed = s.fixed := by simp [State.pmcFollow]

@[simp] theorem State.inForce_fixed (s old :
    State) (offs : List Nat) : (State.inForce s old offs).fixed = s.fixed := by simp [State.inForce]

/-! ### Machine/Loader.lean -/

@[simp] theorem State.loadReg_fixed (s :
    State) (o : Nat) (v : W32) : (State.loadReg s o v).fixed = s.fixed := by unfold State.loadReg; split <;> simp

@[simp] theorem State.loadSec_fixed (s :
    State) (b : List Byte) (n : Nat) : (State.loadSec s b n).fixed = s.fixed := by simp [State.loadSec]

@[simp] theorem State.loadCeils_fixed (s :
    State) (b : List Byte) : (State.loadCeils s b).fixed = s.fixed := by simp [State.loadCeils]

@[simp] theorem State.loadSeeds_fixed (s :
    State) (b : List Byte) : (State.loadSeeds s b).fixed = s.fixed := by simp [State.loadSeeds]

@[simp] theorem State.loadSnpTo_fixed (s :
    State) (b : List Byte) : (State.loadSnpTo s b).fixed = s.fixed := by simp [State.loadSnpTo]

@[simp] theorem State.loadTable_fixed (s :
    State) (b : List Byte) : (State.loadTable s b).fixed = s.fixed := by simp [State.loadTable]

@[simp] theorem State.loadHids_fixed (s :
    State) (b : List Byte) : (State.loadHids s b).fixed = s.fixed := by simp [State.loadHids]

@[simp] theorem State.countPlacement_fixed (s : State) (b : List Byte) : (State.countPlacement s b).fixed = s.fixed := rfl

@[simp] theorem State.loadAll_fixed (s :
    State) (b : List Byte) : (State.loadAll s b).fixed = s.fixed := by simp [State.loadAll]

@[simp] theorem State.walkOne_fixed (st : State × Nat × Bool) (p : Nat) : (State.walkOne st p).1.fixed = st.1.fixed := by
  unfold State.walkOne
  repeat' (first
    | with_reducible rfl
    | split
    | simp)

@[simp] theorem State.walkChannels_fixed (s : State) : (State.walkChannels s).fixed = s.fixed := rfl

@[simp] theorem State.walkAdopt_fixed (s : State) : (State.walkAdopt s).fixed = s.fixed := by
  unfold State.walkAdopt
  repeat' (first
    | split
    | simp)

@[simp] theorem State.walk_fixed (s : State) : (State.walk s).fixed = s.fixed := by simp [State.walk]

@[simp] theorem State.slotRejected_fixed (s :
    State) (slotB : Bool) (sec : Nat) : (State.slotRejected s slotB sec).fixed = s.fixed := rfl

@[simp] theorem State.noImage_fixed (s : State) : (State.noImage s).fixed = s.fixed := rfl

@[simp] theorem State.headersIn_fixed (s :
    State) (a b : List Byte) : (State.headersIn s a b).fixed = s.fixed := by simp [State.headersIn]

@[simp] theorem State.slotFailed_fixed (s :
    State) (sec : Nat) : (State.slotFailed s sec).fixed = s.fixed := by unfold State.slotFailed; split <;> simp

@[simp] theorem State.slotRead_fixed (s : State) (bytes : List Byte) : (State.slotRead s bytes).fixed = s.fixed := by
  unfold State.slotRead
  repeat' (first
    | split
    | simp)

@[simp] theorem State.fallbackSeen_fixed (s :
    State) (was : Bool) : (State.fallbackSeen s was).fixed = s.fixed := by simp [State.fallbackSeen]

@[simp] theorem State.startImage_fixed (s : State) : (State.startImage s).fixed = s.fixed := by simp [State.startImage]

@[simp] theorem State.reloadFailed_fixed (s : State) : (State.reloadFailed s).fixed = s.fixed := rfl

@[simp] theorem State.reloadDone_fixed (s : State) : (State.reloadDone s).fixed = s.fixed := by simp [State.reloadDone]

@[simp] theorem State.reloadTry_fixed (n : Nat) (s : State) : (State.reloadTry n s).fixed = s.fixed := by
  induction n generalizing s with
  | zero => rfl
  | succ n ih =>
    unfold State.reloadTry
    repeat' (first
      | with_reducible rfl
      | split
      | simp [ih])

@[simp] theorem State.beginReload_fixed (s :
    State) (a b : List Byte) : (State.beginReload s a b).fixed = s.fixed := by simp [State.beginReload]

@[simp] theorem State.rotDecide_fixed (s :
    State) (ok : Bool) : (State.rotDecide s ok).fixed = s.fixed := by simp [State.rotDecide]

@[simp] theorem State.fetchEnd_fixed (s : State) (result : BitVec 4) : (State.fetchEnd s result).fixed = s.fixed := rfl

@[simp] theorem State.fetchRead_fixed (s :
    State) (f : Fetch) (bytes : Nat) : (State.fetchRead s f bytes).fixed = s.fixed := by simp [State.fetchRead]

@[simp] theorem State.startFetch_fixed (s : State) : (State.startFetch s).fixed = s.fixed := by simp [State.startFetch]

@[simp] theorem State.setFetch_fixed (s :
    State) (f : Fetch) (st : FetchStep) : (State.setFetch s f st).fixed = s.fixed := rfl

@[simp] theorem State.nextPage_fixed (s :
    State) (f : Fetch) (n : Nat) : (State.nextPage s f n).fixed = s.fixed := by simp [State.nextPage]

@[simp] theorem State.erased_fixed (s : State) (f : Fetch) : (State.erased s f).fixed = s.fixed := by simp [State.erased]

@[simp] theorem State.fetchHeader_fixed (s :
    State) (f : Fetch) (bytes : List Byte) : (State.fetchHeader s f bytes).fixed = s.fixed := by simp [State.fetchHeader]

@[simp] theorem State.fetchStep_fixed (s : State) (e : FetchEvent) : (State.fetchStep s e).fixed = s.fixed := by
  unfold State.fetchStep
  split
  · rfl
  · split <;> simp

@[simp] theorem State.norTimeout_fixed (s : State) : (State.norTimeout s).fixed = s.fixed := by
  unfold State.norTimeout
  split
  · rfl
  · split <;> simp

@[simp] theorem State.ldCmd_fixed (s : State) (w : W32) : (State.ldCmd s w).fixed = s.fixed := by simp [State.ldCmd]

/-! ### Machine/Fabric.lean -/

@[simp] theorem State.probeFlit_fixed (s :
    State) (n : Nat) (fl : Flit) : (State.probeFlit s n fl).fixed = s.fixed := by simp [State.probeFlit]

@[simp] theorem State.probesFollow_fixed (s : State) : (State.probesFollow s).fixed = s.fixed := rfl

end Sys2Proof.Machine
end

