-- ==== Sys2Proof/Laws/FixedSlice.lean ====
section
/-! SUPPORT. Each operation keeps the variant, the queue and the number of ports, host identities and slices: the home slices, the ports and the Rook ring. -/

namespace Sys2Proof.Machine

open Sys2Proof

set_option linter.unreachableTactic false
set_option linter.unusedTactic false
set_option linter.unusedSimpArgs false

/-! ### Machine/Messages.lean -/

@[simp] theorem State.pmRequest_fixed (s :
    State) (p : Nat) (pg : Page) : (State.pmRequest s p pg).fixed = s.fixed := by unfold State.pmRequest; split <;> simp

@[simp] theorem State.kpLoads_fixed (s : State) : (State.kpLoads s).fixed = s.fixed := by
  unfold State.kpLoads
  exact (State.fixed_foldl _ (fun s a => by simp) _ _).trans rfl

@[simp] theorem State.kpLoaded_fixed (s : State) (p : Nat) (pg : Page) : (State.kpLoaded s p pg).fixed = s.fixed := by
  unfold State.kpLoaded
  split
  · rfl
  · rw [State.kpLoads_fixed]; rfl

@[simp] theorem State.markFenced_fixed (s :
    State) (h cause : Nat) : (State.markFenced s h cause).fixed = s.fixed := by unfold State.markFenced; split <;> simp

@[simp] theorem State.queueReturn_fixed (s : State) (m : S2M) : (State.queueReturn s m).fixed = s.fixed := by
  unfold State.queueReturn
  repeat' (first
    | split
    | simp)

@[simp] theorem State.meshS2M_fixed (s :
    State) (port : Nat) (m : S2M) : (State.meshS2M s port m).fixed = s.fixed := by unfold State.meshS2M; split <;> simp

@[simp] theorem State.putS2M_fixed (s :
    State) (port : Nat) (m : S2M) : (State.putS2M s port m).fixed = s.fixed := by simp [State.putS2M]

@[simp] theorem State.emitS2M_fixed (s : State) (port : Nat) (m : S2M) : (State.emitS2M s port m).fixed = s.fixed := by
  unfold State.emitS2M
  repeat' (first
    | split
    | simp)

@[simp] theorem State.number_fixed (s :
    State) (m : S2M) : (State.number s m).2.fixed = s.fixed := by unfold State.number; split <;> simp

@[simp] theorem State.hostError_fixed (s :
    State) (port hid : Nat) (k : Inp) (tag : Nat) (line : LineAddr) : (State.hostError s port hid k tag line).fixed = s.fixed := by
  unfold State.hostError; split <;> simp

@[simp] theorem State.putARsp_fixed (s :
    State) (port : Nat) (r : ARsp) (fence : Bool) : (State.putARsp s port r fence).fixed = s.fixed := by simp [State.putARsp]

@[simp] theorem State.emitARsp_fixed (s :
    State) (port : Nat) (r : ARsp) : (State.emitARsp s port r).fixed = s.fixed := by simp [State.emitARsp]

@[simp] theorem State.emit_fixed (s :
    State) (m : OutMsg) : (State.emit s m).fixed = s.fixed := by unfold State.emit; split <;> simp

@[simp] theorem releaseHeld_fixed (l : List Held) (s : State) : (releaseHeld s l).1.fixed = s.fixed := by
  induction l generalizing s with
  | nil => rfl
  | cons h r ih =>
    unfold releaseHeld
    split <;> simp [ih]

@[simp] theorem State.ringPut_fixed (s :
    State) (w : RingWait) : (State.ringPut s w).fixed = s.fixed := by unfold State.ringPut; split <;> simp

@[simp] theorem State.ringFill_fixed (n : Nat) (s : State) : (State.ringFill n s).fixed = s.fixed := by
  induction n generalizing s with
  | zero => rfl
  | succ n ih =>
    unfold State.ringFill
    repeat' (first
      | with_reducible rfl
      | split
      | simp [ih])

@[simp] theorem State.ringInject_fixed (s :
    State) (w : RingWait) : (State.ringInject s w).fixed = s.fixed := by simp [State.ringInject]

@[simp] theorem State.slotFreed_fixed (s :
    State) (gone : Option (Bool × Nat)) : (State.slotFreed s gone).fixed = s.fixed := by
  unfold State.slotFreed; split <;> simp

@[simp] theorem State.ringEject_fixed (s :
    State) (hit : RingFlit → Bool) : (State.ringEject s hit).fixed = s.fixed := by simp [State.ringEject]

@[simp] theorem State.sendBISnp_fixed (s :
    State) (p hid : Nat) (line : LineAddr) (kind : HSnp) (lines : Nat) (c : Option Cls) (k : Bool) : (State.sendBISnp s p hid line kind lines c k).fixed = s.fixed := by
  unfold State.sendBISnp
  repeat' (first
    | split
    | simp)

@[simp] theorem State.sendRSnp_fixed (s : State) (p trk : Nat) (kind : ASnp) (line : LineAddr) (vic : Bool) (src : Src) (fwdOk : Bool) (fwd : Nat)
    (retry : Bool) (c : Option Cls) : (State.sendRSnp s p trk kind line vic src fwdOk fwd retry c).fixed = s.fixed := by simp [State.sendRSnp]

@[simp] theorem State.readLine_fixed (s :
    State) (p : Nat) (t : Tracker) (e : PEnt) (l : LineAddr) (keep : Bool) : (State.readLine s p t e l keep).fixed = s.fixed := by
  simp [State.readLine]

@[simp] theorem State.writeNib_fixed (s :
    State) (p : Nat) (t : Tracker) (vic : Bool) (e : PEnt) (l : LineAddr) (n : Nib) : (State.writeNib s p t vic e l n).fixed = s.fixed := by
  simp [State.writeNib]

@[simp] theorem State.readBucket_fixed (s :
    State) (p : Nat) (t : Tracker) (l : LineAddr) (use : BktUse) : (State.readBucket s p t l use).fixed = s.fixed := by
  simp [State.readBucket]

@[simp] theorem State.writeBucket_fixed (s :
    State) (p : Nat) (t : Tracker) (vic : Bool) (l : LineAddr) (b : Line) : (State.writeBucket s p t vic l b).fixed = s.fixed := by
  simp [State.writeBucket]

@[simp] theorem State.bktIssue_fixed (s :
    State) (p : Nat) (t : Tracker) (use : BktUse) : (State.bktIssue s p t use).1.fixed = s.fixed := by
  unfold State.bktIssue
  repeat' (first
    | split
    | simp)

@[simp] theorem State.bktKick_fixed (s : State) (p : Nat) : (State.bktKick s p).fixed = s.fixed := by
  unfold State.bktKick
  repeat' (first
    | with_reducible refine (State.fixed_foldl _ (fun s a => ?_) _ _).trans ?_
    | split
    | simp)

@[simp] theorem State.ringDoorbell_fixed (s :
    State) (l : LineAddr) : (State.ringDoorbell s l).fixed = s.fixed := by unfold State.ringDoorbell; split <;> simp

/-! ### Machine/DataPath.lean -/

/-- A fold of an operation that keeps what is fixed keeps it. -/
@[simp] theorem Run.fixed_foldl {α : Type} (f :
    Run → α → Run) (hf : ∀ r a, (f r a).s.fixed = r.s.fixed) (l : List α) (r : Run) :
    (l.foldl f r).s.fixed = r.s.fixed := by
  induction l generalizing r with
  | nil => rfl
  | cons a l ih => rw [List.foldl_cons, ih, hf]

@[simp] theorem Run.modSl_fixed (r : Run) (f : Slice → Slice) : (Run.modSl r f).s.fixed = r.s.fixed := by simp [Run.modSl]

@[simp] theorem Run.ack_fixed (r : Run) (k : AckKind) : (Run.ack r k).s.fixed = r.s.fixed := rfl

@[simp] theorem State.drawLine_fixed (s : State) : (State.drawLine s).2.fixed = s.fixed := rfl

@[simp] theorem takeData_fixed (s :
    State) (m : InMsg) (old : Option (Line × Bool)) : (takeData s m old).2.2.fixed = s.fixed := by
  unfold takeData
  split
  · rfl
  · split <;> simp

@[simp] theorem Run.take_fixed (r : Run) : (Run.take r).s.fixed = r.s.fixed := by
  unfold Run.take
  repeat' (first
    | split
    | simp)

@[simp] theorem Run.atom_fixed (r : Run) : (Run.atom r).s.fixed = r.s.fixed := by
  unfold Run.atom
  repeat' (first
    | split
    | simp)

@[simp] theorem State.poisonLine_fixed (s :
    State) (p : Nat) (l : LineAddr) (k : Bool) : (State.poisonLine s p l k).s.fixed = s.fixed := by
  unfold State.poisonLine
  repeat' (first
    | split
    | simp)

@[simp] theorem Run.pois_fixed (r : Run) : (Run.pois r).s.fixed = r.s.fixed := by
  unfold Run.pois
  repeat' (first
    | split
    | simp)

@[simp] theorem Run.holderMig_fixed (r :
    Run) (last inv : Bool) : (Run.holderMig r last inv).s.fixed = r.s.fixed := by unfold Run.holderMig; split <;> simp

@[simp] theorem Run.holder_fixed (r : Run) : (Run.holder r).s.fixed = r.s.fixed := by
  unfold Run.holder
  repeat' (first
    | split
    | simp)

@[simp] theorem Run.recordNib_fixed (r :
    Run) (dir : BitVec 2) (only : Bool) : (Run.recordNib r dir only).s.fixed = r.s.fixed := by
  unfold Run.recordNib
  repeat' (first
    | split
    | simp)

@[simp] theorem Run.nibw_fixed (r : Run) : (Run.nibw r).s.fixed = r.s.fixed := by
  unfold Run.nibw
  repeat' (first
    | split
    | simp)

@[simp] theorem Run.dirtyMark_fixed (r : Run) : (Run.dirtyMark r).s.fixed = r.s.fixed := by
  unfold Run.dirtyMark
  repeat' (first
    | split
    | simp)

@[simp] theorem Run.eff_fixed (r : Run) (e : CEff) : (Run.eff r e).s.fixed = e.s.fixed := rfl

@[simp] theorem Run.writeLine_fixed (r : Run) (d : Line) (po : Bool) : (Run.writeLine r d po).s.fixed = r.s.fixed := by
  unfold Run.writeLine
  repeat' (first
    | split
    | simp)

@[simp] theorem Run.cacheMark_fixed (r :
    Run) : (Run.cacheMark r).s.fixed = r.s.fixed := by unfold Run.cacheMark; split <;> simp

@[simp] theorem Run.cache_fixed (r0 : Run) : (Run.cache r0).s.fixed = r0.s.fixed := by
  unfold Run.cache
  repeat' (first
    | split
    | simp)

@[simp] theorem Run.startVictim_fixed (r :
    Run) (v : Entry) (bi : Bool) : (Run.startVictim r v bi).s.fixed = r.s.fixed := by unfold Run.startVictim; split <;> simp

@[simp] theorem Run.sfw_fixed (r : Run) : (Run.sfw r).s.fixed = r.s.fixed := by
  unfold Run.sfw
  repeat' (first
    | split
    | simp)

@[simp] theorem Run.resv_fixed (r : Run) : (Run.resv r).s.fixed = r.s.fixed := by
  unfold Run.resv
  repeat' (first
    | split
    | simp)

@[simp] theorem Run.prefetch_fixed (r : Run) : (Run.prefetch r).s.fixed = r.s.fixed := by
  unfold Run.prefetch
  repeat' (first
    | split
    | simp)

@[simp] theorem Run.read_fixed (r : Run) (keep : Bool) : (Run.read r keep).s.fixed = r.s.fixed := by
  unfold Run.read
  repeat' (first
    | split
    | simp)

@[simp] theorem Run.bucketRead_fixed (r : Run) : (Run.bucketRead r).s.fixed = r.s.fixed := by simp [Run.bucketRead]

@[simp] theorem Run.putBucket_fixed (r :
    Run) (l : LineAddr) (b : Line) : (Run.putBucket r l b).s.fixed = r.s.fixed := by simp [Run.putBucket]

@[simp] theorem Run.bucketWrite_fixed (r : Run) : (Run.bucketWrite r).s.fixed = r.s.fixed := by
  unfold Run.bucketWrite
  repeat' (first
    | split
    | simp)

@[simp] theorem Run.spillRead_fixed (r :
    Run) : (Run.spillRead r).s.fixed = r.s.fixed := by unfold Run.spillRead; split <;> simp

@[simp] theorem Run.mem_fixed (r : Run) : (Run.mem r).s.fixed = r.s.fixed := by
  unfold Run.mem
  repeat' (first
    | split
    | simp)

@[simp] theorem Run.mirror_fixed (r : Run) (send : Bool) : (Run.mirror r send).1.s.fixed = r.s.fixed := by
  unfold Run.mirror
  repeat' (first
    | split
    | simp)

@[simp] theorem Run.stamp_fixed (r : Run) : (Run.stamp r).s.fixed = r.s.fixed := by
  unfold Run.stamp
  repeat' (first
    | split
    | simp)

@[simp] theorem Run.takeHeld_fixed (r :
    Run) (l : LineAddr) (hid : Option Nat) : (Run.takeHeld r l hid).s.fixed = r.s.fixed := by
  unfold Run.takeHeld
  repeat' (first
    | split
    | simp)

@[simp] theorem Run.snoopHost_fixed (r :
    Run) (kind : HSnp) (l : LineAddr) (vic owner : Bool) (h : Nat) : (Run.snoopHost r kind l vic owner h).s.fixed = r.s.fixed := by
  unfold Run.snoopHost
  split
  · rfl
  · split <;> simp

@[simp] theorem Run.snoopPage_fixed (r : Run) (pg : Page) : (Run.snoopPage r pg).s.fixed = r.s.fixed := by
  unfold Run.snoopPage
  refine Run.fixed_foldl _ (fun r h => ?_) _ _
  dsimp only
  split
  · rfl
  · refine Run.fixed_foldl _ (fun r f => ?_) _ _
    split <;> simp

@[simp] theorem Run.bisnp_fixed (r : Run) : (Run.bisnp r).s.fixed = r.s.fixed := by
  unfold Run.bisnp
  repeat' (first
    | split
    | simp)

@[simp] theorem Run.snoopAgents_fixed (r :
    Run) (kind : ASnp) (l : LineAddr) (vic : Bool) (fwd : Nat) : (Run.snoopAgents r kind l vic fwd).s.fixed = r.s.fixed := by
  simp [Run.snoopAgents]

@[simp] theorem Run.rsnp_fixed (r : Run) : (Run.rsnp r).s.fixed = r.s.fixed := by
  unfold Run.rsnp
  repeat' (first
    | split
    | simp)

@[simp] theorem Run.snoopVictim_fixed (r :
    Run) : (Run.snoopVictim r).s.fixed = r.s.fixed := by unfold Run.snoopVictim; split <;> simp

@[simp] theorem Run.post_fixed (r : Run) (m : OutMsg) (uid : Option Nat) : (Run.post r m uid).s.fixed = r.s.fixed := by
  unfold Run.post
  repeat' (first
    | split
    | simp)

@[simp] theorem Run.outLine_fixed (r : Run) : (Run.outLine r).2.fixed = r.s.fixed := by unfold Run.outLine; split <;> simp

@[simp] theorem Run.hostRsp_fixed (r : Run) (uid : Option Nat) : (Run.hostRsp r uid).s.fixed = r.s.fixed := by
  unfold Run.hostRsp
  repeat' (first
    | split
    | simp)

@[simp] theorem Run.agentRsp_fixed (r : Run) (uid : Option Nat) : (Run.agentRsp r uid).s.fixed = r.s.fixed := by
  unfold Run.agentRsp
  repeat' (first
    | split
    | simp)

@[simp] theorem Run.resultSlot_fixed (r : Run) : (Run.resultSlot r).s.fixed = r.s.fixed := by
  unfold Run.resultSlot
  repeat' (first
    | split
    | simp)

@[simp] theorem State.flushPage_fixed (s : State) (p : Nat) (pg : Page) : (State.flushPage s p pg).fixed = s.fixed := by
  unfold State.flushPage
  repeat' (first
    | with_reducible refine (State.fixed_foldl _ (fun s a => ?_) _ _).trans ?_
    | split
    | simp)

@[simp] theorem State.quiesceKick_fixed (s : State) (p : Nat) : (State.quiesceKick s p).fixed = s.fixed := by
  unfold State.quiesceKick
  repeat' (first
    | with_reducible refine (State.fixed_foldl _ (fun s a => ?_) _ _).trans ?_
    | split
    | simp)

@[simp] theorem Run.notes_fixed (r : Run) : (Run.notes r).s.fixed = r.s.fixed := by
  unfold Run.notes
  extract_lets pg r1 r2 r3 st det s4
  have h1 : r1.s.fixed = r.s.fixed := by simp only [r1]; split <;> [split <;> simp; rfl]
  have h2 : r2.s.fixed = r.s.fixed := by simp only [r2]; split <;> simp [h1]
  have h3 : r3.s.fixed = r.s.fixed := by simp only [r3]; split <;> simp [h2]
  have h4 : s4.fixed = r.s.fixed := by simp only [s4]; split <;> simp [h3]
  simp [h4]

/-! ### Machine/Sequencer.lean -/

@[simp] theorem State.fetchErrs_fixed (s :
    State) (p : Nat) (_sl : Slice) (t : Tracker) (m : InMsg) (look : Bool) (c : Cond) : (State.fetchErrs s p _sl t m look c).1.fixed = s.fixed := by
  unfold State.fetchErrs
  repeat' (first
    | split
    | simp)

@[simp] theorem State.wayKick_fixed (s :
    State) (p : Nat) : (State.wayKick s p).fixed = s.fixed := by unfold State.wayKick; split <;> simp

@[simp] theorem State.retire_fixed (s :
    State) (p n : Nat) : (State.retire s p n).fixed = s.fixed := by unfold State.retire; split <;> simp

@[simp] theorem State.tryRetire_fixed (s :
    State) (p n : Nat) : (State.tryRetire s p n).fixed = s.fixed := by unfold State.tryRetire; split <;> simp

@[simp] theorem Run.victimDone_fixed (r : Run) : (Run.victimDone r).s.fixed = r.s.fixed := by
  unfold Run.victimDone
  repeat' (first
    | split
    | simp)

@[simp] theorem Run.victimStep_fixed (r : Run) : (Run.victimStep r).s.fixed = r.s.fixed := by
  unfold Run.victimStep
  repeat' (first
    | split
    | simp)

@[simp] theorem Run.vstart_fixed (r : Run) : (Run.vstart r).s.fixed = r.s.fixed := by unfold Run.vstart; split <;> simp

@[simp] theorem Run.next_fixed (r : Run) : (Run.next r).s.fixed = r.s.fixed := by
  unfold Run.next
  repeat' (first
    | split
    | simp)

@[simp] theorem Run.idleSnoop_fixed (r : Run) : (Run.idleSnoop r).s.fixed = r.s.fixed := by
  unfold Run.idleSnoop
  repeat' (first
    | split
    | simp)

@[simp] theorem Run.early_fixed (r : Run) : (Run.early r).s.fixed = r.s.fixed := by simp [Run.early]

@[simp] theorem Run.finish_fixed (r0 : Run) : (Run.finish r0).fixed = r0.s.fixed := by
  unfold Run.finish
  repeat' (first
    | split
    | simp)

@[simp] theorem State.applyWord_fixed (s : State) (p : Nat) (t : Tracker) (m : InMsg) (w : Word) (look : Bool) :
    (State.applyWord s p t m w look).fixed = s.fixed := by
  unfold State.applyWord
  extract_lets r
  have h : r.s.fixed = s.fixed := (Run.early_fixed _).trans rfl
  clear_value r
  split
  · exact (State.modTrk_fixed ..).trans h
  · exact (Run.finish_fixed r).trans h

@[simp] theorem Stall.resume_fixed (x : Stall) (s :
    State) (p : Nat) (t : Tracker) : (Stall.resume x s p t).s.fixed = s.fixed := rfl

@[simp] theorem State.sweepDone_fixed (s :
    State) (p n : Nat) : (State.sweepDone s p n).fixed = s.fixed := by unfold State.sweepDone; split <;> simp

@[simp] theorem State.sweepInput_fixed (s :
    State) (p : Nat) (sl : Slice) (t : Tracker) (m : InMsg) : (State.sweepInput s p sl t m).fixed = s.fixed := by
  simp [State.sweepInput]

@[simp] theorem State.poisonHere_fixed (s :
    State) (p : Nat) (l : LineAddr) (row : Nat) : (State.poisonHere s p l row).fixed = s.fixed := by simp [State.poisonHere]

@[simp] theorem State.poisonOwned_fixed (s :
    State) (p : Nat) (l : LineAddr) : (State.poisonOwned s p l).fixed = s.fixed := by simp [State.poisonOwned]

@[simp] theorem State.purge_fixed (s :
    State) (p : Nat) (l : LineAddr) : (State.purge s p l).fixed = s.fixed := by unfold State.purge; split <;> simp

@[simp] theorem State.purgeHit_fixed (s : State) (p : Nat) (e : Entry) : (State.purgeHit s p e).1.fixed = s.fixed := by
  unfold State.purgeHit
  repeat' (first
    | split
    | simp)

@[simp] theorem State.evaluate_fixed (s :
    State) (p : Nat) (t : Tracker) (m : InMsg) (look : Bool) : (State.evaluate s p t m look).fixed = s.fixed := by
  unfold State.evaluate
  repeat' (first
    | split
    | simp)

@[simp] theorem State.deferWrite_fixed (s :
    State) (p : Nat) (sl : Slice) (t : Tracker) (m : InMsg) : (State.deferWrite s p sl t m).fixed = s.fixed := by
  simp [State.deferWrite]

@[simp] theorem State.process_fixed (s0 : State) (p n : Nat) (m : InMsg) : (State.process s0 p n m).fixed = s0.fixed := by
  unfold State.process
  repeat' (first
    | with_reducible rfl
    | split
    | simp
    | with_reducible refine State.fixed_fst (by assumption) ?_
    | with_reducible refine State.fixed_snd (by assumption) ?_)

@[simp] theorem State.pump_fixed (n : Nat) (s : State) (p t : Nat) : (State.pump n s p t).fixed = s.fixed := by
  induction n generalizing s with
  | zero => rfl
  | succ n ih =>
    unfold State.pump
    repeat' (first
      | with_reducible rfl
      | split
      | simp [ih])

@[simp] theorem State.feed_fixed (s : State) (p n : Nat) (m : InMsg) : (State.feed s p n m).fixed = s.fixed := by
  unfold State.feed
  repeat' (first
    | split
    | simp)

@[simp] theorem State.unstall_fixed (s : State) (p : Nat) : (State.unstall s p).fixed = s.fixed := by
  unfold State.unstall
  repeat' (first
    | with_reducible refine (State.fixed_foldl _ (fun s a => ?_) _ _).trans ?_
    | split
    | simp)

@[simp] theorem State.lookupErrs_fixed (s :
    State) (p : Nat) (l : LineAddr) : (State.lookupErrs s p l).1.fixed = s.fixed := by
  unfold State.lookupErrs
  repeat' (first
    | split
    | simp)

@[simp] theorem State.bufErrs_fixed (s : State) (p : Nat) (l : LineAddr) : (State.bufErrs s p l).fixed = s.fixed := by
  unfold State.bufErrs
  split
  · rfl
  · split <;> simp

@[simp] theorem State.chooseAtom_fixed (s :
    State) (p : Nat) (t : Tracker) : (State.chooseAtom s p t).1.fixed = s.fixed := by unfold State.chooseAtom; split <;> simp

@[simp] theorem State.pmErrs_fixed (s :
    State) (p : Nat) (pg : Page) : (State.pmErrs s p pg).fixed = s.fixed := by unfold State.pmErrs; split <;> simp

@[simp] theorem State.lookup_fixed (sa : State) (p n : Nat) : (State.lookup sa p n).fixed = sa.fixed := by
  unfold State.lookup
  repeat' (first
    | with_reducible rfl
    | simp; done
    | split
    | simp
    | with_reducible refine State.fixed_fst (by assumption) ?_
    | with_reducible refine State.fixed_snd (by assumption) ?_)

@[simp] theorem State.lookupPump_fixed (s : State) (p n : Nat) : (State.lookupPump s p n).fixed = s.fixed := by
  unfold State.lookupPump
  repeat' (first
    | split
    | simp)

@[simp] theorem State.noteOcc_fixed (s : State) (p : Nat) : (State.noteOcc s p).fixed = s.fixed := by simp [State.noteOcc]

@[simp] theorem State.raiseFor_fixed (s :
    State) (p : Nat) (t : Tracker) (q : Req) : (State.raiseFor s p t q).fixed = s.fixed := by simp [State.raiseFor]

@[simp] theorem State.enterHold_fixed (s : State) (p : Nat) (q : Req) : (State.enterHold s p q).fixed = s.fixed := by
  unfold State.enterHold
  repeat' (first
    | split
    | simp)

@[simp] theorem State.openTracker_fixed (s :
    State) (p : Nat) (q : Req) (pool : Pool) (waited : Bool) : (State.openTracker s p q pool waited).fixed = s.fixed := by
  unfold State.openTracker
  split
  · rfl
  · split <;> simp

@[simp] theorem State.present_fixed (s :
    State) (p : Nat) (q : Req) (pool : Pool) : (State.present s p q pool).fixed = s.fixed := by
  unfold State.present
  repeat' (first
    | split
    | simp)

/-! ### Machine/Hids.lean -/

@[simp] theorem State.forgetGrant_fixed (s :
    State) (p : Nat) (l : LineAddr) (h : Nat) : (State.forgetGrant s p l h).fixed = s.fixed := by simp [State.forgetGrant]

@[simp] theorem State.poisonHome_fixed (s :
    State) (l : LineAddr) : (State.poisonHome s l).fixed = s.fixed := by unfold State.poisonHome; split <;> simp

@[simp] theorem State.sweepHid_fixed (s : State) (h : Nat) : (State.sweepHid s h).fixed = s.fixed := by
  unfold State.sweepHid
  repeat' (first
    | with_reducible refine (State.fixed_foldl _ (fun s a => ?_) _ _).trans ?_
    | split
    | simp)

@[simp] theorem State.dropQueue_fixed (s : State) (h p : Nat) : (State.dropQueue s h p).fixed = s.fixed := by
  unfold State.dropQueue
  repeat' (first
    | with_reducible refine (State.fixed_foldl _ (fun s a => ?_) _ _).trans ?_
    | split
    | simp)

@[simp] theorem State.answerFor_fixed (s : State) (h p : Nat) : (State.answerFor s h p).fixed = s.fixed := by
  unfold State.answerFor
  repeat' (first
    | with_reducible refine (State.fixed_foldl _ (fun s a => ?_) _ _).trans ?_
    | split
    | simp)

@[simp] theorem State.expireHid_fixed (s :
    State) (h : Nat) : (State.expireHid s h).fixed = s.fixed := by simp [State.expireHid]

@[simp] theorem State.fenceSettle_fixed (s : State) : (State.fenceSettle s).fixed = s.fixed := by
  unfold State.fenceSettle
  repeat' (first
    | with_reducible refine (State.fixed_foldl _ (fun s a => ?_) _ _).trans ?_
    | split
    | simp)

@[simp] theorem State.resendSlice_fixed (n : Nat) (s :
    State) (p h : Nat) (data : Option (Line × Bool)) : (State.resendSlice n s p h data).fixed = s.fixed := by
  induction n generalizing s data with
  | zero => rfl
  | succ n ih =>
    unfold State.resendSlice
    repeat' (first
      | with_reducible rfl
      | split
      | simp [ih])

@[simp] theorem State.resend_fixed (s : State) (h : Nat) : (State.resend s h).fixed = s.fixed := by simp [State.resend]

@[simp] theorem State.resendData_fixed (s :
    State) (p h : Nat) (d : Line) (po : Bool) : (State.resendData s p h d po).fixed = s.fixed := by
  unfold State.resendData
  repeat' (first
    | split
    | simp)

@[simp] theorem State.bindHid_fixed (s :
    State) (h : Nat) : (State.bindHid s h).fixed = s.fixed := by unfold State.bindHid; split <;> simp

@[simp] theorem State.bindHids_fixed (s : State) : (State.bindHids s).fixed = s.fixed := by simp [State.bindHids]

@[simp] theorem State.unbindHid_fixed (s :
    State) (h : Nat) : (State.unbindHid s h).fixed = s.fixed := by unfold State.unbindHid; split <;> simp

/-! ### Machine/Inputs.lean -/

@[simp] theorem State.sideSweep_fixed (n : Nat) (s : State) (p : Nat) : (State.sideSweep n s p).fixed = s.fixed := by
  induction n generalizing s with
  | zero => rfl
  | succ n ih =>
    unfold State.sideSweep
    repeat' (first
      | with_reducible rfl
      | split
      | simp [ih])

@[simp] theorem State.settleIn_fixed (s :
    State) (p : Nat) : (State.settleIn s p).fixed = s.fixed := by unfold State.settleIn; split <;> simp

@[simp] theorem State.accept_fixed (s :
    State) (p n : Nat) (q0 : Req) : (State.accept s p n q0).fixed = s.fixed := by unfold State.accept; split <;> simp

@[simp] theorem State.earlyAnswer_fixed (s :
    State) (p : Nat) (t : Tracker) (m : InMsg) : (State.earlyAnswer s p t m).fixed = s.fixed := by
  unfold State.earlyAnswer; split <;> simp

@[simp] theorem State.holdRelease_fixed (s :
    State) (p : Nat) (l : LineAddr) : (State.holdRelease s p l).fixed = s.fixed := by
  unfold State.holdRelease
  repeat' (first
    | split
    | simp)

@[simp] theorem State.meshReq_fixed (s :
    State) (p : Nat) (q : Req) (k : Bool) : (State.meshReq s p q k).fixed = s.fixed := by simp [State.meshReq]

@[simp] theorem State.arrive_fixed (s : State) (p : Nat) (q0 : Req) : (State.arrive s p q0).fixed = s.fixed := by
  unfold State.arrive
  repeat' (first
    | split
    | simp)

@[simp] theorem State.releaseFrom_fixed (l : List Req) (s : State) (stay : List Req) :
    (State.releaseFrom l s stay).1.fixed = s.fixed := by
  induction l generalizing s stay with
  | nil => rfl
  | cons q l ih =>
    unfold State.releaseFrom
    repeat' (first
      | with_reducible rfl
      | split
      | simp [ih])

@[simp] theorem State.portRelease_fixed (s :
    State) (port : Nat) : (State.portRelease s port).fixed = s.fixed := by unfold State.portRelease; split <;> simp

@[simp] theorem State.portsRelease_fixed (s : State) : (State.portsRelease s).fixed = s.fixed := by simp [State.portsRelease]

/-! ### Machine/Slots.lean -/

@[simp] theorem State.modArb_fixed (s :
    State) (p : Nat) (f : Arb → Arb) : (State.modArb s p f).fixed = s.fixed := by simp [State.modArb]

@[simp] theorem State.deadCycle_fixed (s :
    State) (p : Nat) : (State.deadCycle s p).fixed = s.fixed := by simp [State.deadCycle]

@[simp] theorem State.grant_fixed (s :
    State) (p : Nat) (sl : Slice) (c : Cand) (may first : Req → Bool) : (State.grant s p sl c may first).fixed = s.fixed := by
  unfold State.grant; split <;> simp

@[simp] theorem State.maintTurn_fixed (s : State) (p : Nat) (sl : Slice) : (State.maintTurn s p sl).fixed = s.fixed := by
  unfold State.maintTurn
  repeat' (first
    | split
    | simp)

@[simp] theorem State.lotterySlot_fixed (s :
    State) (p : Nat) (sl : Slice) (draw : Option Cand) : (State.lotterySlot s p sl draw).fixed = s.fixed := by
  unfold State.lotterySlot
  repeat' (first
    | split
    | simp)

@[simp] theorem State.slot_fixed (s :
    State) (p : Nat) (sl : Slice) (kind : SlotKind) (dq dl : Option Cand) : (State.slot s p sl kind dq dl).fixed = s.fixed := by
  unfold State.slot
  repeat' (first
    | split
    | simp)

@[simp] theorem State.cycleCounts_fixed (s :
    State) (p : Nat) (sl : Slice) : (State.cycleCounts s p sl).fixed = s.fixed := by simp [State.cycleCounts]

@[simp] theorem State.starve_fixed (s :
    State) (p : Nat) (before : List InputQ) (had : List Nat) : (State.starve s p before had).fixed = s.fixed := by
  simp [State.starve]

@[simp] theorem State.issueSlot_fixed (s :
    State) (p : Nat) : (State.issueSlot s p).fixed = s.fixed := by unfold State.issueSlot; split <;> simp

@[simp] theorem State.slotsFor_fixed (k : Nat) (s :
    State) (p n seq : Nat) : (State.slotsFor k s p n seq).fixed = s.fixed := by
  induction k generalizing s with
  | zero => rfl
  | succ k ih =>
    unfold State.slotsFor
    repeat' (first
      | with_reducible rfl
      | split
      | simp [ih])

@[simp] theorem State.arriveBy_fixed (s :
    State) (p : Nat) (q : Req) (home : Bool) : (State.arriveBy s p q home).fixed = s.fixed := by
  unfold State.arriveBy; split <;> simp

@[simp] theorem State.toSelfSlot_fixed (n : Nat) (s : State) (p : Nat) : (State.toSelfSlot n s p).fixed = s.fixed := by
  induction n generalizing s with
  | zero => rfl
  | succ n ih =>
    unfold State.toSelfSlot
    repeat' (first
      | with_reducible rfl
      | split
      | simp [ih])

/-! ### Machine/Host.lean -/

@[simp] theorem State.hostErr_fixed (s :
    State) (port cond : Nat) : (State.hostErr s port cond).fixed = s.fixed := by unfold State.hostErr; split <;> simp

@[simp] theorem State.hostRequest_fixed (s :
    State) (k : Inp) (m : HostMsg) (data : Line) (be : BitVec 64) (poison : Bool) : (State.hostRequest s k m data be poison).fixed = s.fixed := by
  unfold State.hostRequest
  repeat' (first
    | split
    | simp)

@[simp] theorem State.unmatched_fixed (s :
    State) (port h : Nat) (l : LineAddr) : (State.unmatched s port h l).fixed = s.fixed := by simp [State.unmatched]

@[simp] theorem State.hostOpcode_go_fixed (m : HostMsg) (s : State) : (State.hostOpcode.go m s).fixed = s.fixed := by
  unfold State.hostOpcode.go
  split
  · simp
  · split <;> simp

@[simp] theorem State.hostOpcode_fixed (s :
    State) (m : HostMsg) (c : M2SChan) : (State.hostOpcode s m c).fixed = s.fixed := by
  cases c <;> simp [State.hostOpcode]

@[simp] theorem State.hostAnswer_fixed (s :
    State) (port h : Nat) (l : LineAddr) (ans : Inp) : (State.hostAnswer s port h l ans).fixed = s.fixed := by
  unfold State.hostAnswer
  repeat' (first
    | split
    | simp)

@[simp] theorem State.birsp_fixed (s :
    State) (r : BiRsp) (ans : Inp) (lines : Nat) : (State.birsp s r ans lines).fixed = s.fixed := by
  unfold State.birsp
  split
  · rfl
  · split <;> simp

@[simp] theorem State.linkUp_fixed (s : State) (port : Nat) : (State.linkUp s port).fixed = s.fixed := by simp [State.linkUp]

@[simp] theorem State.portReset_fixed (s : State) (port : Nat) : (State.portReset s port).fixed = s.fixed := by
  unfold State.portReset
  split
  · rfl
  · refine State.fixed_branch rfl ?_
    simp only [State.fenceSettle_fixed]
    refine (State.fixed_foldl _ (fun s m => ?_) _ _).trans ?_
    · split
      · rfl
      · split <;> simp
    · simp
      exact State.modHostPort_fixed s port _

@[simp] theorem State.delivered_fixed (s :
    State) (port : Nat) (c : S2MChan) : (State.delivered s port c).fixed = s.fixed := by simp [State.delivered]

@[simp] theorem State.windowEnd_fixed (s :
    State) (h : Nat) : (State.windowEnd s h).fixed = s.fixed := by unfold State.windowEnd; split <;> simp

@[simp] theorem State.snoopLate_fixed (s :
    State) (h : Nat) : (State.snoopLate s h).fixed = s.fixed := by unfold State.snoopLate; split <;> simp

@[simp] theorem State.sweepEnd_fixed (s :
    State) (h : Nat) : (State.sweepEnd s h).fixed = s.fixed := by unfold State.sweepEnd; split <;> simp

/-! ### Machine/AgentPorts.lean -/

@[simp] theorem State.sendReq_fixed (s :
    State) (port : Nat) (r : PortReq) (useK home : Bool) : (State.sendReq s port r useK home).fixed = s.fixed := by
  unfold State.sendReq
  repeat' (first
    | with_reducible refine (State.fixed_foldl _ (fun s a => ?_) _ _).trans ?_
    | split
    | simp)

@[simp] theorem State.portSend_fixed (s :
    State) (port : Nat) (useK home : Bool) : (State.portSend s port useK home).fixed = s.fixed := by
  unfold State.portSend
  repeat' (first
    | split
    | simp)

@[simp] theorem State.agentRequest_fixed (s :
    State) (k0 : Inp) (m : AgentMsg) (data : Line) (poison : Bool) : (State.agentRequest s k0 m data poison).fixed = s.fixed := by
  unfold State.agentRequest
  repeat' (first
    | split
    | simp)

@[simp] theorem State.fenceAt_fixed (s :
    State) (p : Nat) (t : ThreadId) : (State.fenceAt s p t).fixed = s.fixed := by unfold State.fenceAt; split <;> simp

@[simp] theorem State.fenceDone_fixed (s : State) (p : Nat) (t : ThreadId) : (State.fenceDone s p t).fixed = s.fixed := by
  unfold State.fenceDone
  repeat' (first
    | split
    | simp)

@[simp] theorem State.rspArrives_fixed (s : State) (p port : Nat) : (State.rspArrives s p port).fixed = s.fixed := by
  unfold State.rspArrives
  split
  · rfl
  · split <;> simp

@[simp] theorem State.deliver_fixed (s : State) (t : ThreadId) : (State.deliver s t).fixed = s.fixed := by
  unfold State.deliver
  split
  · rfl
  · split <;> simp

@[simp] theorem State.fwdArrives_fixed (s :
    State) (port g : Nat) (l : LineAddr) (data : Line) (dirty poison : Bool) : (State.fwdArrives s port g l data dirty poison).fixed = s.fixed := by
  unfold State.fwdArrives
  repeat' (first
    | split
    | simp)

/-! ### Machine/Ring.lean -/

@[simp] theorem State.silence_fixed (s :
    State) (port g : Nat) : (State.silence s port g).fixed = s.fixed := by simp [State.silence]

@[simp] theorem State.disablePort_fixed (s :
    State) (p : Nat) : (State.disablePort s p).fixed = s.fixed := by simp [State.disablePort]

@[simp] theorem State.snoopCopy_fixed (s :
    State) (port p trk : Nat) (l : LineAddr) : (State.snoopCopy s port p trk l).fixed = s.fixed := by
  unfold State.snoopCopy
  repeat' (first
    | split
    | simp)

@[simp] theorem State.sendAns_fixed (s :
    State) (port : Nat) (e : SnpEnt) (k : AnsKind) (data : Line) (poison : Bool) : (State.sendAns s port e k data poison).fixed = s.fixed := by
  simp [State.sendAns]

@[simp] theorem State.combine_fixed (s : State) (port : Nat) (e : SnpEnt) : (State.combine s port e).fixed = s.fixed := by
  unfold State.combine
  repeat' (first
    | split
    | simp)

@[simp] theorem State.combineIf_fixed (s :
    State) (port sq : Nat) : (State.combineIf s port sq).fixed = s.fixed := by unfold State.combineIf; split <;> simp

@[simp] theorem State.portSnoop_fixed (s : State) (port sq : Nat) : (State.portSnoop s port sq).fixed = s.fixed := by
  unfold State.portSnoop
  repeat' (first
    | split
    | simp)

@[simp] theorem State.agentAnswers_fixed (s :
    State) (port : Nat) (h : BitVec 64) (data : Line) : (State.agentAnswers s port h data).fixed = s.fixed := by
  unfold State.agentAnswers
  repeat' (first
    | split
    | simp)

@[simp] theorem State.agentSilent_fixed (s :
    State) (port g : Nat) : (State.agentSilent s port g).fixed = s.fixed := by unfold State.agentSilent; split <;> simp

@[simp] theorem State.dropFlit_fixed (s : State) : (State.dropFlit s).fixed = s.fixed := rfl

@[simp] theorem State.agentAnswer_fixed (s :
    State) (k : AnsKind) (inp : Inp) (r : AgRsp) (data : Line) (poison : Bool) : (State.agentAnswer s k inp r data poison).fixed = s.fixed := by
  unfold State.agentAnswer
  repeat' (first
    | split
    | simp)

@[simp] theorem State.claim_fixed (s : State) (stop : Nat) : (State.claim s stop).fixed = s.fixed := by simp [State.claim]

@[simp] theorem State.escalated_fixed (s :
    State) (isSlice : Bool) (n : Nat) : (State.escalated s isSlice n).fixed = s.fixed := by simp [State.escalated]

@[simp] theorem State.escalate_fixed (s : State) (i : Nat) : (State.escalate s i).fixed = s.fixed := by
  unfold State.escalate
  repeat' (first
    | split
    | simp)

@[simp] theorem State.lossSend_fixed (s : State) (stop : Nat) : (State.lossSend s stop).fixed = s.fixed := by
  unfold State.lossSend
  repeat' (first
    | with_reducible refine (State.fixed_foldl _ (fun s a => ?_) _ _).trans ?_
    | split
    | simp)

@[simp] theorem State.ringParity_fixed (s :
    State) (stop : Nat) (k : ParityKind) (i : Nat) : (State.ringParity s stop k i).fixed = s.fixed := by
  unfold State.ringParity
  repeat' (first
    | split
    | simp)

@[simp] theorem State.lossNotice_fixed (s : State) (t : LossTarget) : (State.lossNotice s t).fixed = s.fixed := by
  unfold State.lossNotice
  repeat' (first
    | with_reducible refine (State.fixed_foldl _ (fun s a => ?_) _ _).trans ?_
    | split
    | simp)

@[simp] theorem State.linkFaulty_fixed (s :
    State) (n : Nat) : (State.linkFaulty s n).fixed = s.fixed := by unfold State.linkFaulty; split <;> simp

@[simp] theorem State.meshRefuse_fixed (s :
    State) (n : Nat) (hdr : BitVec 128) : (State.meshRefuse s n hdr).fixed = s.fixed := by simp [State.meshRefuse]

@[simp] theorem State.ctlFault_fixed (s : State) (u : CtlUnit) : (State.ctlFault s u).fixed = s.fixed := by
  cases u <;> simp [State.ctlFault]

@[simp] theorem State.ctlSettle_fixed (s : State) : (State.ctlSettle s).fixed = s.fixed := by simp [State.ctlSettle]

/-! ### Machine/Responses.lean -/

@[simp] theorem State.takeAck_fixed (s :
    State) (p n : Nat) (a : Ack) : (State.takeAck s p n a).fixed = s.fixed := by unfold State.takeAck; split <;> simp

@[simp] theorem State.deliverAck_fixed (s :
    State) (p n : Nat) (a : Ack) : (State.deliverAck s p n a).fixed = s.fixed := by unfold State.deliverAck; split <;> simp

@[simp] theorem State.deliverAll_fixed (s :
    State) (p : Nat) (hit : Tracker → Ack → Bool) : (State.deliverAll s p hit).fixed = s.fixed := by
  unfold State.deliverAll; split <;> simp

@[simp] theorem State.bktSettle_fixed (s :
    State) (p : Nat) : (State.bktSettle s p).fixed = s.fixed := by unfold State.bktSettle; split <;> simp

@[simp] theorem State.unprotAck_fixed (s :
    State) (p n : Nat) (a : Ack) (u : Nat) : (State.unprotAck s p n a u).fixed = s.fixed := by
  unfold State.unprotAck
  repeat' (first
    | split
    | simp)

@[simp] theorem State.unprotAcks_fixed (s :
    State) (p : Nat) : (State.unprotAcks s p).fixed = s.fixed := by unfold State.unprotAcks; split <;> simp

@[simp] theorem State.settle_fixed (s : State) (p : Nat) : (State.settle s p).fixed = s.fixed := by simp [State.settle]

@[simp] theorem State.bucketIn_fixed (s :
    State) (p n : Nat) (use : BktUse) (line : LineAddr) (ue : Bool) : (State.bucketIn s p n use line ue).fixed = s.fixed := by
  unfold State.bucketIn; split <;> simp

@[simp] theorem State.memFault_fixed (s :
    State) (port : Nat) : (State.memFault s port).fixed = s.fixed := by simp [State.memFault]

@[simp] theorem State.memAnswer_fixed (s : State) (port tag : Nat) : (State.memAnswer s port tag).1.fixed = s.fixed := by
  unfold State.memAnswer
  repeat' (first
    | split
    | simp)

@[simp] theorem State.lineIn_fixed (s :
    State) (p n : Nat) (l : LineAddr) (keep : Bool) (data : Line) (nib : Nib) (poison ue : Bool) : (State.lineIn s p n l keep data nib poison ue).fixed = s.fixed := by
  unfold State.lineIn; split <;> simp

@[simp] theorem State.readDone_fixed (s :
    State) (c : MemCmd) (data : Line) (nib : Nib) (poison ue : Bool) : (State.readDone s c data nib poison ue).fixed = s.fixed := by
  unfold State.readDone
  repeat' (first
    | split
    | simp)

@[simp] theorem State.wpqDone_fixed (s :
    State) (p wid : Nat) : (State.wpqDone s p wid).fixed = s.fixed := by simp [State.wpqDone]

@[simp] theorem State.writeDone_fixed (s :
    State) (c : MemCmd) : (State.writeDone s c).fixed = s.fixed := by unfold State.writeDone; split <;> simp

@[simp] theorem State.memData_fixed (s :
    State) (port tag : Nat) (data : Line) (nib : Nib) (poison ue : Bool) : (State.memData s port tag data nib poison ue).fixed = s.fixed := by
  unfold State.memData
  repeat' (first
    | with_reducible rfl
    | split
    | simp
    | with_reducible refine State.fixed_fst (by assumption) ?_
    | with_reducible refine State.fixed_snd (by assumption) ?_)

@[simp] theorem State.memWritten_fixed (s : State) (port tag : Nat) : (State.memWritten s port tag).fixed = s.fixed := by
  unfold State.memWritten
  repeat' (first
    | with_reducible rfl
    | split
    | simp
    | with_reducible refine State.fixed_fst (by assumption) ?_
    | with_reducible refine State.fixed_snd (by assumption) ?_)

@[simp] theorem State.memTimeout_fixed (s : State) (port tag : Nat) : (State.memTimeout s port tag).fixed = s.fixed := by
  unfold State.memTimeout
  repeat' (first
    | split
    | simp)

@[simp] theorem State.spillAnswer_fixed (s :
    State) (port tag : Nat) (hit ue : Bool) : (State.spillAnswer s port tag hit ue).fixed = s.fixed := by
  unfold State.spillAnswer
  repeat' (first
    | split
    | simp)

@[simp] theorem State.strayAck_fixed (s :
    State) (p : Nat) : (State.strayAck s p).fixed = s.fixed := by unfold State.strayAck; split <;> simp

@[simp] theorem State.dirAck_fixed (s :
    State) (p : Nat) (sent : NMsg) (out : Bool) (free : Slice → Slice) (hit : Tracker → Ack → Bool) : (State.dirAck s p sent out free hit).fixed = s.fixed := by
  simp [State.dirAck]

@[simp] theorem State.ackCmd_fixed (s : State) (a : AckSel) : (State.ackCmd s a).fixed = s.fixed := by
  unfold State.ackCmd
  repeat' (first
    | split
    | simp)

@[simp] theorem State.openMig_fixed (s :
    State) (p : Nat) (q : Req) (o : Pool) : (State.openMig s p q o).fixed = s.fixed := by simp [State.openMig]

@[simp] theorem State.migStart_go_fixed (p : Nat) (pg : Page) (k : MigKind) (sl : Slice) (s :
    State) : (State.migStart.go p pg k s sl).fixed = s.fixed := by
  unfold State.migStart.go
  repeat' (first
    | with_reducible rfl
    | with_reducible refine State.fixed_branch ?_ ?_
    | split
    | simp)

@[simp] theorem State.migStart_fixed (s :
    State) (p : Nat) (pg : Page) (k : MigKind) : (s.migStart p pg k).fixed = s.fixed := by
  unfold State.migStart
  repeat' (first
    | with_reducible rfl
    | with_reducible refine State.fixed_branch ?_ ?_
    | split
    | simp)

@[simp] theorem State.releaseMig_fixed (s : State) (p : Nat) (pg : Page) : (State.releaseMig s p pg).fixed = s.fixed := by
  unfold State.releaseMig
  split
  · rfl
  · split <;> simp

@[simp] theorem State.takeMigDone_fixed (s : State) (p : Nat) (pg : Page) : (State.takeMigDone s p pg).fixed = s.fixed := rfl

@[simp] theorem State.migDone_fixed (s :
    State) (p : Nat) (pg : Page) : (State.migDone s p pg).fixed = s.fixed := by unfold State.migDone; split <;> simp

@[simp] theorem State.moveTick_fixed (s : State) (p n : Nat) : (State.moveTick s p n).fixed = s.fixed := by
  unfold State.moveTick
  split
  · rfl
  · split <;> simp

@[simp] theorem State.selfCheck_fixed (s :
    State) (p : Nat) (agree : Bool) : (State.selfCheck s p agree).fixed = s.fixed := by
  unfold State.selfCheck
  extract_lets s1
  have h : s1.fixed = s.fixed := State.toSelfSlot_fixed ..
  clear_value s1
  repeat' (first
    | with_reducible assumption
    | with_reducible refine State.fixed_branch ?_ ?_
    | split
    | simp [h])

@[simp] theorem State.reeval_fixed (s :
    State) (p n : Nat) : (State.reeval s p n).fixed = s.fixed := by unfold State.reeval; split <;> simp

/-! ### Machine/Arb.lean -/

@[simp] theorem State.starved_fixed (s :
    State) (p n : Nat) : (State.starved s p n).fixed = s.fixed := by unfold State.starved; split <;> simp

@[simp] theorem State.kcredit_fixed (s : State) (p n : Nat) : (State.kcredit s p n).fixed = s.fixed := by
  unfold State.kcredit
  split
  · rfl
  · split <;> simp

/-! ### Machine/Walks.lean -/

@[simp] theorem State.enterUnprot_fixed (s :
    State) (b : Nat) : (State.enterUnprot s b).fixed = s.fixed := by simp [State.enterUnprot]

@[simp] theorem State.pairUnprot_fixed (s :
    State) (b cause : Nat) : (State.pairUnprot s b cause).fixed = s.fixed := by unfold State.pairUnprot; split <;> simp

@[simp] theorem State.linkFail_fixed (s : State) (p : Nat) : (State.linkFail s p).fixed = s.fixed := by
  unfold State.linkFail
  repeat' (first
    | split
    | simp)

@[simp] theorem State.prefetchAccept_fixed (s : State) (p : Nat) : (State.prefetchAccept s p).fixed = s.fixed := by
  unfold State.prefetchAccept
  split
  · rfl
  · split <;> simp

theorem State.visitSet_fixed {s : State} {p set : Nat} {take drop : Nat × CLine → Bool} {t : State}
    (h : State.visitSet s p set take drop = some t) : t.fixed = s.fixed := by
  unfold State.visitSet at h
  split at h
  · contradiction
  · dsimp only at h
    split at h
    · contradiction
    · injection h with h
      subst h
      simp

@[simp] theorem State.modMsc_fixed (s :
    State) (p : Nat) (f : Msc → Msc) : (State.modMsc s p f).fixed = s.fixed := by simp [State.modMsc]

theorem State.retireTurn_fixed {s : State} {p : Nat} {sl : Slice} {t : State} (h : State.retireTurn s p sl = some t) :
    t.fixed = s.fixed := by
  obtain ⟨r, -, h⟩ := List.exists_of_findSome?_eq_some h
  dsimp only at h
  repeat' (first | contradiction | split at h)
  all_goals
    injection h with h
    subst h
    simp [State.visitSet_fixed ‹_›]

@[simp] theorem State.writebackTurn_fixed (s : State) (p : Nat) : (State.writebackTurn s p).fixed = s.fixed := by
  unfold State.writebackTurn
  repeat' (first
    | with_reducible rfl
    | split
    | simp only [State.fixed_mk, State.fixed_eta]
    | simp
    | with_reducible refine State.fixed_fst (by assumption) ?_
    | with_reducible refine State.fixed_snd (by assumption) ?_
    | refine (State.visitSet_fixed (by assumption)).trans ?_
    | refine (State.retireTurn_fixed (by assumption)).trans ?_)

@[simp] theorem State.cacheDrainTurn_fixed (s : State) (p : Nat) : (State.cacheDrainTurn s p).fixed = s.fixed := by
  unfold State.cacheDrainTurn
  repeat' (first
    | split
    | simp
    | refine (State.visitSet_fixed (by assumption)).trans ?_)

@[simp] theorem State.drainTurn_fixed (s : State) (p : Nat) : (State.drainTurn s p).fixed = s.fixed := by
  unfold State.drainTurn
  repeat' (first
    | with_reducible rfl
    | split
    | simp only [State.fixed_mk, State.fixed_eta]
    | simp
    | with_reducible refine State.fixed_fst (by assumption) ?_
    | with_reducible refine State.fixed_snd (by assumption) ?_
    | refine (State.visitSet_fixed (by assumption)).trans ?_)

@[simp] theorem State.victimToWpq_fixed (s : State) (p v : Nat) : (State.victimToWpq s p v).fixed = s.fixed := by
  unfold State.victimToWpq
  repeat' (first
    | split
    | simp)

@[simp] theorem State.wpqIssue_fixed (s : State) (p : Nat) : (State.wpqIssue s p).fixed = s.fixed := by
  unfold State.wpqIssue
  repeat' (first
    | split
    | simp)

@[simp] theorem State.kpinFill_fixed (s : State) (p n : Nat) : (State.kpinFill s p n).fixed = s.fixed := by
  unfold State.kpinFill
  repeat' (first
    | split
    | simp)

@[simp] theorem State.mirrorUpdate_fixed (s : State) (p : Nat) : (State.mirrorUpdate s p).fixed = s.fixed := by
  unfold State.mirrorUpdate
  repeat' (first
    | split
    | simp)

@[simp] theorem State.preloadEnd_fixed (s :
    State) (p : Nat) : (State.preloadEnd s p).fixed = s.fixed := by unfold State.preloadEnd; split <;> simp

theorem State.preloadLine_fixed {s : State} {p : Nat} {sl : Slice} {l : LineAddr} {t : State}
    (h : State.preloadLine s p sl l = some t) : t.fixed = s.fixed := by
  unfold State.preloadLine at h
  dsimp only at h
  repeat' (first | contradiction | split at h)
  all_goals
    injection h with h
    subst h
    simp

@[simp] theorem State.preloadTurn_fixed (s : State) (p : Nat) : (State.preloadTurn s p).fixed = s.fixed := by
  unfold State.preloadTurn
  repeat' (first
    | with_reducible rfl
    | split
    | simp only [State.fixed_mk, State.fixed_eta]
    | simp
    | with_reducible refine State.fixed_fst (by assumption) ?_
    | with_reducible refine State.fixed_snd (by assumption) ?_
    | refine (State.visitSet_fixed (by assumption)).trans ?_
    | refine (State.preloadLine_fixed (by assumption)).trans ?_)

@[simp] theorem State.wayRetire_fixed (s :
    State) (p w : Nat) : (State.wayRetire s p w).fixed = s.fixed := by unfold State.wayRetire; split <;> simp

@[simp] theorem State.errWindow_fixed (s :
    State) (p : Nat) : (State.errWindow s p).fixed = s.fixed := by simp [State.errWindow]

@[simp] theorem State.evictEntry_fixed (s : State) (p i : Nat) (v : Entry) : (State.evictEntry s p i v).fixed = s.fixed := by
  unfold State.evictEntry
  split
  · rfl
  · split
    · rfl
    · extract_lets bi t0 t put m r0 r1 w s1
      have h1 : s1.fixed = s.fixed := by simp [s1, r1, r0, Run.start]
      clear_value s1
      split
      · exact (State.pump_fixed ..).trans h1
      · exact h1

@[simp] theorem State.sfWalkTurn_fixed (s : State) (p : Nat) : (State.sfWalkTurn s p).fixed = s.fixed := by
  unfold State.sfWalkTurn
  repeat' (first
    | with_reducible refine (State.fixed_foldl _ (fun s a => ?_) _ _).trans ?_
    | split
    | simp)

@[simp] theorem State.sweepOpen_fixed (s : State) (p : Nat) (l : LineAddr) : (State.sweepOpen s p l).fixed = s.fixed := by
  unfold State.sweepOpen
  split
  · rfl
  · split <;> simp

@[simp] theorem State.sweepSnoop_fixed (s :
    State) (p : Nat) (ts : List Tracker) : (State.sweepSnoop s p ts).fixed = s.fixed := by
  unfold State.sweepSnoop
  repeat' (first
    | with_reducible refine (State.fixed_foldl _ (fun s a => ?_) _ _).trans ?_
    | split
    | simp)

@[simp] theorem State.sweepEndRange_fixed (s :
    State) (p : Nat) (b : Blind) : (State.sweepEndRange s p b).fixed = s.fixed := by simp [State.sweepEndRange]

@[simp] theorem State.sweepGroup_fixed (s : State) (p : Nat) : (State.sweepGroup s p).fixed = s.fixed := by
  unfold State.sweepGroup
  repeat' (first
    | split
    | simp)

end Sys2Proof.Machine
end

