-- ==== Sys2Proof/Laws/FixedUnits.lean ====
section
/-! SUPPORT. Each operation keeps the variant, the queue and the number of ports, host identities and slices: the director, castling, start-up, power and register accesses. -/

namespace Sys2Proof.Machine

open Sys2Proof

set_option linter.unreachableTactic false
set_option linter.unusedTactic false
set_option linter.unusedSimpArgs false

/-! ### Machine/Director.lean -/

@[simp] theorem State.onMsg_fixed (s :
    State) (m : NMsg) (f : State → State) (hf : ∀ s, (f s).fixed = s.fixed) : (State.onMsg s m f).fixed = s.fixed := by
  unfold State.onMsg
  repeat' (first
    | split
    | simp
    | exact hf _)

@[simp] theorem State.pmInstall_fixed (s :
    State) (p : Nat) (pg : Page) (e : PEnt) (w : Nat) : (State.pmInstall s p pg e w).fixed = s.fixed := by
  unfold State.pmInstall
  repeat' (first
    | split
    | simp)

@[simp] theorem State.pmWake_fixed (s :
    State) (p : Nat) (pg : Page) : (State.pmWake s p pg).fixed = s.fixed := by unfold State.pmWake; split <;> simp

@[simp] theorem State.pageMapFill_fixed (s :
    State) (p : Nat) (pg : Page) (ue : Bool) : (State.pageMapFill s p pg ue).fixed = s.fixed := by
  unfold State.pageMapFill
  repeat' (first
    | with_reducible refine State.onMsg_fixed _ _ _ (fun s => ?_)
    | split
    | simp)

@[simp] theorem State.pageMapUpdate_fixed (s : State) (pg : Page) : (State.pageMapUpdate s pg).fixed = s.fixed := by
  unfold State.pageMapUpdate
  repeat' (first
    | with_reducible refine State.onMsg_fixed _ _ _ (fun s => ?_)
    | split
    | simp)

@[simp] theorem State.heatDecay_fixed (s : State) : (State.heatDecay s).fixed = s.fixed := by simp [State.heatDecay]

@[simp] theorem State.cleanAt_fixed (s : State) (p : Nat) (pg : Page) : (State.cleanAt s p pg).fixed = s.fixed := by
  unfold State.cleanAt
  repeat' (first
    | with_reducible rfl
    | with_reducible refine (State.fixed_foldl _ (fun s a => ?_) _ _).trans ?_
    | with_reducible refine State.onMsg_fixed _ _ _ (fun s => ?_)
    | split
    | simp only [State.fixed_mk, State.fixed_eta]
    | simp
    | with_reducible refine State.fixed_fst (by assumption) ?_
    | with_reducible refine State.fixed_snd (by assumption) ?_)

@[simp] theorem State.onTe_fixed (s : State) (t : Nat) (st : BitVec 4) (f : TeCmd → State → State)
    (hf : ∀ c s, (f c s).fixed = s.fixed) : (State.onTe s t st f).fixed = s.fixed := by
  unfold State.onTe
  split
  · rfl
  · simp [hf]

@[simp] theorem State.copyDone_promo_fixed (s :
    State) (t : Nat) (st : BitVec 4) : (State.copyDone.promo s t st).fixed = s.fixed := by
  unfold State.copyDone.promo
  split <;> simp

@[simp] theorem State.copyDone_fixed (s : State) (t : Nat) (st : BitVec 4) : (State.copyDone s t st).fixed = s.fixed := by
  unfold State.copyDone
  split <;> simp

@[simp] theorem State.compressDone_fixed (s :
    State) (t : Nat) (st : BitVec 4) (len : Nat) : (State.compressDone s t st len).fixed = s.fixed := by
  unfold State.compressDone
  repeat' (first
    | split
    | simp)

@[simp] theorem State.flushAnswer_fixed (s :
    State) (t : Nat) (st : BitVec 4) : (State.flushAnswer s t st).fixed = s.fixed := by
  unfold State.flushAnswer; split <;> simp

@[simp] theorem State.storeDone_fixed (s : State) (t : Nat) (st : BitVec 4) : (State.storeDone s t st).fixed = s.fixed := by
  unfold State.storeDone
  repeat' (first
    | split
    | simp)

@[simp] theorem State.offerDone_fixed (s :
    State) (t : Nat) (st : BitVec 4) : (State.offerDone s t st).fixed = s.fixed := by unfold State.offerDone; split <;> simp

@[simp] theorem State.cleanCopied_fixed (s :
    State) (t : Nat) (st : BitVec 4) : (State.cleanCopied s t st).fixed = s.fixed := by
  unfold State.cleanCopied; split <;> simp

@[simp] theorem State.persistDone_fixed (s :
    State) (t : Nat) (st : BitVec 4) : (State.persistDone s t st).fixed = s.fixed := by
  unfold State.persistDone; split <;> simp

@[simp] theorem State.evictDone_fixed (s :
    State) (t : Nat) (st : BitVec 4) : (State.evictDone s t st).fixed = s.fixed := by unfold State.evictDone; split <;> simp

@[simp] theorem State.writeAcked_fixed (s :
    State) (t : Nat) (st : BitVec 4) : (State.writeAcked s t st).fixed = s.fixed := by
  unfold State.writeAcked
  repeat' (first
    | with_reducible refine (State.onTe_fixed _ _ _ _ (fun c s => ?_)).trans ?_
    | split
    | simp)

@[simp] theorem State.readReturned_fixed (s :
    State) (t : Nat) (st : BitVec 4) (ls : List PLine) : (State.readReturned s t st ls).fixed = s.fixed := by
  unfold State.readReturned; split <;> simp

@[simp] theorem State.saveDone_fixed (s :
    State) (t : Nat) (st : BitVec 4) : (State.saveDone s t st).fixed = s.fixed := by unfold State.saveDone; split <;> simp

@[simp] theorem State.chunkLoad_fixed (s :
    State) (n : Nat) (pins : List (Page × BitVec 3)) : (State.chunkLoad s n pins).fixed = s.fixed := by
  simp [State.chunkLoad]

/-! ### Machine/Hints.lean -/

theorem State.dirAccess_fixed {s : State} {kind : Inp} {tag : Nat} {l : LineAddr} {d : Line} {t : State} (h : s.dirAccess kind tag l d = some t) : t.fixed = s.fixed := by
  unfold State.dirAccess at h
  repeat' (first | contradiction | split at h | dsimp only at h)
  all_goals
    injection h with h
    subst h
    simp

theorem State.dirAccess_bind_fixed {s t : State} {o : Option LineAddr} {kind : Inp} {tag : Nat} {d : LineAddr → Line}
    (h : (o.bind fun l => s.dirAccess kind tag l (d l)) = some t) : t.fixed = s.fixed := by
  obtain ⟨l, -, h⟩ := Option.bind_eq_some_iff.mp h
  exact State.dirAccess_fixed h

@[simp] theorem State.setPin_fixed (s :
    State) (p : Page) (cp : BitVec 3) : (State.setPin s p cp).fixed = s.fixed := by simp [State.setPin]

@[simp] theorem State.pinPage_fixed (s :
    State) (p : Page) (arg : BitVec 2) : (State.pinPage s p arg).fixed = s.fixed := by simp [State.pinPage]

@[simp] theorem State.hintPromote_fixed (s :
    State) (p : Page) : (State.hintPromote s p).1.fixed = s.fixed := by unfold State.hintPromote; split <;> simp

@[simp] theorem State.hintBegin_fixed (s :
    State) (op : Nat) (arg : BitVec 2) (p : Page) : (State.hintBegin s op arg p).1.fixed = s.fixed := by
  unfold State.hintBegin
  repeat' (first
    | split
    | simp)

theorem State.hintFill_fixed {s : State} {l : LineAddr} {t : State} (h : s.hintFill l = some t) : t.fixed = s.fixed := by
  unfold State.hintFill at h
  repeat' (first | contradiction | split at h | dsimp only at h)
  all_goals
    injection h with h
    subst h
    simp

@[simp] theorem State.hintStep_fixed (s :
    State) (op : Nat) (arg : BitVec 2) (p : Page) (stage : HintStage) (lines : Nat) : (State.hintStep s op arg p stage lines).1.fixed = s.fixed := by
  unfold State.hintStep
  repeat' (first
    | split
    | simp
    | refine (State.hintFill_fixed (by assumption)).trans ?_)

theorem State.takeDone_fixed {s t : State} {tag : Nat} {d : Option Line} (h : s.takeDone tag = some (d, t)) : t.fixed = s.fixed := by
  unfold State.takeDone at h
  obtain ⟨x, -, h⟩ := Option.map_eq_some_iff.mp h
  injection h with h1 h2
  subst h2
  simp

@[simp] theorem State.ctxStep_fixed (s : State) (c : HintCtx) : (State.ctxStep s c).1.fixed = s.fixed := by
  unfold State.ctxStep
  repeat' (first
    | with_reducible rfl
    | with_reducible exact State.dirAccess_bind_fixed ‹_›
    | with_reducible exact State.takeDone_fixed ‹_›
    | split
    | simp
    | dsimp only)

@[simp] theorem State.ctxRun_fixed (n : Nat) (s : State) (c : HintCtx) : (State.ctxRun n s c).1.fixed = s.fixed := by
  induction n generalizing s c with
  | zero => rfl
  | succ n ih =>
    unfold State.ctxRun
    have h := State.ctxStep_fixed s c
    repeat' (first
      | with_reducible rfl
      | split
      | simp_all)

@[simp] theorem State.takeBells_fixed (n : Nat) (s : State) : (State.takeBells n s).fixed = s.fixed := by
  induction n generalizing s with
  | zero => rfl
  | succ n ih =>
    unfold State.takeBells
    repeat' (first
      | with_reducible rfl
      | split
      | simp [ih])

@[simp] theorem State.ringsRun_fixed (s : State) : (State.ringsRun s).fixed = s.fixed := by
  unfold State.ringsRun
  refine State.fixed_foldl _ (fun s r => ?_) _ _
  split <;> simp

@[simp] theorem State.addBell_fixed (s : State) (r : Nat) : (State.addBell s r).fixed = s.fixed := by simp [State.addBell]

@[simp] theorem State.modList_fixed (s : State) (f : PList → PList) : (State.modList s f).fixed = s.fixed := rfl

@[simp] theorem State.listEnd_fixed (s : State) (st : BitVec 8) : (State.listEnd s st).fixed = s.fixed := rfl

@[simp] theorem State.listStop_fixed (s :
    State) (st : BitVec 8) : (State.listStop s st).fixed = s.fixed := by simp [State.listStop]

@[simp] theorem State.listReads_fixed (n : Nat) (s : State) : (State.listReads n s).fixed = s.fixed := by
  induction n generalizing s with
  | zero => rfl
  | succ n ih =>
    unfold State.listReads
    repeat' (first
      | with_reducible rfl
      | split
      | simp [ih])

@[simp] theorem State.listStep_fixed (s : State) : (State.listStep s).fixed = s.fixed := by
  unfold State.listStep
  repeat' (first
    | split
    | simp)

@[simp] theorem State.listRun_fixed (n : Nat) (s : State) : (State.listRun n s).fixed = s.fixed := by
  induction n generalizing s with
  | zero => rfl
  | succ n ih =>
    unfold State.listRun
    repeat' (first
      | with_reducible rfl
      | split
      | simp [ih])

@[simp] theorem State.listStart_fixed (s :
    State) (addr : BitVec 64) (opc : Nat) (arg : BitVec 2) (count : Nat) : (State.listStart s addr opc arg count).fixed = s.fixed := by
  simp [State.listStart]

@[simp] theorem State.listRead_fixed (s :
    State) (tag : Nat) (lines : List Line) : (State.listRead s tag lines).fixed = s.fixed := by
  unfold State.listRead; split <;> simp

@[simp] theorem State.listReadError_fixed (s :
    State) (tag : Nat) : (State.listReadError s tag).fixed = s.fixed := by unfold State.listReadError; split <;> simp

@[simp] theorem State.hintSettle_fixed (s : State) : (State.hintSettle s).fixed = s.fixed := by simp [State.hintSettle]

@[simp] theorem State.hintSlot_fixed (s : State) (r : Nat) : (State.hintSlot s r).fixed = s.fixed := by
  unfold State.hintSlot
  split
  · rfl
  · split
    · rfl
    · rename_i h
      dsimp only
      split <;> simp [State.takeDone_fixed h]

@[simp] theorem State.pinComplete_fixed (s :
    State) (p : Page) : (State.pinComplete s p).fixed = s.fixed := by simp [State.pinComplete]

/-! ### Machine/DirCmds.lean -/

@[simp] theorem State.ringPoll_fixed (s : State) : (State.ringPoll s).fixed = s.fixed := by simp [State.ringPoll]

@[simp] theorem State.masterError_fixed (s : State) (tag : Nat) : (State.masterError s tag).fixed = s.fixed := by
  unfold State.masterError
  repeat' (first
    | split
    | simp)

/-! ### Machine/Castling.lean -/

@[simp] theorem State.landUpdates_fixed (s :
    State) (f b : Nat) : (State.landUpdates s f b).fixed = s.fixed := by unfold State.landUpdates; split <;> simp

@[simp] theorem State.retarget_fixed (s :
    State) (f g : Nat) : (State.retarget s f g).fixed = s.fixed := by unfold State.retarget; split <;> simp

@[simp] theorem State.isolate_fixed (s : State) (p : Nat) : (State.isolate s p).fixed = s.fixed := by simp [State.isolate]

@[simp] theorem State.takeRegs_fixed (s :
    State) (f g : Nat) : (State.takeRegs s f g).fixed = s.fixed := by simp [State.takeRegs]

@[simp] theorem State.modHome_fixed (s : State) (n : Nat) (f : Home → Home) : (State.modHome s n f).fixed = s.fixed := rfl

@[simp] theorem State.redirectTo_fixed (s : State) (f g : Nat) : (State.redirectTo s f g).fixed = s.fixed := rfl

@[simp] theorem State.placeSame_fixed (s :
    State) (g : Nat) (it : RItem) : (State.placeSame s g it).fixed = s.fixed := by unfold State.placeSame; split <;> simp

theorem State.placeFree_fixed {s t : State} {g : Nat} {it : RItem} (h : s.placeFree g it = some t) : t.fixed = s.fixed := by
  unfold State.placeFree at h
  split at h
  · simp only [reduceCtorEq] at h
  · dsimp only at h
    split at h
    all_goals
      repeat' split at h
      all_goals first
        | simp only [reduceCtorEq] at h; done
        | (simp only [Option.some.injEq] at h; subst h; simp)

@[simp] theorem State.resnoop_fixed (s :
    State) (g n : Nat) (l : LineAddr) (vic : Bool) : (State.resnoop s g n l vic).fixed = s.fixed := by
  unfold State.resnoop
  repeat' (first
    | with_reducible refine (State.fixed_foldl _ (fun s a => ?_) _ _).trans ?_
    | split
    | simp)

@[simp] theorem State.reissue_fixed (s : State) (g n : Nat) (a : Ack) : (State.reissue s g n a).fixed = s.fixed := by
  unfold State.reissue
  repeat' (first
    | split
    | simp)

@[simp] theorem State.resumeVictim_fixed (s : State) (g n : Nat) : (State.resumeVictim s g n).fixed = s.fixed := by
  unfold State.resumeVictim
  split
  · rfl
  · split <;> simp

@[simp] theorem State.resumeTrk_fixed (s : State) (g n : Nat) : (State.resumeTrk s g n).fixed = s.fixed := by
  unfold State.resumeTrk
  repeat' (first
    | split
    | simp)

@[simp] theorem State.restartCopies_fixed (s :
    State) (log : Nat) : (State.restartCopies s log).fixed = s.fixed := by simp [State.restartCopies]

@[simp] theorem State.recleans_fixed (s :
    State) (g log : Nat) : (State.recleans s g log).fixed = s.fixed := by simp [State.recleans]

@[simp] theorem State.drawStall_fixed (s : State) : (State.drawStall s).2.fixed = s.fixed := rfl

@[simp] theorem State.replayEnd_fixed (s : State) (r : Replay) : (State.replayEnd s r).fixed = s.fixed := by
  unfold State.replayEnd
  extract_lets g kp fs fc c s1 s2 d none_ s3 src s4 s5 s6 ns s7
  have h2 : s2.fixed = s.fixed := by simp [s2, s1]
  have h3 : s3.fixed = s.fixed := by simp only [s3]; split <;> simp [d, h2]
  have h4 : s4.fixed = s.fixed := by simp only [s4, State.kpLoads_fixed]; exact h3
  have h5 : s5.fixed = s.fixed := by simp only [s5]; split <;> simp [h4]
  have h6 : s6.fixed = s.fixed := by simp [s6, h5]
  have h7 : s7.fixed = s.fixed := (State.fixed_foldl _ (fun s a => by simp) _ _).trans h6
  simp [h7]

@[simp] theorem State.busBeat_fixed (s :
    State) (b : Nat) : (State.busBeat s b).1.fixed = s.fixed := by unfold State.busBeat; split <;> simp

theorem State.lostRecord_fixed {s : State} {g : Nat} {q : Req} {t : State} (h : State.lostRecord s g q = some t) : t.fixed = s.fixed := by
  unfold State.lostRecord at h
  repeat' (first | contradiction | split at h)
  all_goals
    injection h with h
    subst h
    repeat' (first
      | with_reducible rfl
      | with_reducible refine (State.fixed_foldl _ (fun s a => ?_) _ _).trans ?_
      | split
      | simp
      | with_reducible refine State.fixed_fst (by assumption) ?_
      | with_reducible refine State.fixed_snd (by assumption) ?_)

@[simp] theorem State.placeLost_fixed (s : State) (g : Nat) (it : RItem) : (State.placeLost s g it).fixed = s.fixed := by
  unfold State.placeLost
  split
  · simp
  · simp
  · cases h : s.lostRecord g _ with
    | none => simp
    | some x => exact State.lostRecord_fixed h
  · cases h : s.lostRecord g _ with
    | none => simp
    | some x => exact State.lostRecord_fixed h
  · rfl

@[simp] theorem State.replayStep_fixed (s : State) (r : Replay) : (State.replayStep s r).fixed = s.fixed := by
  unfold State.replayStep
  extract_lets g d s0
  split
  · rfl
  · refine State.fixed_branch (by simp) ?_
    have h0 : s0.fixed = s.fixed := by simp only [s0, d]; split <;> simp
    split
    · exact h0
    · rename_i s1 e
      have h1 : s1.fixed = s.fixed := by
        split at e
        · exact (State.placeFree_fixed e).trans h0
        · split at e <;> simp only [Option.some.injEq] at e <;> simp [← e, h0]
      extract_lets put c s2 s3
      have h3 : s3.fixed = s.fixed := by simp only [s3]; split <;> [(split <;> simp [s2, h1]); simp [s2, h1]]
      clear_value s3
      simp [h3]

@[simp] theorem State.startReplay_fixed (s :
    State) (r : Replay) : (State.startReplay s r).fixed = s.fixed := by simp [State.startReplay]

@[simp] theorem State.takeover_fixed (s :
    State) (f b g log : Nat) (c : FailCause) (items : List RItem) : (State.takeover s f b g log c items).fixed = s.fixed := by
  simp [State.takeover]

@[simp] theorem State.adopt_fixed (s :
    State) (f b log : Nat) (c : FailCause) (items : List RItem) : (State.adopt s f b log c items).fixed = s.fixed := by
  simp [State.adopt]

@[simp] theorem State.dropMoves_fixed (s : State) (n : Nat) (p : Nat) : (State.dropMoves s n p).fixed = s.fixed := by
  unfold State.dropMoves
  repeat' (first
    | with_reducible refine (State.fixed_foldl _ (fun s a => ?_) _ _).trans ?_
    | split
    | simp)

@[simp] theorem State.lostWaiting_fixed (s :
    State) (port : Nat) : (State.lostWaiting s port).fixed = s.fixed := by unfold State.lostWaiting; split <;> simp

@[simp] theorem State.loseOne_fixed (s : State) (n p : Nat) : (State.loseOne s n p).fixed = s.fixed := by
  unfold State.loseOne
  repeat' (first
    | with_reducible rfl
    | with_reducible refine (State.fixed_foldl _ (fun s a => ?_) _ _).trans ?_
    | split
    | simp only [State.fixed_mk, State.fixed_eta]
    | simp
    | with_reducible refine State.fixed_fst (by assumption) ?_
    | with_reducible refine State.fixed_snd (by assumption) ?_)

@[simp] theorem State.lose_fixed (s : State) (p : Nat) : (State.lose s p).fixed = s.fixed := by
  unfold State.lose
  repeat' (first
    | split
    | simp)

@[simp] theorem State.reserveLost_fixed (s :
    State) (p : Nat) (r : Replay) : (State.reserveLost s p r).fixed = s.fixed := by simp [State.reserveLost]

@[simp] theorem State.servingFails_fixed (s :
    State) (p : Nat) (sl : Slice) (c : FailCause) : (State.servingFails s p sl c).fixed = s.fixed := by
  unfold State.servingFails
  repeat' (first
    | split
    | simp)

@[simp] theorem State.declare_fixed (s :
    State) (p : Nat) (cause : BitVec 4) : (State.declare s p cause).fixed = s.fixed := by
  unfold State.declare
  repeat' (first
    | split
    | simp)

@[simp] theorem State.castleReplay_fixed (s :
    State) (p : Nat) : (State.castleReplay s p).fixed = s.fixed := by unfold State.castleReplay; split <;> simp

@[simp] theorem State.adoptionMove_fixed (s :
    State) (p : Nat) : (State.adoptionMove s p).fixed = s.fixed := by unfold State.adoptionMove; split <;> simp

@[simp] theorem State.pairProtected_fixed (s :
    State) (p : Nat) : (State.pairProtected s p).fixed = s.fixed := by simp [State.pairProtected]

@[simp] theorem State.resyncDone_fixed (s :
    State) (p : Nat) : (State.resyncDone s p).fixed = s.fixed := by unfold State.resyncDone; split <;> simp

/-! ### Machine/Boundary.lean -/

@[simp] theorem State.commitForce_fixed (s : State) : (State.commitForce s).fixed = s.fixed := by simp [State.commitForce]

@[simp] theorem State.limitsFollow_fixed (s :
    State) (p : Nat) (offs : List Nat) : (State.limitsFollow s p offs).fixed = s.fixed := by simp [State.limitsFollow]

@[simp] theorem State.sliceBoundary_fixed (s :
    State) (offs : List Nat) (p : Nat) : (State.sliceBoundary s offs p).fixed = s.fixed := by
  unfold State.sliceBoundary; split <;> simp

@[simp] theorem State.logsAnew_fixed (s : State) : (State.logsAnew s).fixed = s.fixed := by simp [State.logsAnew]

@[simp] theorem State.rootTick_fixed (s : State) : (State.rootTick s).fixed = s.fixed := by simp [State.rootTick]

@[simp] theorem State.directorDue_fixed (s : State) : (State.directorDue s).fixed = s.fixed := rfl

@[simp] theorem State.moveBoundary_fixed (s : State) : (State.moveBoundary s).fixed = s.fixed := by simp [State.moveBoundary]

@[simp] theorem State.p1Gate_fixed (s :
    State) (p : Nat) : (State.p1Gate s p).fixed = s.fixed := by unfold State.p1Gate; split <;> simp

/-! ### Machine/Start.lean -/

@[simp] theorem State.egReset_fixed (s : State) : (State.egReset s).fixed = s.fixed := rfl

@[simp] theorem State.blkReset_fixed (s : State) : (State.blkReset s).fixed = s.fixed := by simp [State.blkReset]

@[simp] theorem State.selfTest_fixed (s :
    State) (p : Nat) (pass : Bool) : (State.selfTest s p pass).fixed = s.fixed := by unfold State.selfTest; split <;> simp

@[simp] theorem State.headersRead_fixed (s :
    State) (a b : List Byte) (x : Option Sfdp) : (State.headersRead s a b x).fixed = s.fixed := by simp [State.headersRead]

@[simp] theorem State.slotLoaded_fixed (s :
    State) (bytes : List Byte) : (State.slotLoaded s bytes).fixed = s.fixed := by simp [State.slotLoaded]

@[simp] theorem State.setup_fixed (s : State) : (State.setup s).fixed = s.fixed := by simp [State.setup]

@[simp] theorem State.seedLfsr_fixed (s : State) (p : Nat) : (State.seedLfsr s p).fixed = s.fixed := by simp [State.seedLfsr]

@[simp] theorem State.p2Enter_fixed (s : State) : (State.p2Enter s).fixed = s.fixed := by simp [State.p2Enter]

@[simp] theorem State.asked_fixed (s : State) : (State.asked s).fixed = s.fixed := by simp [State.asked]

@[simp] theorem State.blindPins_fixed (s : State) : (State.blindPins s).fixed = s.fixed := by simp [State.blindPins]

@[simp] theorem State.restartDone_fixed (s : State) : (State.restartDone s).fixed = s.fixed := by simp [State.restartDone]

@[simp] theorem State.reload_fixed (s :
    State) (a b : List Byte) : (State.reload s a b).fixed = s.fixed := by simp [State.reload]

/-! ### Machine/Power.lean -/

@[simp] theorem State.egRuns_fixed (s :
    State) (f : State → State) (hf : ∀ s, (f s).fixed = s.fixed) : (State.egRuns s f).fixed = s.fixed := by
  unfold State.egRuns
  repeat' (first
    | split
    | simp
    | exact hf _)

@[simp] theorem State.debounced_fixed (s : State) : (State.debounced s).fixed = s.fixed := by simp [State.debounced]

@[simp] theorem State.rideEnds_fixed (s : State) : (State.rideEnds s).fixed = s.fixed := by simp [State.rideEnds]

@[simp] theorem State.rideRecovers_fixed (s : State) : (State.rideRecovers s).fixed = s.fixed := by simp [State.rideRecovers]

@[simp] theorem State.drainDone_fixed (s : State) : (State.drainDone s).fixed = s.fixed := by simp [State.drainDone]

@[simp] theorem State.gpfOne_fixed (s : State) : (State.gpfOne s).fixed = s.fixed := by simp [State.gpfOne]

@[simp] theorem State.gpfTwo_fixed (s : State) : (State.gpfTwo s).fixed = s.fixed := by simp [State.gpfTwo]

@[simp] theorem State.gpf_fixed (s : State) (n : Nat) : (State.gpf s n).fixed = s.fixed := by simp [State.gpf]

@[simp] theorem State.gpfOneDone_fixed (s : State) : (State.gpfOneDone s).fixed = s.fixed := by simp [State.gpfOneDone]

@[simp] theorem State.p2Exit_fixed (s : State) : (State.p2Exit s).fixed = s.fixed := by simp [State.p2Exit]

@[simp] theorem State.p2After_fixed (s : State) : (State.p2After s).fixed = s.fixed := by simp [State.p2After]

@[simp] theorem State.p2Done_fixed (s : State) : (State.p2Done s).fixed = s.fixed := by simp [State.p2Done]

@[simp] theorem State.d3hot_fixed (s : State) : (State.d3hot s).fixed = s.fixed := by unfold State.d3hot; split <;> simp

@[simp] theorem State.d0_fixed (s : State) : (State.d0 s).fixed = s.fixed := by unfold State.d0; split <;> simp

@[simp] theorem State.p3_fixed (s : State) : (State.p3 s).fixed = s.fixed := by simp [State.p3]

@[simp] theorem State.warmAsk_fixed (s : State) : (State.warmAsk s).fixed = s.fixed := by simp [State.warmAsk]

@[simp] theorem State.warmDirector_fixed (s : State) : (State.warmDirector s).fixed = s.fixed := by simp [State.warmDirector]

@[simp] theorem State.warmReset_fixed (s : State) : (State.warmReset s).fixed = s.fixed := by simp [State.warmReset]

/-! ### Machine/RegWrite.lean -/

@[simp] theorem State.acceptLoss_fixed (s : State) : (State.acceptLoss s).fixed = s.fixed := by simp [State.acceptLoss]

@[simp] theorem State.egCtl_fixed (s : State) (w : W32) : (State.egCtl s w).fixed = s.fixed := by simp [State.egCtl]

@[simp] theorem State.ldRot_fixed (s : State) (w : W32) : (State.ldRot s w).fixed = s.fixed := by simp [State.ldRot]

@[simp] theorem State.ringReset_fixed (s :
    State) (w : W32) : (State.ringReset s w).fixed = s.fixed := by simp [State.ringReset]

@[simp] theorem State.listCtl_fixed (s : State) (w : W32) : (State.listCtl s w).fixed = s.fixed := by simp [State.listCtl]

@[simp] theorem State.preCmd_fixed (s :
    State) (p : Nat) (w : W32) : (State.preCmd s p w).fixed = s.fixed := by unfold State.preCmd; split <;> simp

@[simp] theorem State.pmcClr_fixed (s :
    State) (p : Nat) (w : W32) : (State.pmcClr s p w).fixed = s.fixed := by simp [State.pmcClr]

@[simp] theorem State.regCommand_fixed (s : State) (o : Nat) (w : W32) : (State.regCommand s o w).fixed = s.fixed := by
  unfold State.regCommand
  repeat' (first
    | split
    | simp)

@[simp] theorem State.baseWrite_fixed (s :
    State) (o : Nat) (w : RegAcc) : (State.baseWrite s o w).fixed = s.fixed := by unfold State.baseWrite; split <;> simp

@[simp] theorem State.aliasWrite_fixed (s :
    State) (o view : Nat) (w : RegAcc) : (State.aliasWrite s o view w).fixed = s.fixed := by
  unfold State.aliasWrite; split <;> simp

@[simp] theorem State.regWrite_fixed (s :
    State) (off : BitVec 27) (w : RegAcc) : (State.regWrite s off w).fixed = s.fixed := by simp [State.regWrite]

@[simp] theorem State.romRead_fixed (s : State) (off : BitVec 27) : (State.romRead s off).fixed = s.fixed := rfl

@[simp] theorem State.romWrite_fixed (s : State) : (State.romWrite s).fixed = s.fixed := rfl

@[simp] theorem State.aperture_fixed (s :
    State) (o : Nat) (a : AgentMsg) (data : Line) : (State.aperture s o a data).fixed = s.fixed := by simp [State.aperture]

@[simp] theorem State.writeAt_fixed (s :
    State) (o : Nat) (w : RegAcc) : (State.writeAt s o w).fixed = s.fixed := by simp [State.writeAt]

@[simp] theorem State.writeSl_fixed (s :
    State) (p o : Nat) (w : RegAcc) : (State.writeSl s p o w).fixed = s.fixed := by simp [State.writeSl]

@[simp] theorem State.readAt_fixed (s :
    State) (o : Nat) (r : RegRd) : (State.readAt s o r).fixed = s.fixed := by simp [State.readAt]

end Sys2Proof.Machine
end

