-- ==== Sys2Proof/Laws/Spill.lean ====
section
/-! SUPPORT. The spill directory's list in its one form: the laws of keyed lists, and that a bucket write keeps the form. -/

namespace Sys2Proof.Machine

open Sys2Proof

set_option linter.unreachableTactic false
set_option linter.unusedTactic false
set_option linter.unusedSimpArgs false

/-! ### Keyed lists -/

/-- Every key of a list lies above a bound. -/
theorem ksorted_cons {α : Type} (a : Nat) (x : α) (r : List (Nat × α)) :
    ksorted ((a, x) :: r) = true ↔ (∀ y ∈ r, a < y.1) ∧ ksorted r = true := by
  induction r generalizing a x with
  | nil => simp [ksorted]
  | cons y r ih =>
    obtain ⟨b, z⟩ := y
    rw [show ksorted ((a, x) :: (b, z) :: r) = (decide (a < b) && ksorted ((b, z) :: r)) from rfl, Bool.and_eq_true, decide_eq_true_eq, ih]
    constructor
    · rintro ⟨h, h1, h2⟩
      refine ⟨fun w hw => ?_, h1, h2⟩
      rcases List.mem_cons.mp hw with rfl | hw
      · exact h
      · exact Nat.lt_trans h (h1 w hw)
    · rintro ⟨h, h1, h2⟩
      exact ⟨h (b, z) (List.mem_cons_self ..), h1, h2⟩

/-- What a set list holds. -/
theorem kset_mem {α : Type} {k : Nat} {v : α} {l : List (Nat × α)} {y : Nat × α} (h : y ∈ kset k v l) : y = (k, v) ∨ y ∈ l := by
  induction l with
  | nil => simpa [kset] using h
  | cons x r ih =>
    obtain ⟨a, x⟩ := x
    simp only [kset] at h
    split at h
    · rcases List.mem_cons.mp h with h | h
      · exact .inl h
      · exact .inr (List.mem_cons_of_mem _ h)
    · split at h
      · simpa using h
      · rcases List.mem_cons.mp h with h | h
        · exact .inr (h ▸ List.mem_cons_self ..)
        · exact (ih h).imp_right (List.mem_cons_of_mem _)

/-- What a list holds after a key is removed. -/
theorem kdel_mem {α : Type} {k : Nat} {l : List (Nat × α)} {y : Nat × α} (h : y ∈ kdel k l) : y ∈ l := by
  induction l with
  | nil => exact h
  | cons x r ih =>
    obtain ⟨a, x⟩ := x
    simp only [kdel] at h
    split at h
    · exact List.mem_cons_of_mem _ h
    · rcases List.mem_cons.mp h with h | h
      · exact h ▸ List.mem_cons_self ..
      · exact List.mem_cons_of_mem _ (ih h)

theorem kset_ksorted {α : Type} (k : Nat) (v : α) (l : List (Nat × α)) (h : ksorted l = true) : ksorted (kset k v l) = true := by
  induction l with
  | nil => rfl
  | cons x r ih =>
    obtain ⟨a, x⟩ := x
    rw [ksorted_cons] at h
    simp only [kset]
    split
    · rename_i e; subst e; exact (ksorted_cons ..).mpr h
    · split
      · rename_i e
        refine (ksorted_cons ..).mpr ⟨fun y hy => ?_, (ksorted_cons ..).mpr h⟩
        rcases List.mem_cons.mp hy with rfl | hy
        · exact e
        · exact Nat.lt_trans e (h.1 y hy)
      · refine (ksorted_cons ..).mpr ⟨fun y hy => ?_, ih h.2⟩
        rcases kset_mem hy with rfl | hy
        · show a < k; omega
        · exact h.1 y hy

theorem kdel_ksorted {α : Type} (k : Nat) (l : List (Nat × α)) (h : ksorted l = true) : ksorted (kdel k l) = true := by
  induction l with
  | nil => rfl
  | cons x r ih =>
    obtain ⟨a, x⟩ := x
    rw [ksorted_cons] at h
    simp only [kdel]
    split
    · exact h.2
    · exact (ksorted_cons ..).mpr ⟨fun y hy => h.1 y (kdel_mem hy), ih h.2⟩

/-- A key reads what was set there. -/
theorem kget_kset_same {α : Type} (k : Nat) (v : α) (l : List (Nat × α)) : kget k (kset k v l) = some v := by
  induction l with
  | nil => simp [kset, kget]
  | cons x r ih =>
    obtain ⟨a, x⟩ := x
    simp only [kset]
    split
    · simp [kget]
    · split
      · simp [kget]
      · simp_all [kget]

/-- Setting a key leaves the others alone. -/
theorem kget_kset_other {α : Type} {k j : Nat} (h : j ≠ k) (v : α) (l : List (Nat × α)) : kget j (kset k v l) = kget j l := by
  induction l with
  | nil => simp [kset, kget, Ne.symm h]
  | cons x r ih =>
    obtain ⟨a, x⟩ := x
    simp only [kset]
    split
    · rename_i e; subst e; simp [kget, Ne.symm h]
    · split
      · simp [kget, Ne.symm h]
      · simp [kget, ih]

/-- Removing a key leaves the others alone. -/
theorem kget_kdel_other {α : Type} {k j : Nat} (h : j ≠ k) (l : List (Nat × α)) : kget j (kdel k l) = kget j l := by
  induction l with
  | nil => rfl
  | cons x r ih =>
    obtain ⟨a, x⟩ := x
    simp only [kdel]
    split
    · rename_i e; subst e; simp [kget, Ne.symm h]
    · simp [kget, ih]

/-- In a list whose keys rise, a removed key is absent. -/
theorem kget_kdel_same {α : Type} (k : Nat) (l : List (Nat × α)) (h : ksorted l = true) : kget k (kdel k l) = none := by
  induction l with
  | nil => rfl
  | cons x r ih =>
    obtain ⟨a, x⟩ := x
    rw [ksorted_cons] at h
    simp only [kdel]
    split
    · rename_i e; subst e
      have : ∀ r : List (Nat × α), (∀ y ∈ r, a < y.1) → kget a r = none := by
        intro r hr
        induction r with
        | nil => rfl
        | cons y r ihr =>
          have := hr y (List.mem_cons_self ..)
          simp only [kget]
          rw [if_neg (by omega), ihr fun z hz => hr z (List.mem_cons_of_mem _ hz)]
      exact this r h.1
    · rename_i e; simp [kget, e, ih h.2]

/-! ### Buckets -/

/-- A bucket write keeps the one form. -/
@[simp] theorem State.setBucket_wf (s : State) (n : Nat) (b : Line) (h : spillWf s.spill = true) :
    spillWf (s.setBucket n b).spill = true := by
  simp only [spillWf, Bool.and_eq_true, List.all_eq_true, bne_iff_ne] at h ⊢
  unfold State.setBucket
  split
  · exact ⟨kdel_ksorted _ _ h.1, fun y hy => h.2 y (kdel_mem hy)⟩
  · rename_i e
    refine ⟨kset_ksorted _ _ _ h.1, fun y hy => ?_⟩
    rcases kset_mem hy with rfl | hy
    · exact e
    · exact h.2 y hy

/-- A bucket reads what was written to it. -/
theorem State.bucket_setBucket_same (s : State) (n : Nat) (b : Line) (h : spillWf s.spill = true) : (s.setBucket n b).bucket n = b := by
  simp only [spillWf, Bool.and_eq_true] at h
  unfold State.setBucket State.bucket
  split
  · rename_i e; simp [kget_kdel_same _ _ h.1, e]
  · simp [kget_kset_same]

/-- A bucket write leaves every other bucket alone. -/
theorem State.bucket_setBucket_other (s : State) {n m : Nat} (hm : m ≠ n) (b : Line) : (s.setBucket n b).bucket m = s.bucket m := by
  unfold State.setBucket State.bucket
  split
  · simp [kget_kdel_other hm]
  · simp [kget_kset_other hm]

/-! ### Operations that leave the spill directory, or its form, alone -/

/-- A branch of a conditional. -/
@[simp] theorem State.spill_ite (c : Prop) [Decidable c] (a b : State) :
    (if c then a else b).spill = if c then a.spill else b.spill := by
  split <;> rfl

/-- Both branches of a conditional leave it alone. -/
theorem State.spill_branch {c : Prop} [Decidable c] {a b s : State} (ha : a.spill = s.spill) (hb : b.spill = s.spill) :
    (if c then a else b).spill = s.spill := by
  split <;> assumption

/-- Both branches of a conditional keep its form. -/
theorem State.wf_branch {c : Prop} [Decidable c] {a b : State} (ha : spillWf a.spill = true) (hb : spillWf b.spill = true) :
    spillWf (if c then a else b).spill = true := by
  split <;> assumption

/-- A fold of an operation that leaves it alone. -/
@[simp] theorem State.spill_foldl {α : Type} (f : State → α → State) (hf : ∀ s a, (f s a).spill = s.spill) (l : List α) (s : State) :
    (l.foldl f s).spill = s.spill := by
  induction l generalizing s with
  | nil => rfl
  | cons a l ih => rw [List.foldl_cons, ih, hf]

/-- A fold of an operation that keeps its form. -/
@[simp] theorem State.wf_foldl {α : Type} (f : State → α → State)
    (hf : ∀ s a, spillWf s.spill = true → spillWf (f s a).spill = true) (l : List α) (s : State) (h : spillWf s.spill = true) :
    spillWf (l.foldl f s).spill = true := by
  induction l generalizing s with
  | nil => exact h
  | cons a l ih => exact ih _ (hf _ _ h)

/-- A fold that carries more than the state. -/
@[simp] theorem State.spill_foldl_fst {α β : Type} (f : State × β → α → State × β) (hf : ∀ x a, (f x a).1.spill = x.1.spill)
    (l : List α) (x : State × β) : (l.foldl f x).1.spill = x.1.spill := by
  induction l generalizing x with
  | nil => rfl
  | cons a l ih => rw [List.foldl_cons, ih, hf]

/-- A repetition of an operation that leaves it alone. -/
theorem State.spill_iter (f : State → State) (hf : ∀ s, (f s).spill = s.spill) (n : Nat) (s : State) :
    (Nat.rec s (fun _ t => f t) n : State).spill = s.spill := by
  induction n with
  | zero => rfl
  | succ n ih => exact (hf _).trans ih

/-- The state of a pair that an operation answers. -/
theorem State.spill_fst {α : Type} {x : State × α} {a : α} {t s : State} (h : x = (t, a)) (hx : x.1.spill = s.spill) :
    t.spill = s.spill := by
  rw [h] at hx; exact hx

/-- The state of a pair that an operation answers. -/
theorem State.spill_snd {α : Type} {x : α × State} {a : α} {t s : State} (h : x = (a, t)) (hx : x.2.spill = s.spill) :
    t.spill = s.spill := by
  rw [h] at hx; exact hx

/-- The state of a pair that an operation answers. -/
theorem State.wf_fst {α : Type} {x : State × α} {a : α} {t : State} (h : x = (t, a)) (hx : spillWf x.1.spill = true) :
    spillWf t.spill = true := by
  rw [h] at hx; exact hx

/-- The state of a pair that an operation answers. -/
theorem State.wf_snd {α : Type} {x : α × State} {a : α} {t : State} (h : x = (a, t)) (hx : spillWf x.2.spill = true) :
    spillWf t.spill = true := by
  rw [h] at hx; exact hx

end Sys2Proof.Machine
end

