-- ==== Sys2Proof/Laws/SpillBase.lean ====
section
/-! SUPPORT. Each operation leaves the spill directory alone, or keeps the one form of its list: the operations over registers, ports and tables, the placement tables, the root record, the Endgame unit and the loader. -/

namespace Sys2Proof.Machine

open Sys2Proof

set_option linter.unreachableTactic false
set_option linter.unusedTactic false
set_option linter.unusedSimpArgs false

/-! ### Machine/Ops.lean -/

@[simp] theorem State.modSlice_spill (s :
    State) (p : Nat) (f : Slice → Slice) : (State.modSlice s p f).spill = s.spill := rfl

@[simp] theorem State.modTrk_spill (s :
    State) (p n : Nat) (f : Tracker → Tracker) : (State.modTrk s p n f).spill = s.spill := rfl

@[simp] theorem State.failSlice_spill (s : State) (p : Nat) (c : FailCause) : (State.failSlice s p c).spill = s.spill := rfl

@[simp] theorem State.modHostPort_spill (s :
    State) (p : Nat) (f : HostPort → HostPort) : (State.modHostPort s p f).spill = s.spill := rfl

@[simp] theorem State.modHid_spill (s : State) (h : Nat) (f : Hid → Hid) : (State.modHid s h f).spill = s.spill := rfl

@[simp] theorem State.modAgentPort_spill (s :
    State) (p : Nat) (f : AgentPort → AgentPort) : (State.modAgentPort s p f).spill = s.spill := rfl

@[simp] theorem State.modMemPort_spill (s :
    State) (p : Nat) (f : MemPort → MemPort) : (State.modMemPort s p f).spill = s.spill := rfl

@[simp] theorem State.takeMsg_spill (s : State) (m : NMsg) : (State.takeMsg s m).spill = s.spill := rfl

@[simp] theorem State.logEv_spill (s :
    State) (code sev src unit : Nat) (detail : W64) : (State.logEv s code sev src unit detail).spill = s.spill := rfl

@[simp] theorem State.logPoison_spill (s :
    State) (p : Nat) (line : LineAddr) (row : Nat) : (State.logPoison s p line row).spill = s.spill := by
  unfold State.logPoison; split <;> simp

@[simp] theorem State.logPoisonDir_spill (s :
    State) (line : LineAddr) (row : Nat) : (State.logPoisonDir s line row).spill = s.spill := by simp [State.logPoisonDir]

@[simp] theorem State.setHealth_spill (s :
    State) (f : Gl → Gl) : (State.setHealth s f).spill = s.spill := by simp [State.setHealth]

@[simp] theorem State.setHealthWith_spill (s :
    State) (f : Gl → Gl) (code sev unit : Nat) (detail : W64) : (State.setHealthWith s f code sev unit detail).spill = s.spill := rfl

/-! ### Machine/Mesh.lean -/

@[simp] theorem State.meshSend_spill (s : State) (m : MeshMsg) : (State.meshSend s m).spill = s.spill := rfl

@[simp] theorem State.meshData_spill (s :
    State) (m : MeshMsg) (poison : Bool) : (State.meshData s m poison).spill = s.spill := rfl

@[simp] theorem State.send_spill (s : State) (m : NMsg) : (State.send s m).spill = s.spill := rfl

@[simp] theorem State.meshCycle_spill (s : State) : (State.meshCycle s).spill = s.spill := rfl

@[simp] theorem State.meshRun_spill (n : Nat) (s : State) : (State.meshRun n s).spill = s.spill := by
  induction n generalizing s with
  | zero => rfl
  | succ n ih =>
    unfold State.meshRun
    repeat' (first
      | with_reducible rfl
      | split
      | simp [ih])

@[simp] theorem State.meshMove_spill (s : State) : (State.meshMove s).spill = s.spill := by simp [State.meshMove]

/-! ### Machine/RegMap.lean -/

@[simp] theorem State.count_spill (s : State) (p ev : Nat) (c : Option Cls) (n : Nat := 1) :
    (State.count s p ev c n).spill = s.spill := rfl

/-! ### Machine/Cache.lean -/

@[simp] theorem State.memSubmit_spill (s :
    State) (c : MemCmd) : (State.memSubmit s c).spill = s.spill := by simp [State.memSubmit]

@[simp] theorem State.memBack_spill (s :
    State) (port : Nat) (c : MemCmd) (line poison : Bool) : (State.memBack s port c line poison).spill = s.spill := rfl

@[simp] theorem State.memFree_spill (s : State) (m tag : Nat) : (State.memFree s m tag).spill = s.spill := rfl

@[simp] theorem State.mirSend_spill (s :
    State) (p : Nat) (ops : List MirOp) : (State.mirSend s p ops).1.spill = s.spill := by
  unfold State.mirSend
  split
  · rfl
  · split <;> simp

@[simp] theorem State.meetErr_spill (s :
    State) (p : Nat) (arr : ErrArr) (ev : Option Nat) (ce : Nat) (hit : Nat → Bool) : (State.meetErr s p arr ev ce hit).1.spill = s.spill := by
  unfold State.meetErr
  repeat' (first
    | split
    | simp)

@[simp] theorem State.wayCount_spill (s :
    State) (p : Nat) (arr : ErrArr) (hit : Nat → Bool) : (State.wayCount s p arr hit).spill = s.spill := rfl

@[simp] theorem State.lineUe_spill (s :
    State) (p : Nat) (arr : ErrArr) (i : Nat) : (State.lineUe s p arr i).spill = s.spill := rfl

@[simp] theorem State.readBuf_spill (s :
    State) (p : Nat) (arr : ErrArr) (i : Nat) (l : LineAddr) : (State.readBuf s p arr i l).1.spill = s.spill := by
  unfold State.readBuf
  repeat' (first
    | split
    | simp)

@[simp] theorem State.readWay_spill (s : State) (p i : Nat) : (State.readWay s p i).1.spill = s.spill := by
  unfold State.readWay
  repeat' (first
    | split
    | simp)

@[simp] theorem State.toWpq_spill (s :
    State) (p : Nat) (l : LineAddr) (d : Line) (n : Nib) (po k : Bool) : (State.toWpq s p l d n po k).s.spill = s.spill := by
  unfold State.toWpq; split <;> simp

@[simp] theorem State.newestToWpq_spill (s :
    State) (p : Nat) (l : LineAddr) (d : Line) (n : Nib) (po k : Bool) : (State.newestToWpq s p l d n po k).s.spill = s.spill := by
  simp [State.newestToWpq]

@[simp] theorem State.noteFull_spill (s :
    State) (p : Nat) (sl : Slice) (set : Nat) (freed : Bool) : (State.noteFull s p sl set freed).spill = s.spill := by
  simp [State.noteFull]

@[simp] theorem State.teSend_spill (s : State) (op : TeOp) (use : PerUse) : (State.teSend s op use).1.spill = s.spill := rfl

@[simp] theorem State.place_spill (s : State) (p i : Nat) (c : CLine) : (State.place s p i c).1.spill = s.spill := by
  unfold State.place
  repeat' (first
    | split
    | simp)

@[simp] theorem State.noWay_spill (s :
    State) (p : Nat) (k : Bool) : (State.noWay s p k).s.spill = s.spill := by unfold State.noWay; split <;> simp

@[simp] theorem State.placeClean_spill (s : State) (p : Nat) (c : CLine) : (State.placeClean s p c).s.spill = s.spill := by
  unfold State.placeClean
  repeat' (first
    | split
    | simp)

@[simp] theorem State.fillClean_spill (s :
    State) (p : Nat) (l : LineAddr) (d : Line) (n : Nib) (po k pf : Bool) : (State.fillClean s p l d n po k pf).s.spill = s.spill := by
  unfold State.fillClean
  repeat' (first
    | split
    | simp)

@[simp] theorem State.fillTarget_spill (s :
    State) (p : Nat) (l : LineAddr) (d : Line) (n : Nib) (po k : Bool) : (State.fillTarget s p l d n po k).s.spill = s.spill := by
  unfold State.fillTarget
  repeat' (first
    | split
    | simp)

@[simp] theorem State.writeAround_spill (s :
    State) (p : Nat) (l : LineAddr) (d : Line) (n : Nib) (po k keep : Bool) (ktag : Bool) : (State.writeAround s p l d n po k keep ktag).s.spill = s.spill := by
  simp [State.writeAround]

@[simp] theorem State.writeThrough_spill (s :
    State) (p : Nat) (l : LineAddr) (d : Line) (n : Nib) (po k ktag : Bool) : (State.writeThrough s p l d n po k ktag).s.spill = s.spill := by
  unfold State.writeThrough
  repeat' (first
    | split
    | simp)

@[simp] theorem State.cleanStart_spill (s :
    State) (p : Nat) : (State.cleanStart s p).spill = s.spill := by unfold State.cleanStart; split <;> simp

@[simp] theorem State.writeDirty_spill (s :
    State) (p : Nat) (l : LineAddr) (d : Line) (n : Nib) (po k around ktag : Bool) : (State.writeDirty s p l d n po k around ktag).s.spill = s.spill := by
  unfold State.writeDirty
  repeat' (first
    | split
    | simp)

@[simp] theorem State.invalidate_spill (s :
    State) (p : Nat) (l : LineAddr) : (State.invalidate s p l).s.spill = s.spill := by
  unfold State.invalidate
  repeat' (first
    | split
    | simp)

@[simp] theorem State.recordNib_spill (s :
    State) (p : Nat) (l : LineAddr) (n : Nib) : (State.recordNib s p l n).1.spill = s.spill := by
  unfold State.recordNib; split <;> simp

@[simp] theorem State.writeBack_spill (s :
    State) (p i : Nat) (c0 : CLine) : (State.writeBack s p i c0).spill = s.spill := by simp [State.writeBack]

/-! ### Machine/Placement.lean -/

@[simp] theorem State.setEnt_spill (s :
    State) (p : Page) (e : PEnt) : (State.setEnt s p e).spill = s.spill := by simp [State.setEnt]

@[simp] theorem State.modEnt_spill (s :
    State) (p : Page) (f : PEnt → PEnt) : (State.modEnt s p f).spill = s.spill := by simp [State.modEnt]

@[simp] theorem State.rewriteCorrupt_spill (s :
    State) (p : Page) : (State.rewriteCorrupt s p).spill = s.spill := by simp [State.rewriteCorrupt]

@[simp] theorem State.readEnt_spill (s : State) (p : Page) : (State.readEnt s p).spill = s.spill := by
  unfold State.readEnt; split <;> simp

theorem State.takeFrame_spill {s : State} {p : Page} {heat : BitVec 8} {n' : Nat} {t : State} (h : State.takeFrame s p heat = some (n', t)) : t.spill = s.spill := by
  unfold State.takeFrame at h
  repeat' (first | contradiction | split at h)
  all_goals
    injection h with h
    injection h with h1 h2
    subst h2
    simp

theorem State.takeSlot_spill {s : State} {k : Nat} {p : Page} {n' : Nat} {t : State} (h : State.takeSlot s k p = some (n', t)) : t.spill = s.spill := by
  unfold State.takeSlot at h
  repeat' (first | contradiction | split at h)
  all_goals
    injection h with h
    injection h with h1 h2
    subst h2
    simp

@[simp] theorem State.dropFrame_spill (s : State) (f : Nat) : (State.dropFrame s f).spill = s.spill := rfl

@[simp] theorem State.dropSlot_spill (s : State) (n : Nat) : (State.dropSlot s n).spill = s.spill := rfl

@[simp] theorem State.dirtyFrame_spill (s :
    State) (f : Nat) : (State.dirtyFrame s f).spill = s.spill := by simp [State.dirtyFrame]

@[simp] theorem State.dirtySlot_spill (s :
    State) (n : Nat) : (State.dirtySlot s n).spill = s.spill := by simp [State.dirtySlot]

@[simp] theorem State.modMove_spill (s : State) (p : Page) (f : Move → Move) : (State.modMove s p f).spill = s.spill := rfl

@[simp] theorem State.startCopy_spill (s : State) (m : Move) : (State.startCopy s m).spill = s.spill := rfl

@[simp] theorem State.newMove_spill (s :
    State) (p : Page) (kind : MoveKind) (stage : MoveStage) (askers : List Nat) (frame : Nat) (forced : Bool) : (State.newMove s p kind stage askers frame forced).spill = s.spill := by
  simp [State.newMove]

@[simp] theorem State.startDemotion_spill (s :
    State) (p : Page) (forced : Bool) : (State.startDemotion s p forced).spill = s.spill := by
  unfold State.startDemotion; split <;> simp

@[simp] theorem State.makeRoom_spill (s : State) : (State.makeRoom s).spill = s.spill := by
  unfold State.makeRoom
  split
  · rfl
  · split <;> simp

@[simp] theorem State.startPromotion_spill (s :
    State) (phys : Nat) (p : Page) : (State.startPromotion s phys p).spill = s.spill := by
  unfold State.startPromotion
  repeat' (first
    | split
    | simp
    | refine (State.takeFrame_spill (by assumption)).trans ?_)

@[simp] theorem State.startHintPromotion_spill (s : State) (p : Page) : (State.startHintPromotion s p).spill = s.spill := by
  unfold State.startHintPromotion
  repeat' (first
    | split
    | simp
    | refine (State.takeFrame_spill (by assumption)).trans ?_)

@[simp] theorem State.takePromo_spill (s : State) (phys : Nat) (p : Page) : (State.takePromo s phys p).spill = s.spill := by
  unfold State.takePromo
  repeat' (first
    | split
    | simp)

@[simp] theorem State.kick_spill (s : State) : (State.kick s).spill = s.spill := by simp [State.kick]

@[simp] theorem State.endMove_spill (s : State) (m : Move) : (State.endMove s m).spill = s.spill := by
  unfold State.endMove
  repeat' (first
    | with_reducible rfl
    | with_reducible refine (State.spill_foldl _ (fun s a => ?_) _ _).trans ?_
    | split
    | simp
    | with_reducible refine State.spill_fst (by assumption) ?_
    | with_reducible refine State.spill_snd (by assumption) ?_)

@[simp] theorem State.abortMove_spill (s : State) (m : Move) : (State.abortMove s m).spill = s.spill := by
  unfold State.abortMove
  repeat' (first
    | split
    | simp)

@[simp] theorem State.poisonPage_spill (s :
    State) (p : Page) (row : Nat) : (State.poisonPage s p row).spill = s.spill := by simp [State.poisonPage]

@[simp] theorem State.finishPromotion_spill (s : State) (m : Move) : (State.finishPromotion s m).spill = s.spill := by
  unfold State.finishPromotion
  repeat' (first
    | split
    | simp)

@[simp] theorem State.teRename_spill (s : State) (a b : Nat) : (State.teRename s a b).spill = s.spill := rfl

@[simp] theorem State.teFree_spill (s : State) (t : Nat) : (State.teFree s t).spill = s.spill := by
  unfold State.teFree
  repeat' (first
    | split
    | simp)

@[simp] theorem State.teStatus_spill (s :
    State) (st : BitVec 4) : (State.teStatus s st).spill = s.spill := by simp [State.teStatus]

@[simp] theorem State.promotionCopied_spill (s :
    State) (m : Move) (st : BitVec 4) : (State.promotionCopied s m st).spill = s.spill := by simp [State.promotionCopied]

@[simp] theorem State.demoteToPersist_spill (s : State) (m : Move) : (State.demoteToPersist s m).spill = s.spill := by
  unfold State.demoteToPersist
  repeat' (first
    | split
    | simp)

@[simp] theorem State.compress_spill (s :
    State) (m : Move) (tables : BitVec 2) : (State.compress s m tables).spill = s.spill := by
  unfold State.compress; split <;> simp

@[simp] theorem State.takeDack_spill (s : State) (p : Page) : (State.takeDack s p).spill = s.spill := by
  unfold State.takeDack
  repeat' (first
    | split
    | simp)

@[simp] theorem State.takeDnote_spill (s :
    State) (p : Page) : (State.takeDnote s p).spill = s.spill := by unfold State.takeDnote; split <;> simp

@[simp] theorem State.flushDone_spill (s :
    State) (t : Nat) : (State.flushDone s t).spill = s.spill := by unfold State.flushDone; split <;> simp

@[simp] theorem State.compressed_spill (s :
    State) (m : Move) (st : BitVec 4) (len : Nat) : (State.compressed s m st len).spill = s.spill := by
  unfold State.compressed
  repeat' (first
    | split
    | simp
    | refine (State.takeSlot_spill (by assumption)).trans ?_)

@[simp] theorem State.slotStored_spill (s :
    State) (m : Move) (st : BitVec 4) : (State.slotStored s m st).spill = s.spill := by
  unfold State.slotStored
  repeat' (first
    | split
    | simp)

@[simp] theorem State.demotedToPersist_spill (s :
    State) (m : Move) (st : BitVec 4) : (State.demotedToPersist s m st).spill = s.spill := by
  unfold State.demotedToPersist
  repeat' (first
    | split
    | simp)

@[simp] theorem State.startEviction_spill (s :
    State) (n : Nat) (p : Page) : (State.startEviction s n p).spill = s.spill := by
  unfold State.startEviction
  repeat' (first
    | split
    | simp)

@[simp] theorem State.evicted_spill (s : State) (m : Move) (st : BitVec 4) : (State.evicted s m st).spill = s.spill := by
  unfold State.evicted
  repeat' (first
    | split
    | simp)

@[simp] theorem State.declineMove_spill (s :
    State) (p : Page) (heat : BitVec 8) : (State.declineMove s p heat).spill = s.spill := by
  unfold State.declineMove
  split
  · rfl
  · split <;> simp

@[simp] theorem State.putHeat_spill (s :
    State) (p : Page) (heat : BitVec 8) : (State.putHeat s p heat).spill = s.spill := by unfold State.putHeat; split <;> simp

@[simp] theorem State.abandonMoves_spill (s : State) : (State.abandonMoves s).spill = s.spill := by
  unfold State.abandonMoves
  repeat' (first
    | with_reducible rfl
    | with_reducible refine (State.spill_foldl _ (fun s a => ?_) _ _).trans ?_
    | split
    | simp
    | with_reducible refine State.spill_fst (by assumption) ?_
    | with_reducible refine State.spill_snd (by assumption) ?_)

@[simp] theorem State.demotionClock_spill (s : State) : (State.demotionClock s).spill = s.spill := by
  unfold State.demotionClock
  repeat' (first
    | split
    | simp)

@[simp] theorem State.evictionClock_spill (s : State) (k : Nat) : (State.evictionClock s k).spill = s.spill := by
  unfold State.evictionClock
  repeat' (first
    | split
    | simp)

@[simp] theorem State.ackMark_spill (s : State) (phys : Nat) (p : Page) : (State.ackMark s phys p).spill = s.spill := rfl

@[simp] theorem State.grantMark_spill (s : State) (phys : Nat) (p : Page) : (State.grantMark s phys p).spill = s.spill := by
  unfold State.grantMark
  repeat' (first
    | split
    | simp)

@[simp] theorem State.takeMark_spill (s :
    State) (phys : Nat) (p : Page) : (State.takeMark s phys p).spill = s.spill := by simp [State.takeMark]

@[simp] theorem State.releaseMark_spill (s :
    State) : (State.releaseMark s).spill = s.spill := by unfold State.releaseMark; split <;> simp

@[simp] theorem State.startCleaning_spill (s : State) : (State.startCleaning s).spill = s.spill := by
  unfold State.startCleaning
  repeat' (first
    | split
    | simp)

@[simp] theorem State.takeCleanAck_spill (s :
    State) (p : Page) : (State.takeCleanAck s p).spill = s.spill := by unfold State.takeCleanAck; split <;> simp

@[simp] theorem State.cleaned_spill (s :
    State) (c : Cleaning) (st : BitVec 4) : (State.cleaned s c st).spill = s.spill := by
  unfold State.cleaned
  repeat' (first
    | split
    | simp)

@[simp] theorem State.checkBudget_spill (s : State) : (State.checkBudget s).spill = s.spill := by simp [State.checkBudget]

@[simp] theorem State.takeStamp_spill (s :
    State) (phys : Nat) (p : Page) : (State.takeStamp s phys p).spill = s.spill := by simp [State.takeStamp]

@[simp] theorem State.sweepOne_spill (s : State) : (State.sweepOne s).spill = s.spill := by simp [State.sweepOne]

@[simp] theorem State.sweep_spill (s : State) : (State.sweep s).spill = s.spill := by
  unfold State.sweep
  repeat' (first
    | with_reducible rfl
    | with_reducible refine (State.spill_iter _ (fun s => ?_) _ _).trans ?_
    | split
    | simp
    | with_reducible refine State.spill_fst (by assumption) ?_
    | with_reducible refine State.spill_snd (by assumption) ?_)

@[simp] theorem State.sweepIncrement_spill (s :
    State) : (State.sweepIncrement s).spill = s.spill := by simp [State.sweepIncrement]

@[simp] theorem State.loadChunk_spill (s :
    State) (n : Nat) (pins : List (Page × BitVec 3)) : (State.loadChunk s n pins).spill = s.spill := by
  simp [State.loadChunk]

@[simp] theorem State.promotePinned_spill (s :
    State) (pins : List (Page × BitVec 3)) : (State.promotePinned s pins).spill = s.spill := by simp [State.promotePinned]

/-! ### Machine/Root.lean -/

@[simp] theorem State.persistWrites_spill (n : Nat) (s :
    State) (a : Nat) (ls : List Line) : (State.persistWrites n s a ls).1.spill = s.spill := by
  induction n generalizing s a ls with
  | zero => rfl
  | succ n ih =>
    unfold State.persistWrites
    repeat' (first
      | with_reducible rfl
      | split
      | simp [ih])

@[simp] theorem State.writeRoot_spill (s :
    State) (st : BitVec 8) (manifest progress : Nat) : (State.writeRoot s st manifest progress).spill = s.spill := by
  simp [State.writeRoot]

@[simp] theorem State.beginRestart_spill (s : State) : (State.beginRestart s).spill = s.spill := rfl

@[simp] theorem State.writeRunning_spill (s : State) : (State.writeRunning s).spill = s.spill := by simp [State.writeRunning]

@[simp] theorem State.adoptCopy_spill (s :
    State) (second : Bool) (c : RootCopy) (pins : List Page) : (State.adoptCopy s second c pins).spill = s.spill := by
  simp [State.adoptCopy]

@[simp] theorem State.decideRestart_spill (s :
    State) : (State.decideRestart s).spill = s.spill := by unfold State.decideRestart; split <;> simp

@[simp] theorem State.copyRead_spill (s :
    State) (second : Bool) (r : Option (RootCopy × List Page)) : (State.copyRead s second r).spill = s.spill := by
  simp [State.copyRead]

@[simp] theorem State.readPins_spill (s :
    State) (second : Bool) (c : RootCopy) : (State.readPins s second c).spill = s.spill := by simp [State.readPins]

@[simp] theorem State.headerRead_spill (s :
    State) (second : Bool) (st : BitVec 4) (ls : List PLine) : (State.headerRead s second st ls).spill = s.spill := by
  simp [State.headerRead]

@[simp] theorem State.pinsRead_spill (s :
    State) (second : Bool) (st : BitVec 4) (ls : List PLine) : (State.pinsRead s second st ls).spill = s.spill := by
  unfold State.pinsRead; split <;> simp

@[simp] theorem State.readManifest_spill (s : State) : (State.readManifest s).spill = s.spill := by simp [State.readManifest]

@[simp] theorem State.manifestRead_spill (s :
    State) (from_ : Nat) (ls : List PLine) : (State.manifestRead s from_ ls).spill = s.spill := by simp [State.manifestRead]

@[simp] theorem State.installPm_spill (s :
    State) (p : Page) : (State.installPm s p).spill = s.spill := by unfold State.installPm; split <;> simp

@[simp] theorem State.stampPage_spill (s :
    State) (p : Page) : (State.stampPage s p).spill = s.spill := by unfold State.stampPage; split <;> simp

@[simp] theorem State.pinDirty_spill (s : State) (p : Page) : (State.pinDirty s p).spill = s.spill := by
  unfold State.pinDirty
  repeat' (first
    | split
    | simp)

@[simp] theorem State.reconcileOne_spill (s :
    State) (p : Page) (poison : Bool) : (State.reconcileOne s p poison).spill = s.spill := by
  unfold State.reconcileOne
  repeat' (first
    | split
    | simp
    | refine (State.takeFrame_spill (by assumption)).trans ?_)

@[simp] theorem State.reconcile_spill (s : State) : (State.reconcile s).spill = s.spill := by simp [State.reconcile]

@[simp] theorem State.restartCopied_spill (s :
    State) (p : Page) (f : Nat) (poison : Bool) : (State.restartCopied s p f poison).spill = s.spill := by
  simp [State.restartCopied]

@[simp] theorem State.sendSaves_spill (n : Nat) (s : State) : (State.sendSaves n s).spill = s.spill := by
  induction n generalizing s with
  | zero => rfl
  | succ n ih =>
    unfold State.sendSaves
    repeat' (first
      | with_reducible rfl
      | split
      | simp [ih])

@[simp] theorem State.saveNext_spill (s : State) (shutdown : Bool) : (State.saveNext s shutdown).spill = s.spill := by
  unfold State.saveNext
  split
  · rfl
  · split <;> simp

@[simp] theorem State.beginSave_spill (s :
    State) (shutdown : Bool) : (State.beginSave s shutdown).spill = s.spill := by simp [State.beginSave]

@[simp] theorem State.pageSaved_spill (s00 :
    State) (idx : Nat) (st : BitVec 4) (shutdown poison : Bool) : (State.pageSaved s00 idx st shutdown poison).spill = s00.spill := by
  unfold State.pageSaved
  repeat' (first
    | split
    | simp)

/-! ### Machine/Endgame.lean -/

@[simp] theorem State.enterDrain_spill (s :
    State) (n : Nat) : (State.enterDrain s n).spill = s.spill := by simp [State.enterDrain]

@[simp] theorem State.drainCause_spill (s :
    State) (n : Nat) : (State.drainCause s n).spill = s.spill := by unfold State.drainCause; split <;> simp

@[simp] theorem State.failBlock_spill (s : State) (code : Nat) : (State.failBlock s code).spill = s.spill := by simp [State.failBlock]

@[simp] theorem State.blockFail_spill (s :
    State) (code : Nat) : (State.blockFail s code).spill = s.spill := by simp [State.blockFail]

@[simp] theorem State.egInt_spill (s : State) (bit : Nat) : (State.egInt s bit).spill = s.spill := rfl

@[simp] theorem State.egSettle_spill (s0 : State) : (State.egSettle s0).spill = s0.spill := by
  unfold State.egSettle
  repeat' (first
    | split
    | simp)

@[simp] theorem State.egWake_spill (s : State) (bit : Nat) : (State.egWake s bit).spill = s.spill := by simp [State.egWake]

@[simp] theorem State.egInputs_spill (s :
    State) (i : EgInputs) : (State.egInputs s i).spill = s.spill := by simp [State.egInputs]

@[simp] theorem State.egWarned_spill (s : State) : (State.egWarned s).spill = s.spill := by simp [State.egWarned]

@[simp] theorem State.egVref_spill (s : State) : (State.egVref s).spill = s.spill := by simp [State.egVref]

@[simp] theorem State.egSample_spill (s :
    State) (c : Nat) (raw : BitVec 12) : (State.egSample s c raw).spill = s.spill := by simp [State.egSample]

@[simp] theorem State.adcTurn_spill (s : State) (c : Nat) (raw : BitVec 12) : (State.adcTurn s c raw).spill = s.spill := by
  unfold State.adcTurn
  split <;> simp

@[simp] theorem State.checkShrunk_spill (s : State) : (State.checkShrunk s).spill = s.spill := by simp [State.checkShrunk]

@[simp] theorem State.allowTake_spill (s :
    State) (a : Nat) : (State.allowTake s a).spill = s.spill := by simp [State.allowTake]

@[simp] theorem State.allowCompute_spill (s : State) : (State.allowCompute s).spill = s.spill := by simp [State.allowCompute]

@[simp] theorem State.saveEnd_spill (s : State) : (State.saveEnd s).spill = s.spill := by simp [State.saveEnd]

@[simp] theorem State.warmDrain_spill (s : State) : (State.warmDrain s).spill = s.spill := by
  unfold State.warmDrain
  split
  · rfl
  · split <;> simp

@[simp] theorem State.restartOn_spill (s : State) : (State.restartOn s).spill = s.spill := by simp [State.restartOn]

@[simp] theorem State.resumeService_spill (s :
    State) : (State.resumeService s).spill = s.spill := by simp [State.resumeService]

@[simp] theorem State.rootWritten_spill (s : State) : (State.rootWritten s).spill = s.spill := by simp [State.rootWritten]

/-! ### Machine/Registers.lean -/

@[simp] theorem State.cfgError_spill (s : State) (o : Nat) : (State.cfgError s o).spill = s.spill := by simp [State.cfgError]

@[simp] theorem State.putForce_spill (s :
    State) (o : Nat) (v : W32) : (State.putForce s o v).spill = s.spill := by simp [State.putForce]

@[simp] theorem State.ur_spill (s : State) : (State.ur s).spill = s.spill := rfl

@[simp] theorem State.guarded_spill (s :
    State) (write : Bool) (off : BitVec 27) : (State.guarded s write off).spill = s.spill := rfl

@[simp] theorem State.answer_spill (s : State) (w : W32) : (State.answer s w).spill = s.spill := rfl

@[simp] theorem State.readEffect_spill (s :
    State) (o : Nat) (m : W32) (gs : Bool) : (State.readEffect s o m gs).spill = s.spill := by
  unfold State.readEffect
  repeat' (first
    | with_reducible rfl
    | with_reducible refine State.spill_branch ?_ ?_
    | split
    | simp
    | with_reducible refine State.spill_fst (by assumption) ?_
    | with_reducible refine State.spill_snd (by assumption) ?_)

@[simp] theorem State.touchSlice_spill (s :
    State) (o : Nat) : (State.touchSlice s o).spill = s.spill := by unfold State.touchSlice; split <;> simp

@[simp] theorem State.traceServe_spill (s : State) (n : Nat) : (State.traceServe s n).spill = s.spill := rfl

@[simp] theorem State.traceAll_spill (s : State) : (State.traceAll s).spill = s.spill := rfl

@[simp] theorem State.traceFlit_spill (s : State) (n : Nat) (r : TraceRec) : (State.traceFlit s n r).spill = s.spill := rfl

@[simp] theorem State.regRead_spill (s :
    State) (off : BitVec 27) (r : RegRd) : (State.regRead s off r).spill = s.spill := by simp [State.regRead]

@[simp] theorem State.store_spill (s :
    State) (o : Nat) (d : RegDef) (v : W32) : (State.store s o d v).spill = s.spill := by simp [State.store]

@[simp] theorem State.commit_spill (s : State) (m : W32) : (State.commit s m).spill = s.spill := by simp [State.commit]

@[simp] theorem State.peekErr_spill (s : State) (p t i : Nat) : (State.peekErr s p t i).spill = s.spill := by
  unfold State.peekErr
  repeat' (first
    | split
    | simp)

@[simp] theorem State.peek_spill (s :
    State) (p : Nat) (ctl : W32) : (State.peek s p ctl).spill = s.spill := by unfold State.peek; split <;> simp

/-! ### Machine/Force.lean -/

@[simp] theorem State.dealCredits_spill (s : State) (p : Nat) : (State.dealCredits s p).spill = s.spill := rfl

@[simp] theorem State.entryFreed_spill (s : State) (p g : Nat) : (State.entryFreed s p g).spill = s.spill := rfl

@[simp] theorem State.mscFollow_spill (s : State) (p : Nat) : (State.mscFollow s p).spill = s.spill := rfl

@[simp] theorem State.mscWaysFollow_spill (s old : State) (p : Nat) : (State.mscWaysFollow s old p).spill = s.spill := rfl

@[simp] theorem State.sfWaysFollow_spill (s old :
    State) (p : Nat) : (State.sfWaysFollow s old p).spill = s.spill := by simp [State.sfWaysFollow]

@[simp] theorem State.pmcFollow_spill (s :
    State) (p : Nat) (offs : List Nat) : (State.pmcFollow s p offs).spill = s.spill := rfl

@[simp] theorem State.inForce_spill (s old :
    State) (offs : List Nat) : (State.inForce s old offs).spill = s.spill := by simp [State.inForce]

/-! ### Machine/Loader.lean -/

@[simp] theorem State.loadReg_spill (s :
    State) (o : Nat) (v : W32) : (State.loadReg s o v).spill = s.spill := by unfold State.loadReg; split <;> simp

@[simp] theorem State.loadSec_spill (s :
    State) (b : List Byte) (n : Nat) : (State.loadSec s b n).spill = s.spill := by simp [State.loadSec]

@[simp] theorem State.loadCeils_spill (s :
    State) (b : List Byte) : (State.loadCeils s b).spill = s.spill := by simp [State.loadCeils]

@[simp] theorem State.loadSeeds_spill (s :
    State) (b : List Byte) : (State.loadSeeds s b).spill = s.spill := by simp [State.loadSeeds]

@[simp] theorem State.loadSnpTo_spill (s :
    State) (b : List Byte) : (State.loadSnpTo s b).spill = s.spill := by simp [State.loadSnpTo]

@[simp] theorem State.loadTable_spill (s : State) (b : List Byte) : (State.loadTable s b).spill = s.spill := rfl

@[simp] theorem State.loadHids_spill (s : State) (b : List Byte) : (State.loadHids s b).spill = s.spill := rfl

@[simp] theorem State.countPlacement_spill (s : State) (b : List Byte) : (State.countPlacement s b).spill = s.spill := rfl

@[simp] theorem State.loadAll_spill (s : State) (b : List Byte) : (State.loadAll s b).spill = s.spill := by
  unfold State.loadAll
  repeat' (first
    | with_reducible rfl
    | with_reducible refine (State.spill_foldl _ (fun s a => ?_) _ _).trans ?_
    | split
    | simp
    | with_reducible refine State.spill_fst (by assumption) ?_
    | with_reducible refine State.spill_snd (by assumption) ?_)

@[simp] theorem State.walkOne_spill (st : State × Nat × Bool) (p : Nat) : (State.walkOne st p).1.spill = st.1.spill := by
  unfold State.walkOne
  repeat' (first
    | with_reducible rfl
    | split
    | simp)

@[simp] theorem State.walkChannels_spill (s : State) : (State.walkChannels s).spill = s.spill := rfl

@[simp] theorem State.walkAdopt_spill (s : State) : (State.walkAdopt s).spill = s.spill := by
  unfold State.walkAdopt
  repeat' (first
    | split
    | simp)

@[simp] theorem State.walk_spill (s : State) : (State.walk s).spill = s.spill := by simp [State.walk]

@[simp] theorem State.slotRejected_spill (s :
    State) (slotB : Bool) (sec : Nat) : (State.slotRejected s slotB sec).spill = s.spill := rfl

@[simp] theorem State.noImage_spill (s : State) : (State.noImage s).spill = s.spill := rfl

@[simp] theorem State.headersIn_spill (s :
    State) (a b : List Byte) : (State.headersIn s a b).spill = s.spill := by simp [State.headersIn]

@[simp] theorem State.slotFailed_spill (s :
    State) (sec : Nat) : (State.slotFailed s sec).spill = s.spill := by unfold State.slotFailed; split <;> simp

@[simp] theorem State.slotRead_spill (s : State) (bytes : List Byte) : (State.slotRead s bytes).spill = s.spill := by
  unfold State.slotRead
  repeat' (first
    | split
    | simp)

@[simp] theorem State.fallbackSeen_spill (s :
    State) (was : Bool) : (State.fallbackSeen s was).spill = s.spill := by simp [State.fallbackSeen]

@[simp] theorem State.startImage_spill (s : State) : (State.startImage s).spill = s.spill := by simp [State.startImage]

@[simp] theorem State.reloadFailed_spill (s : State) : (State.reloadFailed s).spill = s.spill := rfl

@[simp] theorem State.reloadDone_spill (s : State) : (State.reloadDone s).spill = s.spill := by simp [State.reloadDone]

@[simp] theorem State.reloadTry_spill (n : Nat) (s : State) : (State.reloadTry n s).spill = s.spill := by
  induction n generalizing s with
  | zero => rfl
  | succ n ih =>
    unfold State.reloadTry
    repeat' (first
      | with_reducible rfl
      | split
      | simp [ih])

@[simp] theorem State.beginReload_spill (s :
    State) (a b : List Byte) : (State.beginReload s a b).spill = s.spill := by simp [State.beginReload]

@[simp] theorem State.rotDecide_spill (s :
    State) (ok : Bool) : (State.rotDecide s ok).spill = s.spill := by simp [State.rotDecide]

@[simp] theorem State.fetchEnd_spill (s : State) (result : BitVec 4) : (State.fetchEnd s result).spill = s.spill := rfl

@[simp] theorem State.fetchRead_spill (s :
    State) (f : Fetch) (bytes : Nat) : (State.fetchRead s f bytes).spill = s.spill := by simp [State.fetchRead]

@[simp] theorem State.startFetch_spill (s : State) : (State.startFetch s).spill = s.spill := by simp [State.startFetch]

@[simp] theorem State.setFetch_spill (s :
    State) (f : Fetch) (st : FetchStep) : (State.setFetch s f st).spill = s.spill := rfl

@[simp] theorem State.nextPage_spill (s :
    State) (f : Fetch) (n : Nat) : (State.nextPage s f n).spill = s.spill := by simp [State.nextPage]

@[simp] theorem State.erased_spill (s : State) (f : Fetch) : (State.erased s f).spill = s.spill := by simp [State.erased]

@[simp] theorem State.fetchHeader_spill (s :
    State) (f : Fetch) (bytes : List Byte) : (State.fetchHeader s f bytes).spill = s.spill := by simp [State.fetchHeader]

@[simp] theorem State.fetchStep_spill (s : State) (e : FetchEvent) : (State.fetchStep s e).spill = s.spill := by
  unfold State.fetchStep
  split
  · rfl
  · split <;> simp

@[simp] theorem State.norTimeout_spill (s : State) : (State.norTimeout s).spill = s.spill := by
  unfold State.norTimeout
  split
  · rfl
  · split <;> simp

@[simp] theorem State.ldCmd_spill (s : State) (w : W32) : (State.ldCmd s w).spill = s.spill := by simp [State.ldCmd]

/-! ### Machine/Fabric.lean -/

@[simp] theorem State.probeFlit_spill (s :
    State) (n : Nat) (fl : Flit) : (State.probeFlit s n fl).spill = s.spill := by simp [State.probeFlit]

@[simp] theorem State.probesFollow_spill (s : State) : (State.probesFollow s).spill = s.spill := rfl

end Sys2Proof.Machine
end

