-- ==== Sys2Proof/Laws/SpillSlice.lean ====
section
/-! SUPPORT. Each operation leaves the spill directory alone, or keeps the one form of its list: the home slices, the ports and the Rook ring. -/

namespace Sys2Proof.Machine

open Sys2Proof

set_option linter.unreachableTactic false
set_option linter.unusedTactic false
set_option linter.unusedSimpArgs false

/-! ### Machine/Messages.lean -/

@[simp] theorem State.pmRequest_spill (s :
    State) (p : Nat) (pg : Page) : (State.pmRequest s p pg).spill = s.spill := by unfold State.pmRequest; split <;> simp

@[simp] theorem State.kpLoads_spill (s : State) : (State.kpLoads s).spill = s.spill := by
  unfold State.kpLoads
  exact (State.spill_foldl _ (fun s a => by simp) _ _).trans rfl

@[simp] theorem State.kpLoaded_spill (s : State) (p : Nat) (pg : Page) : (State.kpLoaded s p pg).spill = s.spill := by
  unfold State.kpLoaded
  split
  · rfl
  · rw [State.kpLoads_spill]

@[simp] theorem State.markFenced_spill (s :
    State) (h cause : Nat) : (State.markFenced s h cause).spill = s.spill := by unfold State.markFenced; split <;> simp

@[simp] theorem State.queueReturn_spill (s : State) (m : S2M) : (State.queueReturn s m).spill = s.spill := by
  unfold State.queueReturn
  repeat' (first
    | split
    | simp)

@[simp] theorem State.meshS2M_spill (s :
    State) (port : Nat) (m : S2M) : (State.meshS2M s port m).spill = s.spill := by unfold State.meshS2M; split <;> simp

@[simp] theorem State.putS2M_spill (s :
    State) (port : Nat) (m : S2M) : (State.putS2M s port m).spill = s.spill := by simp [State.putS2M]

@[simp] theorem State.emitS2M_spill (s : State) (port : Nat) (m : S2M) : (State.emitS2M s port m).spill = s.spill := by
  unfold State.emitS2M
  repeat' (first
    | split
    | simp)

@[simp] theorem State.number_spill (s :
    State) (m : S2M) : (State.number s m).2.spill = s.spill := by unfold State.number; split <;> simp

@[simp] theorem State.hostError_spill (s :
    State) (port hid : Nat) (k : Inp) (tag : Nat) (line : LineAddr) : (State.hostError s port hid k tag line).spill = s.spill := by
  unfold State.hostError; split <;> simp

@[simp] theorem State.putARsp_spill (s :
    State) (port : Nat) (r : ARsp) (fence : Bool) : (State.putARsp s port r fence).spill = s.spill := rfl

@[simp] theorem State.emitARsp_spill (s : State) (port : Nat) (r : ARsp) : (State.emitARsp s port r).spill = s.spill := rfl

@[simp] theorem State.emit_spill (s :
    State) (m : OutMsg) : (State.emit s m).spill = s.spill := by unfold State.emit; split <;> simp

@[simp] theorem releaseHeld_spill (l : List Held) (s : State) : (releaseHeld s l).1.spill = s.spill := by
  induction l generalizing s with
  | nil => rfl
  | cons h r ih =>
    unfold releaseHeld
    split <;> simp [ih]

@[simp] theorem State.ringPut_spill (s :
    State) (w : RingWait) : (State.ringPut s w).spill = s.spill := by unfold State.ringPut; split <;> simp

@[simp] theorem State.ringFill_spill (n : Nat) (s : State) : (State.ringFill n s).spill = s.spill := by
  induction n generalizing s with
  | zero => rfl
  | succ n ih =>
    unfold State.ringFill
    repeat' (first
      | with_reducible rfl
      | split
      | simp [ih])

@[simp] theorem State.ringInject_spill (s :
    State) (w : RingWait) : (State.ringInject s w).spill = s.spill := by simp [State.ringInject]

@[simp] theorem State.slotFreed_spill (s :
    State) (gone : Option (Bool × Nat)) : (State.slotFreed s gone).spill = s.spill := by
  unfold State.slotFreed; split <;> simp

@[simp] theorem State.ringEject_spill (s :
    State) (hit : RingFlit → Bool) : (State.ringEject s hit).spill = s.spill := by simp [State.ringEject]

@[simp] theorem State.sendBISnp_spill (s :
    State) (p hid : Nat) (line : LineAddr) (kind : HSnp) (lines : Nat) (c : Option Cls) (k : Bool) : (State.sendBISnp s p hid line kind lines c k).spill = s.spill := by
  unfold State.sendBISnp
  repeat' (first
    | split
    | simp)

@[simp] theorem State.sendRSnp_spill (s : State) (p trk : Nat) (kind : ASnp) (line : LineAddr) (vic : Bool) (src : Src) (fwdOk : Bool) (fwd : Nat)
    (retry : Bool) (c : Option Cls) : (State.sendRSnp s p trk kind line vic src fwdOk fwd retry c).spill = s.spill := by simp [State.sendRSnp]

@[simp] theorem State.readLine_spill (s :
    State) (p : Nat) (t : Tracker) (e : PEnt) (l : LineAddr) (keep : Bool) : (State.readLine s p t e l keep).spill = s.spill := by
  simp [State.readLine]

@[simp] theorem State.writeNib_spill (s :
    State) (p : Nat) (t : Tracker) (vic : Bool) (e : PEnt) (l : LineAddr) (n : Nib) : (State.writeNib s p t vic e l n).spill = s.spill := by
  simp [State.writeNib]

@[simp] theorem State.readBucket_spill (s :
    State) (p : Nat) (t : Tracker) (l : LineAddr) (use : BktUse) : (State.readBucket s p t l use).spill = s.spill := rfl

@[simp] theorem State.writeBucket_wf (s :
    State) (p : Nat) (t : Tracker) (vic : Bool) (l : LineAddr) (b : Line) (hw : spillWf s.spill = true) : spillWf (State.writeBucket s p t vic l b).spill = true := by
  simp [State.writeBucket, *]

@[simp] theorem State.bktIssue_spill (s :
    State) (p : Nat) (t : Tracker) (use : BktUse) : (State.bktIssue s p t use).1.spill = s.spill := by
  unfold State.bktIssue
  repeat' (first
    | split
    | simp)

@[simp] theorem State.bktKick_spill (s : State) (p : Nat) : (State.bktKick s p).spill = s.spill := by
  unfold State.bktKick
  repeat' (first
    | with_reducible rfl
    | with_reducible refine (State.spill_foldl _ (fun s a => ?_) _ _).trans ?_
    | split
    | simp
    | with_reducible refine State.spill_fst (by assumption) ?_
    | with_reducible refine State.spill_snd (by assumption) ?_)

@[simp] theorem State.ringDoorbell_spill (s :
    State) (l : LineAddr) : (State.ringDoorbell s l).spill = s.spill := by unfold State.ringDoorbell; split <;> simp

/-! ### Machine/DataPath.lean -/

/-- A fold of an operation that leaves the spill directory alone. -/
@[simp] theorem Run.spill_foldl {α : Type} (f :
    Run → α → Run) (hf : ∀ r a, (f r a).s.spill = r.s.spill) (l : List α) (r : Run) :
    (l.foldl f r).s.spill = r.s.spill := by
  induction l generalizing r with
  | nil => rfl
  | cons a l ih => rw [List.foldl_cons, ih, hf]

@[simp] theorem Run.modSl_spill (r : Run) (f : Slice → Slice) : (Run.modSl r f).s.spill = r.s.spill := rfl

@[simp] theorem Run.ack_spill (r : Run) (k : AckKind) : (Run.ack r k).s.spill = r.s.spill := rfl

@[simp] theorem State.drawLine_spill (s : State) : (State.drawLine s).2.spill = s.spill := rfl

@[simp] theorem takeData_spill (s :
    State) (m : InMsg) (old : Option (Line × Bool)) : (takeData s m old).2.2.spill = s.spill := by
  unfold takeData
  split
  · rfl
  · split <;> simp

@[simp] theorem Run.take_spill (r : Run) : (Run.take r).s.spill = r.s.spill := by
  unfold Run.take
  repeat' (first
    | split
    | simp)

@[simp] theorem Run.atom_spill (r : Run) : (Run.atom r).s.spill = r.s.spill := by
  unfold Run.atom
  repeat' (first
    | split
    | simp)

@[simp] theorem State.poisonLine_spill (s :
    State) (p : Nat) (l : LineAddr) (k : Bool) : (State.poisonLine s p l k).s.spill = s.spill := by
  unfold State.poisonLine
  repeat' (first
    | split
    | simp)

@[simp] theorem Run.pois_spill (r : Run) : (Run.pois r).s.spill = r.s.spill := by
  unfold Run.pois
  repeat' (first
    | split
    | simp)

@[simp] theorem Run.holderMig_spill (r :
    Run) (last inv : Bool) : (Run.holderMig r last inv).s.spill = r.s.spill := by unfold Run.holderMig; split <;> simp

@[simp] theorem Run.holder_spill (r : Run) : (Run.holder r).s.spill = r.s.spill := by
  unfold Run.holder
  repeat' (first
    | split
    | simp)

@[simp] theorem Run.recordNib_spill (r :
    Run) (dir : BitVec 2) (only : Bool) : (Run.recordNib r dir only).s.spill = r.s.spill := by
  unfold Run.recordNib
  repeat' (first
    | split
    | simp)

@[simp] theorem Run.nibw_spill (r : Run) : (Run.nibw r).s.spill = r.s.spill := by
  unfold Run.nibw
  repeat' (first
    | split
    | simp)

@[simp] theorem Run.dirtyMark_spill (r : Run) : (Run.dirtyMark r).s.spill = r.s.spill := by
  unfold Run.dirtyMark
  repeat' (first
    | split
    | simp)

@[simp] theorem Run.eff_spill (r : Run) (e : CEff) : (Run.eff r e).s.spill = e.s.spill := rfl

@[simp] theorem Run.writeLine_spill (r : Run) (d : Line) (po : Bool) : (Run.writeLine r d po).s.spill = r.s.spill := by
  unfold Run.writeLine
  repeat' (first
    | split
    | simp)

@[simp] theorem Run.cacheMark_spill (r :
    Run) : (Run.cacheMark r).s.spill = r.s.spill := by unfold Run.cacheMark; split <;> simp

@[simp] theorem Run.cache_spill (r0 : Run) : (Run.cache r0).s.spill = r0.s.spill := by
  unfold Run.cache
  repeat' (first
    | split
    | simp)

@[simp] theorem Run.startVictim_spill (r :
    Run) (v : Entry) (bi : Bool) : (Run.startVictim r v bi).s.spill = r.s.spill := by unfold Run.startVictim; split <;> simp

@[simp] theorem Run.sfw_spill (r : Run) : (Run.sfw r).s.spill = r.s.spill := by
  unfold Run.sfw
  repeat' (first
    | split
    | simp)

@[simp] theorem Run.resv_spill (r : Run) : (Run.resv r).s.spill = r.s.spill := by
  unfold Run.resv
  repeat' (first
    | split
    | simp)

@[simp] theorem Run.prefetch_spill (r : Run) : (Run.prefetch r).s.spill = r.s.spill := by
  unfold Run.prefetch
  repeat' (first
    | split
    | simp)

@[simp] theorem Run.read_spill (r : Run) (keep : Bool) : (Run.read r keep).s.spill = r.s.spill := by
  unfold Run.read
  repeat' (first
    | split
    | simp)

@[simp] theorem Run.bucketRead_spill (r : Run) : (Run.bucketRead r).s.spill = r.s.spill := by simp [Run.bucketRead]

@[simp] theorem Run.putBucket_wf (r :
    Run) (l : LineAddr) (b : Line) (hw : spillWf r.s.spill = true) : spillWf (Run.putBucket r l b).s.spill = true := by
  simp [Run.putBucket, *]

@[simp] theorem Run.bucketWrite_wf (r :
    Run) (hw : spillWf r.s.spill = true) : spillWf (Run.bucketWrite r).s.spill = true := by
  unfold Run.bucketWrite
  have put (l : LineAddr) (b : Line) : spillWf (r.putBucket l b).s.spill = true := Run.putBucket_wf r l b hw
  split
  · split
    · simp only [State.count_spill, put]
    · exact hw
  · split
    · simp only [State.count_spill, put]
    · exact put ..

@[simp] theorem Run.spillRead_spill (r :
    Run) : (Run.spillRead r).s.spill = r.s.spill := by unfold Run.spillRead; split <;> simp

@[simp] theorem Run.mem_wf (r : Run) (hw : spillWf r.s.spill = true) : spillWf (Run.mem r).s.spill = true := by
  unfold Run.mem
  repeat' (first
    | assumption
    | with_reducible refine State.wf_branch ?_ ?_
    | split
    | simp (maxDischargeDepth := 20) [*]
    | with_reducible refine State.wf_fst (by assumption) ?_
    | with_reducible refine State.wf_snd (by assumption) ?_)

@[simp] theorem Run.mirror_spill (r : Run) (send : Bool) : (Run.mirror r send).1.s.spill = r.s.spill := by
  unfold Run.mirror
  repeat' (first
    | split
    | simp)

@[simp] theorem Run.stamp_spill (r : Run) : (Run.stamp r).s.spill = r.s.spill := by
  unfold Run.stamp
  repeat' (first
    | split
    | simp)

@[simp] theorem Run.takeHeld_spill (r :
    Run) (l : LineAddr) (hid : Option Nat) : (Run.takeHeld r l hid).s.spill = r.s.spill := by
  unfold Run.takeHeld
  repeat' (first
    | split
    | simp)

@[simp] theorem Run.snoopHost_spill (r :
    Run) (kind : HSnp) (l : LineAddr) (vic owner : Bool) (h : Nat) : (Run.snoopHost r kind l vic owner h).s.spill = r.s.spill := by
  unfold Run.snoopHost
  split
  · rfl
  · split <;> simp

@[simp] theorem Run.snoopPage_spill (r : Run) (pg : Page) : (Run.snoopPage r pg).s.spill = r.s.spill := by
  unfold Run.snoopPage
  refine Run.spill_foldl _ (fun r h => ?_) _ _
  dsimp only
  split
  · rfl
  · refine Run.spill_foldl _ (fun r f => ?_) _ _
    split <;> simp

@[simp] theorem Run.bisnp_spill (r : Run) : (Run.bisnp r).s.spill = r.s.spill := by
  unfold Run.bisnp
  repeat' (first
    | split
    | simp)

@[simp] theorem Run.snoopAgents_spill (r :
    Run) (kind : ASnp) (l : LineAddr) (vic : Bool) (fwd : Nat) : (Run.snoopAgents r kind l vic fwd).s.spill = r.s.spill := by
  simp [Run.snoopAgents]

@[simp] theorem Run.rsnp_spill (r : Run) : (Run.rsnp r).s.spill = r.s.spill := by
  unfold Run.rsnp
  repeat' (first
    | split
    | simp)

@[simp] theorem Run.snoopVictim_spill (r :
    Run) : (Run.snoopVictim r).s.spill = r.s.spill := by unfold Run.snoopVictim; split <;> simp

@[simp] theorem Run.post_spill (r : Run) (m : OutMsg) (uid : Option Nat) : (Run.post r m uid).s.spill = r.s.spill := by
  unfold Run.post
  repeat' (first
    | split
    | simp)

@[simp] theorem Run.outLine_spill (r : Run) : (Run.outLine r).2.spill = r.s.spill := by unfold Run.outLine; split <;> simp

@[simp] theorem Run.hostRsp_spill (r : Run) (uid : Option Nat) : (Run.hostRsp r uid).s.spill = r.s.spill := by
  unfold Run.hostRsp
  repeat' (first
    | split
    | simp)

@[simp] theorem Run.agentRsp_spill (r : Run) (uid : Option Nat) : (Run.agentRsp r uid).s.spill = r.s.spill := by
  unfold Run.agentRsp
  repeat' (first
    | split
    | simp)

@[simp] theorem Run.resultSlot_spill (r : Run) : (Run.resultSlot r).s.spill = r.s.spill := by
  unfold Run.resultSlot
  repeat' (first
    | split
    | simp)

@[simp] theorem State.flushPage_spill (s : State) (p : Nat) (pg : Page) : (State.flushPage s p pg).spill = s.spill := by
  unfold State.flushPage
  repeat' (first
    | with_reducible rfl
    | with_reducible refine (State.spill_foldl _ (fun s a => ?_) _ _).trans ?_
    | split
    | simp
    | with_reducible refine State.spill_fst (by assumption) ?_
    | with_reducible refine State.spill_snd (by assumption) ?_)

@[simp] theorem State.quiesceKick_spill (s : State) (p : Nat) : (State.quiesceKick s p).spill = s.spill := by
  unfold State.quiesceKick
  repeat' (first
    | with_reducible rfl
    | with_reducible refine (State.spill_foldl _ (fun s a => ?_) _ _).trans ?_
    | split
    | simp
    | with_reducible refine State.spill_fst (by assumption) ?_
    | with_reducible refine State.spill_snd (by assumption) ?_)

@[simp] theorem Run.notes_spill (r : Run) : (Run.notes r).s.spill = r.s.spill := by
  unfold Run.notes
  extract_lets pg r1 r2 r3 st det s4
  have h1 : r1.s.spill = r.s.spill := by simp only [r1]; split <;> [split <;> simp; rfl]
  have h2 : r2.s.spill = r.s.spill := by simp only [r2]; split <;> simp [h1]
  have h3 : r3.s.spill = r.s.spill := by simp only [r3]; split <;> simp [h2]
  have h4 : s4.spill = r.s.spill := by simp only [s4]; split <;> simp [h3]
  simp [h4]

/-! ### Machine/Sequencer.lean -/

@[simp] theorem State.fetchErrs_spill (s :
    State) (p : Nat) (_sl : Slice) (t : Tracker) (m : InMsg) (look : Bool) (c : Cond) : (State.fetchErrs s p _sl t m look c).1.spill = s.spill := by
  unfold State.fetchErrs
  repeat' (first
    | split
    | simp)

@[simp] theorem State.wayKick_spill (s :
    State) (p : Nat) : (State.wayKick s p).spill = s.spill := by unfold State.wayKick; split <;> simp

@[simp] theorem State.retire_spill (s :
    State) (p n : Nat) : (State.retire s p n).spill = s.spill := by unfold State.retire; split <;> simp

@[simp] theorem State.tryRetire_spill (s :
    State) (p n : Nat) : (State.tryRetire s p n).spill = s.spill := by unfold State.tryRetire; split <;> simp

@[simp] theorem Run.victimDone_wf (r : Run) (hw : spillWf r.s.spill = true) : spillWf (Run.victimDone r).s.spill = true := by
  unfold Run.victimDone
  repeat' (first
    | assumption
    | with_reducible refine State.wf_branch ?_ ?_
    | split
    | simp (maxDischargeDepth := 20) [*]
    | with_reducible refine State.wf_fst (by assumption) ?_
    | with_reducible refine State.wf_snd (by assumption) ?_)

@[simp] theorem Run.victimStep_wf (r : Run) (hw : spillWf r.s.spill = true) : spillWf (Run.victimStep r).s.spill = true := by
  unfold Run.victimStep
  repeat' (first
    | assumption
    | with_reducible refine State.wf_branch ?_ ?_
    | split
    | simp (maxDischargeDepth := 20) [*]
    | with_reducible refine State.wf_fst (by assumption) ?_
    | with_reducible refine State.wf_snd (by assumption) ?_)

@[simp] theorem Run.vstart_spill (r : Run) : (Run.vstart r).s.spill = r.s.spill := by unfold Run.vstart; split <;> simp

@[simp] theorem Run.next_spill (r : Run) : (Run.next r).s.spill = r.s.spill := by
  unfold Run.next
  repeat' (first
    | with_reducible rfl
    | split
    | simp)

@[simp] theorem Run.idleSnoop_spill (r : Run) : (Run.idleSnoop r).s.spill = r.s.spill := by
  unfold Run.idleSnoop
  repeat' (first
    | split
    | simp)

@[simp] theorem Run.early_spill (r : Run) : (Run.early r).s.spill = r.s.spill := by simp [Run.early]

@[simp] theorem Run.finish_wf (r0 : Run) (hw : spillWf r0.s.spill = true) : spillWf (Run.finish r0).spill = true := by
  unfold Run.finish
  extract_lets p r1
  have h1 : spillWf r1.s.spill = true := Run.mem_wf _ (by simp [hw])
  clear_value r1
  split
  rename_i r2 uid e2
  have h2 : spillWf r2.s.spill = true := by have := Run.mirror_spill r1 r0.w.mirror; rw [e2] at this; rw [this]; exact h1
  extract_lets r3 r3v r4 r5 r6a r6 r7
  have h3 : r3.s.spill = r2.s.spill := by simp [r3]
  have h3v : r3v.s.spill = r2.s.spill := by simp only [r3v]; split <;> simp [h3]
  have h5 : r5.s.spill = r2.s.spill := by simp [r5, r4, h3v]
  have h6 : r6.s.spill = r2.s.spill := by simp [r6, r6a, h5]
  have h7 : spillWf r7.s.spill = true := by
    have h : spillWf r6.s.spill = true := by rw [h6]; exact h2
    simp only [r7]
    split
    · exact h
    · simp [h]
  clear_value r7
  split
  rename_i r8 x e8
  have h8 : spillWf r8.s.spill = true := by have := Run.mirror_spill r7 false; rw [e8] at this; rw [this]; exact h7
  extract_lets t8
  simp [h8]

@[simp] theorem State.applyWord_wf (s : State) (p : Nat) (t : Tracker) (m : InMsg) (w : Word) (look : Bool)
    (hw : spillWf s.spill = true) : spillWf (State.applyWord s p t m w look).spill = true := by
  unfold State.applyWord
  extract_lets r
  have h : spillWf r.s.spill = true := by rw [show r.s.spill = s.spill from (Run.early_spill _).trans rfl]; exact hw
  clear_value r
  split
  · rw [State.modTrk_spill]; exact h
  · exact Run.finish_wf r h

@[simp] theorem Stall.resume_spill (x : Stall) (s :
    State) (p : Nat) (t : Tracker) : (Stall.resume x s p t).s.spill = s.spill := rfl

@[simp] theorem State.sweepDone_wf (s :
    State) (p n : Nat) (h : spillWf s.spill = true) : spillWf (State.sweepDone s p n).spill = true := by
  unfold State.sweepDone
  split
  · extract_lets idle held kp w1
    refine State.wf_branch h ?_
    refine State.wf_branch h ?_
    refine State.wf_branch (State.applyWord_wf _ _ _ _ _ _ h) (State.applyWord_wf _ _ _ _ _ _ h)
  · exact h

@[simp] theorem State.sweepInput_wf (s :
    State) (p : Nat) (sl : Slice) (t : Tracker) (m : InMsg) (hw : spillWf s.spill = true) : spillWf (State.sweepInput s p sl t m).spill = true := by
  simp [State.sweepInput, *]

@[simp] theorem State.poisonHere_spill (s :
    State) (p : Nat) (l : LineAddr) (row : Nat) : (State.poisonHere s p l row).spill = s.spill := by simp [State.poisonHere]

@[simp] theorem State.poisonOwned_spill (s :
    State) (p : Nat) (l : LineAddr) : (State.poisonOwned s p l).spill = s.spill := by simp [State.poisonOwned]

@[simp] theorem State.purge_spill (s :
    State) (p : Nat) (l : LineAddr) : (State.purge s p l).spill = s.spill := by unfold State.purge; split <;> simp

@[simp] theorem State.purgeHit_spill (s : State) (p : Nat) (e : Entry) : (State.purgeHit s p e).1.spill = s.spill := by
  unfold State.purgeHit
  repeat' (first
    | split
    | simp)

@[simp] theorem State.evaluate_wf (s :
    State) (p : Nat) (t : Tracker) (m : InMsg) (look : Bool) (hw : spillWf s.spill = true) : spillWf (State.evaluate s p t m look).spill = true := by
  unfold State.evaluate
  repeat' (first
    | assumption
    | with_reducible refine State.wf_branch ?_ ?_
    | split
    | simp (maxDischargeDepth := 20) [*]
    | with_reducible refine State.wf_fst (by assumption) ?_
    | with_reducible refine State.wf_snd (by assumption) ?_)

@[simp] theorem State.deferWrite_spill (s :
    State) (p : Nat) (sl : Slice) (t : Tracker) (m : InMsg) : (State.deferWrite s p sl t m).spill = s.spill := by
  simp [State.deferWrite]

@[simp] theorem State.process_wf (s0 :
    State) (p n : Nat) (m : InMsg) (hw : spillWf s0.spill = true) : spillWf (State.process s0 p n m).spill = true := by
  unfold State.process
  repeat' (first
    | assumption
    | dsimp only
    | with_reducible refine State.wf_branch ?_ ?_
    | split
    | simp (maxDischargeDepth := 20) [*]
    | with_reducible refine State.wf_fst (by assumption) ?_
    | with_reducible refine State.wf_snd (by assumption) ?_)

@[simp] theorem State.pump_wf (n : Nat) (s :
    State) (p t : Nat) (h : spillWf s.spill = true) : spillWf (State.pump n s p t).spill = true := by
  induction n generalizing s with
  | zero => exact h
  | succ n ih =>
    unfold State.pump
    repeat' (first
      | assumption
      | split
      | simp (maxDischargeDepth := 20) [*])

@[simp] theorem State.feed_wf (s :
    State) (p n : Nat) (m : InMsg) (hw : spillWf s.spill = true) : spillWf (State.feed s p n m).spill = true := by
  unfold State.feed
  repeat' (first
    | assumption
    | with_reducible refine State.wf_branch ?_ ?_
    | split
    | simp (maxDischargeDepth := 20) [*]
    | with_reducible refine State.wf_fst (by assumption) ?_
    | with_reducible refine State.wf_snd (by assumption) ?_)

@[simp] theorem State.unstall_wf (s :
    State) (p : Nat) (h : spillWf s.spill = true) : spillWf (State.unstall s p).spill = true := by
  unfold State.unstall
  split
  · exact h
  · refine State.wf_foldl _ (fun s t hs => ?_) _ _ h
    split
    · split
      · extract_lets c
        refine State.wf_branch hs ?_
        exact State.pump_wf _ _ _ _ (State.sweepDone_wf _ _ _ (Run.finish_wf _ hs))
      · exact hs
    · exact hs

@[simp] theorem State.lookupErrs_spill (s :
    State) (p : Nat) (l : LineAddr) : (State.lookupErrs s p l).1.spill = s.spill := by
  unfold State.lookupErrs
  repeat' (first
    | split
    | simp)

@[simp] theorem State.bufErrs_spill (s : State) (p : Nat) (l : LineAddr) : (State.bufErrs s p l).spill = s.spill := by
  unfold State.bufErrs
  split
  · rfl
  · split <;> simp

@[simp] theorem State.chooseAtom_spill (s :
    State) (p : Nat) (t : Tracker) : (State.chooseAtom s p t).1.spill = s.spill := by unfold State.chooseAtom; split <;> simp

@[simp] theorem State.pmErrs_spill (s :
    State) (p : Nat) (pg : Page) : (State.pmErrs s p pg).spill = s.spill := by unfold State.pmErrs; split <;> simp

@[simp] theorem State.lookup_wf (sa :
    State) (p n : Nat) (hw : spillWf sa.spill = true) : spillWf (State.lookup sa p n).spill = true := by
  unfold State.lookup
  repeat' (first
    | assumption
    | with_reducible refine State.wf_branch ?_ ?_
    | split
    | simp (maxDischargeDepth := 20) [*]
    | with_reducible refine State.wf_fst (by assumption) ?_
    | with_reducible refine State.wf_snd (by assumption) ?_)

@[simp] theorem State.lookupPump_wf (s :
    State) (p n : Nat) (hw : spillWf s.spill = true) : spillWf (State.lookupPump s p n).spill = true := by
  unfold State.lookupPump
  repeat' (first
    | assumption
    | with_reducible refine State.wf_branch ?_ ?_
    | split
    | simp (maxDischargeDepth := 20) [*]
    | with_reducible refine State.wf_fst (by assumption) ?_
    | with_reducible refine State.wf_snd (by assumption) ?_)

@[simp] theorem State.noteOcc_spill (s : State) (p : Nat) : (State.noteOcc s p).spill = s.spill := rfl

@[simp] theorem State.raiseFor_spill (s :
    State) (p : Nat) (t : Tracker) (q : Req) : (State.raiseFor s p t q).spill = s.spill := by simp [State.raiseFor]

@[simp] theorem State.enterHold_spill (s : State) (p : Nat) (q : Req) : (State.enterHold s p q).spill = s.spill := by
  unfold State.enterHold
  repeat' (first
    | split
    | simp)

@[simp] theorem State.openTracker_wf (s :
    State) (p : Nat) (q : Req) (pool : Pool) (waited : Bool) (hw : spillWf s.spill = true) : spillWf (State.openTracker s p q pool waited).spill = true := by
  unfold State.openTracker
  repeat' (first
    | assumption
    | with_reducible refine State.wf_branch ?_ ?_
    | split
    | simp (maxDischargeDepth := 20) [*]
    | with_reducible refine State.wf_fst (by assumption) ?_
    | with_reducible refine State.wf_snd (by assumption) ?_)

@[simp] theorem State.present_wf (s :
    State) (p : Nat) (q : Req) (pool : Pool) (hw : spillWf s.spill = true) : spillWf (State.present s p q pool).spill = true := by
  unfold State.present
  repeat' (first
    | assumption
    | with_reducible refine State.wf_branch ?_ ?_
    | split
    | simp (maxDischargeDepth := 20) [*]
    | with_reducible refine State.wf_fst (by assumption) ?_
    | with_reducible refine State.wf_snd (by assumption) ?_)

/-! ### Machine/Hids.lean -/

@[simp] theorem State.forgetGrant_wf (s :
    State) (p : Nat) (l : LineAddr) (h : Nat) (hw : spillWf s.spill = true) : spillWf (State.forgetGrant s p l h).spill = true := by
  unfold State.forgetGrant; split <;> simp [*]

@[simp] theorem State.poisonHome_spill (s :
    State) (l : LineAddr) : (State.poisonHome s l).spill = s.spill := by unfold State.poisonHome; split <;> simp

@[simp] theorem State.sweepHid_wf (s :
    State) (h : Nat) (hw : spillWf s.spill = true) : spillWf (State.sweepHid s h).spill = true := by
  unfold State.sweepHid
  repeat' (first
    | assumption
    | with_reducible refine State.wf_branch ?_ ?_
    | with_reducible refine State.wf_foldl _ (fun s a hs => ?_) _ _ ?_
    | split
    | simp (maxDischargeDepth := 20) [*]
    | with_reducible refine State.wf_fst (by assumption) ?_
    | with_reducible refine State.wf_snd (by assumption) ?_)

@[simp] theorem State.dropQueue_wf (s :
    State) (h p : Nat) (hw : spillWf s.spill = true) : spillWf (State.dropQueue s h p).spill = true := by
  unfold State.dropQueue
  repeat' (first
    | assumption
    | with_reducible refine State.wf_branch ?_ ?_
    | with_reducible refine State.wf_foldl _ (fun s a hs => ?_) _ _ ?_
    | split
    | simp (maxDischargeDepth := 20) [*]
    | with_reducible refine State.wf_fst (by assumption) ?_
    | with_reducible refine State.wf_snd (by assumption) ?_)

@[simp] theorem State.answerFor_wf (s :
    State) (h p : Nat) (hw : spillWf s.spill = true) : spillWf (State.answerFor s h p).spill = true := by
  unfold State.answerFor
  repeat' (first
    | assumption
    | with_reducible refine State.wf_branch ?_ ?_
    | with_reducible refine State.wf_foldl _ (fun s a hs => ?_) _ _ ?_
    | split
    | simp (maxDischargeDepth := 20) [*]
    | with_reducible refine State.wf_fst (by assumption) ?_
    | with_reducible refine State.wf_snd (by assumption) ?_)

@[simp] theorem State.expireHid_wf (s :
    State) (h : Nat) (hw : spillWf s.spill = true) : spillWf (State.expireHid s h).spill = true := by
  unfold State.expireHid
  repeat' (first
    | assumption
    | with_reducible refine State.wf_branch ?_ ?_
    | with_reducible refine State.wf_foldl _ (fun s a hs => ?_) _ _ ?_
    | split
    | simp (maxDischargeDepth := 20) [*]
    | with_reducible refine State.wf_fst (by assumption) ?_
    | with_reducible refine State.wf_snd (by assumption) ?_)

@[simp] theorem State.fenceSettle_wf (s :
    State) (hw : spillWf s.spill = true) : spillWf (State.fenceSettle s).spill = true := by
  unfold State.fenceSettle
  repeat' (first
    | assumption
    | with_reducible refine State.wf_branch ?_ ?_
    | with_reducible refine State.wf_foldl _ (fun s a hs => ?_) _ _ ?_
    | split
    | simp (maxDischargeDepth := 20) [*]
    | with_reducible refine State.wf_fst (by assumption) ?_
    | with_reducible refine State.wf_snd (by assumption) ?_)

@[simp] theorem State.resendSlice_spill (n : Nat) (s :
    State) (p h : Nat) (data : Option (Line × Bool)) : (State.resendSlice n s p h data).spill = s.spill := by
  induction n generalizing s data with
  | zero => rfl
  | succ n ih =>
    unfold State.resendSlice
    repeat' (first
      | with_reducible rfl
      | split
      | simp [ih])

@[simp] theorem State.resend_spill (s : State) (h : Nat) : (State.resend s h).spill = s.spill := by simp [State.resend]

@[simp] theorem State.resendData_spill (s :
    State) (p h : Nat) (d : Line) (po : Bool) : (State.resendData s p h d po).spill = s.spill := by
  unfold State.resendData
  repeat' (first
    | split
    | simp)

@[simp] theorem State.bindHid_spill (s :
    State) (h : Nat) : (State.bindHid s h).spill = s.spill := by unfold State.bindHid; split <;> simp

@[simp] theorem State.bindHids_spill (s : State) : (State.bindHids s).spill = s.spill := by simp [State.bindHids]

@[simp] theorem State.unbindHid_spill (s :
    State) (h : Nat) : (State.unbindHid s h).spill = s.spill := by unfold State.unbindHid; split <;> simp

/-! ### Machine/Inputs.lean -/

@[simp] theorem State.sideSweep_wf (n : Nat) (s :
    State) (p : Nat) (h : spillWf s.spill = true) : spillWf (State.sideSweep n s p).spill = true := by
  induction n generalizing s with
  | zero => exact h
  | succ n ih =>
    unfold State.sideSweep
    repeat' (first
      | assumption
      | split
      | simp (maxDischargeDepth := 20) [*])

@[simp] theorem State.settleIn_wf (s :
    State) (p : Nat) (hw : spillWf s.spill = true) : spillWf (State.settleIn s p).spill = true := by
  unfold State.settleIn; split <;> simp [*]

@[simp] theorem State.accept_wf (s :
    State) (p n : Nat) (q0 : Req) (hw : spillWf s.spill = true) : spillWf (State.accept s p n q0).spill = true := by
  unfold State.accept; split <;> simp [*]

@[simp] theorem State.earlyAnswer_spill (s :
    State) (p : Nat) (t : Tracker) (m : InMsg) : (State.earlyAnswer s p t m).spill = s.spill := by
  unfold State.earlyAnswer; split <;> simp

@[simp] theorem State.holdRelease_wf (s :
    State) (p : Nat) (l : LineAddr) (hw : spillWf s.spill = true) : spillWf (State.holdRelease s p l).spill = true := by
  unfold State.holdRelease
  repeat' (first
    | assumption
    | with_reducible refine State.wf_branch ?_ ?_
    | split
    | simp (maxDischargeDepth := 20) [*]
    | with_reducible refine State.wf_fst (by assumption) ?_
    | with_reducible refine State.wf_snd (by assumption) ?_)

@[simp] theorem State.meshReq_spill (s :
    State) (p : Nat) (q : Req) (k : Bool) : (State.meshReq s p q k).spill = s.spill := by simp [State.meshReq]

@[simp] theorem State.arrive_wf (s :
    State) (p : Nat) (q0 : Req) (hw : spillWf s.spill = true) : spillWf (State.arrive s p q0).spill = true := by
  unfold State.arrive
  repeat' (first
    | assumption
    | with_reducible refine State.wf_branch ?_ ?_
    | split
    | simp (maxDischargeDepth := 20) [*]
    | with_reducible refine State.wf_fst (by assumption) ?_
    | with_reducible refine State.wf_snd (by assumption) ?_)

@[simp] theorem State.releaseFrom_wf (l : List Req) (s : State) (stay : List Req) (h : spillWf s.spill = true) :
    spillWf (State.releaseFrom l s stay).1.spill = true := by
  induction l generalizing s stay with
  | nil => exact h
  | cons q l ih =>
    unfold State.releaseFrom
    split
    · exact ih _ _ (by simp [h])
    · exact ih _ _ h

@[simp] theorem State.portRelease_wf (s :
    State) (port : Nat) (hw : spillWf s.spill = true) : spillWf (State.portRelease s port).spill = true := by
  unfold State.portRelease; split <;> simp [*]

@[simp] theorem State.portsRelease_wf (s :
    State) (hw : spillWf s.spill = true) : spillWf (State.portsRelease s).spill = true := by
  unfold State.portsRelease
  repeat' (first
    | assumption
    | with_reducible refine State.wf_branch ?_ ?_
    | with_reducible refine State.wf_foldl _ (fun s a hs => ?_) _ _ ?_
    | split
    | simp (maxDischargeDepth := 20) [*]
    | with_reducible refine State.wf_fst (by assumption) ?_
    | with_reducible refine State.wf_snd (by assumption) ?_)

/-! ### Machine/Slots.lean -/

@[simp] theorem State.modArb_spill (s : State) (p : Nat) (f : Arb → Arb) : (State.modArb s p f).spill = s.spill := rfl

@[simp] theorem State.deadCycle_spill (s : State) (p : Nat) : (State.deadCycle s p).spill = s.spill := rfl

@[simp] theorem State.grant_wf (s :
    State) (p : Nat) (sl : Slice) (c : Cand) (may first : Req → Bool) (hw : spillWf s.spill = true) : spillWf (State.grant s p sl c may first).spill = true := by
  unfold State.grant; split <;> simp [*]

@[simp] theorem State.maintTurn_spill (s : State) (p : Nat) (sl : Slice) : (State.maintTurn s p sl).spill = s.spill := by
  unfold State.maintTurn
  repeat' (first
    | split
    | simp)

@[simp] theorem State.lotterySlot_wf (s :
    State) (p : Nat) (sl : Slice) (draw : Option Cand) (hw : spillWf s.spill = true) : spillWf (State.lotterySlot s p sl draw).spill = true := by
  unfold State.lotterySlot
  repeat' (first
    | assumption
    | with_reducible refine State.wf_branch ?_ ?_
    | split
    | simp (maxDischargeDepth := 20) [*]
    | with_reducible refine State.wf_fst (by assumption) ?_
    | with_reducible refine State.wf_snd (by assumption) ?_)

@[simp] theorem State.slot_wf (s :
    State) (p : Nat) (sl : Slice) (kind : SlotKind) (dq dl : Option Cand) (hw : spillWf s.spill = true) : spillWf (State.slot s p sl kind dq dl).spill = true := by
  unfold State.slot
  repeat' (first
    | assumption
    | with_reducible refine State.wf_branch ?_ ?_
    | split
    | simp (maxDischargeDepth := 20) [*]
    | with_reducible refine State.wf_fst (by assumption) ?_
    | with_reducible refine State.wf_snd (by assumption) ?_)

@[simp] theorem State.cycleCounts_spill (s :
    State) (p : Nat) (sl : Slice) : (State.cycleCounts s p sl).spill = s.spill := by simp [State.cycleCounts]

@[simp] theorem State.starve_spill (s :
    State) (p : Nat) (before : List InputQ) (had : List Nat) : (State.starve s p before had).spill = s.spill := rfl

@[simp] theorem State.issueSlot_wf (s :
    State) (p : Nat) (hw : spillWf s.spill = true) : spillWf (State.issueSlot s p).spill = true := by
  unfold State.issueSlot
  repeat' (first
    | assumption
    | with_reducible refine State.wf_branch ?_ ?_
    | split
    | simp (maxDischargeDepth := 20) [*]
    | with_reducible refine State.wf_fst (by assumption) ?_
    | with_reducible refine State.wf_snd (by assumption) ?_)

@[simp] theorem State.slotsFor_wf (k : Nat) (s :
    State) (p n seq : Nat) (h : spillWf s.spill = true) : spillWf (State.slotsFor k s p n seq).spill = true := by
  induction k generalizing s with
  | zero => exact h
  | succ k ih =>
    unfold State.slotsFor
    repeat' (first
      | assumption
      | split
      | simp (maxDischargeDepth := 20) [*])

@[simp] theorem State.arriveBy_wf (s :
    State) (p : Nat) (q : Req) (home : Bool) (hw : spillWf s.spill = true) : spillWf (State.arriveBy s p q home).spill = true := by
  unfold State.arriveBy
  repeat' (first
    | assumption
    | with_reducible refine State.wf_branch ?_ ?_
    | split
    | simp (maxDischargeDepth := 20) [*]
    | with_reducible refine State.wf_fst (by assumption) ?_
    | with_reducible refine State.wf_snd (by assumption) ?_)

@[simp] theorem State.toSelfSlot_wf (n : Nat) (s :
    State) (p : Nat) (h : spillWf s.spill = true) : spillWf (State.toSelfSlot n s p).spill = true := by
  induction n generalizing s with
  | zero => exact h
  | succ n ih =>
    unfold State.toSelfSlot
    repeat' (first
      | assumption
      | split
      | simp (maxDischargeDepth := 20) [*])

/-! ### Machine/Host.lean -/

@[simp] theorem State.hostErr_spill (s :
    State) (port cond : Nat) : (State.hostErr s port cond).spill = s.spill := by unfold State.hostErr; split <;> simp

@[simp] theorem State.hostRequest_wf (s :
    State) (k : Inp) (m : HostMsg) (data : Line) (be : BitVec 64) (poison : Bool) (hw : spillWf s.spill = true) : spillWf (State.hostRequest s k m data be poison).spill = true := by
  unfold State.hostRequest
  repeat' (first
    | assumption
    | with_reducible refine State.wf_branch ?_ ?_
    | split
    | simp (maxDischargeDepth := 20) [*]
    | with_reducible refine State.wf_fst (by assumption) ?_
    | with_reducible refine State.wf_snd (by assumption) ?_)

@[simp] theorem State.unmatched_spill (s :
    State) (port h : Nat) (l : LineAddr) : (State.unmatched s port h l).spill = s.spill := rfl

@[simp] theorem State.hostOpcode_go_spill (m : HostMsg) (s : State) : (State.hostOpcode.go m s).spill = s.spill := by
  unfold State.hostOpcode.go
  split
  · simp
  · split <;> simp

@[simp] theorem State.hostOpcode_spill (s :
    State) (m : HostMsg) (c : M2SChan) : (State.hostOpcode s m c).spill = s.spill := by
  cases c <;> simp [State.hostOpcode]

@[simp] theorem State.hostAnswer_wf (s :
    State) (port h : Nat) (l : LineAddr) (ans : Inp) (hw : spillWf s.spill = true) : spillWf (State.hostAnswer s port h l ans).spill = true := by
  unfold State.hostAnswer
  repeat' (first
    | assumption
    | with_reducible refine State.wf_branch ?_ ?_
    | split
    | simp (maxDischargeDepth := 20) [*]
    | with_reducible refine State.wf_fst (by assumption) ?_
    | with_reducible refine State.wf_snd (by assumption) ?_)

@[simp] theorem State.birsp_wf (s :
    State) (r : BiRsp) (ans : Inp) (lines : Nat) (hw : spillWf s.spill = true) : spillWf (State.birsp s r ans lines).spill = true := by
  unfold State.birsp
  repeat' (first
    | assumption
    | with_reducible refine State.wf_branch ?_ ?_
    | with_reducible refine State.wf_foldl _ (fun s a hs => ?_) _ _ ?_
    | split
    | simp (maxDischargeDepth := 20) [*]
    | with_reducible refine State.wf_fst (by assumption) ?_
    | with_reducible refine State.wf_snd (by assumption) ?_)

@[simp] theorem State.linkUp_spill (s : State) (port : Nat) : (State.linkUp s port).spill = s.spill := by simp [State.linkUp]

@[simp] theorem State.portReset_wf (s :
    State) (port : Nat) (h : spillWf s.spill = true) : spillWf (State.portReset s port).spill = true := by
  unfold State.portReset
  split
  · exact h
  · refine State.wf_branch h ?_
    refine State.fenceSettle_wf _ ?_
    refine State.wf_foldl _ (fun s m hs => ?_) _ _ ?_
    · split
      · exact hs
      · dsimp only; split <;> simp [hs]
    · simp [h]

@[simp] theorem State.delivered_spill (s :
    State) (port : Nat) (c : S2MChan) : (State.delivered s port c).spill = s.spill := rfl

@[simp] theorem State.windowEnd_wf (s :
    State) (h : Nat) (hw : spillWf s.spill = true) : spillWf (State.windowEnd s h).spill = true := by
  unfold State.windowEnd
  repeat' (first
    | assumption
    | with_reducible refine State.wf_branch ?_ ?_
    | split
    | simp (maxDischargeDepth := 20) [*]
    | with_reducible refine State.wf_fst (by assumption) ?_
    | with_reducible refine State.wf_snd (by assumption) ?_)

@[simp] theorem State.snoopLate_wf (s :
    State) (h : Nat) (hw : spillWf s.spill = true) : spillWf (State.snoopLate s h).spill = true := by
  unfold State.snoopLate
  repeat' (first
    | assumption
    | with_reducible refine State.wf_branch ?_ ?_
    | split
    | simp (maxDischargeDepth := 20) [*]
    | with_reducible refine State.wf_fst (by assumption) ?_
    | with_reducible refine State.wf_snd (by assumption) ?_)

@[simp] theorem State.sweepEnd_wf (s :
    State) (h : Nat) (hw : spillWf s.spill = true) : spillWf (State.sweepEnd s h).spill = true := by
  unfold State.sweepEnd
  repeat' (first
    | assumption
    | with_reducible refine State.wf_branch ?_ ?_
    | split
    | simp (maxDischargeDepth := 20) [*]
    | with_reducible refine State.wf_fst (by assumption) ?_
    | with_reducible refine State.wf_snd (by assumption) ?_)

/-! ### Machine/AgentPorts.lean -/

@[simp] theorem State.sendReq_wf (s :
    State) (port : Nat) (r : PortReq) (useK home : Bool) (hw : spillWf s.spill = true) : spillWf (State.sendReq s port r useK home).spill = true := by
  unfold State.sendReq
  repeat' (first
    | assumption
    | with_reducible refine State.wf_branch ?_ ?_
    | with_reducible refine State.wf_foldl _ (fun s a hs => ?_) _ _ ?_
    | split
    | simp (maxDischargeDepth := 20) [*]
    | with_reducible refine State.wf_fst (by assumption) ?_
    | with_reducible refine State.wf_snd (by assumption) ?_)

@[simp] theorem State.portSend_wf (s :
    State) (port : Nat) (useK home : Bool) (hw : spillWf s.spill = true) : spillWf (State.portSend s port useK home).spill = true := by
  unfold State.portSend
  repeat' (first
    | assumption
    | with_reducible refine State.wf_branch ?_ ?_
    | split
    | simp (maxDischargeDepth := 20) [*]
    | with_reducible refine State.wf_fst (by assumption) ?_
    | with_reducible refine State.wf_snd (by assumption) ?_)

@[simp] theorem State.agentRequest_wf (s :
    State) (k0 : Inp) (m : AgentMsg) (data : Line) (poison : Bool) (hw : spillWf s.spill = true) : spillWf (State.agentRequest s k0 m data poison).spill = true := by
  unfold State.agentRequest
  repeat' (first
    | assumption
    | with_reducible refine State.wf_branch ?_ ?_
    | split
    | simp (maxDischargeDepth := 20) [*]
    | with_reducible refine State.wf_fst (by assumption) ?_
    | with_reducible refine State.wf_snd (by assumption) ?_)

@[simp] theorem State.fenceAt_spill (s :
    State) (p : Nat) (t : ThreadId) : (State.fenceAt s p t).spill = s.spill := by unfold State.fenceAt; split <;> simp

@[simp] theorem State.fenceDone_spill (s : State) (p : Nat) (t : ThreadId) : (State.fenceDone s p t).spill = s.spill := by
  unfold State.fenceDone
  repeat' (first
    | split
    | simp)

@[simp] theorem State.rspArrives_spill (s : State) (p port : Nat) : (State.rspArrives s p port).spill = s.spill := by
  unfold State.rspArrives
  split
  · rfl
  · split <;> simp

@[simp] theorem State.deliver_spill (s : State) (t : ThreadId) : (State.deliver s t).spill = s.spill := by
  unfold State.deliver
  split
  · rfl
  · split <;> simp

@[simp] theorem State.fwdArrives_spill (s :
    State) (port g : Nat) (l : LineAddr) (data : Line) (dirty poison : Bool) : (State.fwdArrives s port g l data dirty poison).spill = s.spill := by
  unfold State.fwdArrives
  repeat' (first
    | split
    | simp)

/-! ### Machine/Ring.lean -/

@[simp] theorem State.silence_spill (s : State) (port g : Nat) : (State.silence s port g).spill = s.spill := rfl

@[simp] theorem State.disablePort_spill (s : State) (p : Nat) : (State.disablePort s p).spill = s.spill := by
  unfold State.disablePort
  repeat' (first
    | with_reducible rfl
    | with_reducible refine (State.spill_foldl _ (fun s a => ?_) _ _).trans ?_
    | split
    | simp
    | with_reducible refine State.spill_fst (by assumption) ?_
    | with_reducible refine State.spill_snd (by assumption) ?_)

@[simp] theorem State.snoopCopy_spill (s :
    State) (port p trk : Nat) (l : LineAddr) : (State.snoopCopy s port p trk l).spill = s.spill := by
  unfold State.snoopCopy
  repeat' (first
    | split
    | simp)

@[simp] theorem State.sendAns_spill (s :
    State) (port : Nat) (e : SnpEnt) (k : AnsKind) (data : Line) (poison : Bool) : (State.sendAns s port e k data poison).spill = s.spill := by
  simp [State.sendAns]

@[simp] theorem State.combine_spill (s : State) (port : Nat) (e : SnpEnt) : (State.combine s port e).spill = s.spill := by
  unfold State.combine
  repeat' (first
    | split
    | simp)

@[simp] theorem State.combineIf_spill (s :
    State) (port sq : Nat) : (State.combineIf s port sq).spill = s.spill := by unfold State.combineIf; split <;> simp

@[simp] theorem State.portSnoop_wf (s :
    State) (port sq : Nat) (hw : spillWf s.spill = true) : spillWf (State.portSnoop s port sq).spill = true := by
  unfold State.portSnoop
  repeat' (first
    | assumption
    | with_reducible refine State.wf_branch ?_ ?_
    | split
    | simp (maxDischargeDepth := 20) [*]
    | with_reducible refine State.wf_fst (by assumption) ?_
    | with_reducible refine State.wf_snd (by assumption) ?_)

@[simp] theorem State.agentAnswers_spill (s :
    State) (port : Nat) (h : BitVec 64) (data : Line) : (State.agentAnswers s port h data).spill = s.spill := by
  unfold State.agentAnswers
  repeat' (first
    | split
    | simp)

@[simp] theorem State.agentSilent_spill (s :
    State) (port g : Nat) : (State.agentSilent s port g).spill = s.spill := by unfold State.agentSilent; split <;> simp

@[simp] theorem State.dropFlit_spill (s : State) : (State.dropFlit s).spill = s.spill := rfl

@[simp] theorem State.agentAnswer_wf (s :
    State) (k : AnsKind) (inp : Inp) (r : AgRsp) (data : Line) (poison : Bool) (hw : spillWf s.spill = true) : spillWf (State.agentAnswer s k inp r data poison).spill = true := by
  unfold State.agentAnswer
  repeat' (first
    | assumption
    | with_reducible refine State.wf_branch ?_ ?_
    | split
    | simp (maxDischargeDepth := 20) [*]
    | with_reducible refine State.wf_fst (by assumption) ?_
    | with_reducible refine State.wf_snd (by assumption) ?_)

@[simp] theorem State.claim_spill (s : State) (stop : Nat) : (State.claim s stop).spill = s.spill := by simp [State.claim]

@[simp] theorem State.escalated_spill (s :
    State) (isSlice : Bool) (n : Nat) : (State.escalated s isSlice n).spill = s.spill := by simp [State.escalated]

@[simp] theorem State.escalate_spill (s : State) (i : Nat) : (State.escalate s i).spill = s.spill := by
  unfold State.escalate
  repeat' (first
    | split
    | simp)

@[simp] theorem State.lossSend_spill (s : State) (stop : Nat) : (State.lossSend s stop).spill = s.spill := by
  unfold State.lossSend
  repeat' (first
    | with_reducible rfl
    | with_reducible refine (State.spill_foldl _ (fun s a => ?_) _ _).trans ?_
    | split
    | simp
    | with_reducible refine State.spill_fst (by assumption) ?_
    | with_reducible refine State.spill_snd (by assumption) ?_)

@[simp] theorem State.ringParity_spill (s :
    State) (stop : Nat) (k : ParityKind) (i : Nat) : (State.ringParity s stop k i).spill = s.spill := by
  unfold State.ringParity
  repeat' (first
    | split
    | simp)

@[simp] theorem State.lossNotice_spill (s : State) (t : LossTarget) : (State.lossNotice s t).spill = s.spill := by
  unfold State.lossNotice
  repeat' (first
    | with_reducible rfl
    | with_reducible refine (State.spill_foldl _ (fun s a => ?_) _ _).trans ?_
    | split
    | simp
    | with_reducible refine State.spill_fst (by assumption) ?_
    | with_reducible refine State.spill_snd (by assumption) ?_)

@[simp] theorem State.linkFaulty_wf (s :
    State) (n : Nat) (hw : spillWf s.spill = true) : spillWf (State.linkFaulty s n).spill = true := by
  unfold State.linkFaulty; split <;> simp [*]

@[simp] theorem State.meshRefuse_wf (s :
    State) (n : Nat) (hdr : BitVec 128) (hw : spillWf s.spill = true) : spillWf (State.meshRefuse s n hdr).spill = true := by
  unfold State.meshRefuse
  repeat' (first
    | assumption
    | with_reducible refine State.wf_branch ?_ ?_
    | split
    | simp (maxDischargeDepth := 20) [*]
    | with_reducible refine State.wf_fst (by assumption) ?_
    | with_reducible refine State.wf_snd (by assumption) ?_)

@[simp] theorem State.ctlFault_wf (s : State) (u : CtlUnit) (h : spillWf s.spill = true) :
    spillWf (State.ctlFault s u).spill = true := by
  cases u <;> simp [State.ctlFault, h]

@[simp] theorem State.ctlSettle_wf (s : State) (hw : spillWf s.spill = true) : spillWf (State.ctlSettle s).spill = true := by
  unfold State.ctlSettle
  repeat' (first
    | assumption
    | with_reducible refine State.wf_branch ?_ ?_
    | with_reducible refine State.wf_foldl _ (fun s a hs => ?_) _ _ ?_
    | split
    | simp (maxDischargeDepth := 20) [*]
    | with_reducible refine State.wf_fst (by assumption) ?_
    | with_reducible refine State.wf_snd (by assumption) ?_)

/-! ### Machine/Responses.lean -/

@[simp] theorem State.takeAck_spill (s :
    State) (p n : Nat) (a : Ack) : (State.takeAck s p n a).spill = s.spill := by unfold State.takeAck; split <;> simp

@[simp] theorem State.deliverAck_wf (s :
    State) (p n : Nat) (a : Ack) (hw : spillWf s.spill = true) : spillWf (State.deliverAck s p n a).spill = true := by
  unfold State.deliverAck
  repeat' (first
    | assumption
    | with_reducible refine State.wf_branch ?_ ?_
    | split
    | simp (maxDischargeDepth := 20) [*]
    | with_reducible refine State.wf_fst (by assumption) ?_
    | with_reducible refine State.wf_snd (by assumption) ?_)

@[simp] theorem State.deliverAll_wf (s :
    State) (p : Nat) (hit : Tracker → Ack → Bool) (hw : spillWf s.spill = true) : spillWf (State.deliverAll s p hit).spill = true := by
  unfold State.deliverAll
  repeat' (first
    | assumption
    | with_reducible refine State.wf_branch ?_ ?_
    | with_reducible refine State.wf_foldl _ (fun s a hs => ?_) _ _ ?_
    | split
    | simp (maxDischargeDepth := 20) [*]
    | with_reducible refine State.wf_fst (by assumption) ?_
    | with_reducible refine State.wf_snd (by assumption) ?_)

@[simp] theorem State.bktSettle_spill (s :
    State) (p : Nat) : (State.bktSettle s p).spill = s.spill := by unfold State.bktSettle; split <;> simp

@[simp] theorem State.unprotAck_wf (s :
    State) (p n : Nat) (a : Ack) (u : Nat) (hw : spillWf s.spill = true) : spillWf (State.unprotAck s p n a u).spill = true := by
  unfold State.unprotAck
  repeat' (first
    | assumption
    | with_reducible refine State.wf_branch ?_ ?_
    | split
    | simp (maxDischargeDepth := 20) [*]
    | with_reducible refine State.wf_fst (by assumption) ?_
    | with_reducible refine State.wf_snd (by assumption) ?_)

@[simp] theorem State.unprotAcks_wf (s :
    State) (p : Nat) (hw : spillWf s.spill = true) : spillWf (State.unprotAcks s p).spill = true := by
  unfold State.unprotAcks
  repeat' (first
    | assumption
    | with_reducible refine State.wf_branch ?_ ?_
    | with_reducible refine State.wf_foldl _ (fun s a hs => ?_) _ _ ?_
    | split
    | simp (maxDischargeDepth := 20) [*]
    | with_reducible refine State.wf_fst (by assumption) ?_
    | with_reducible refine State.wf_snd (by assumption) ?_)

@[simp] theorem State.settle_wf (s :
    State) (p : Nat) (hw : spillWf s.spill = true) : spillWf (State.settle s p).spill = true := by simp [State.settle, *]

@[simp] theorem State.bucketIn_wf (s :
    State) (p n : Nat) (use : BktUse) (line : LineAddr) (ue : Bool) (hw : spillWf s.spill = true) : spillWf (State.bucketIn s p n use line ue).spill = true := by
  unfold State.bucketIn
  repeat' (first
    | assumption
    | with_reducible refine State.wf_branch ?_ ?_
    | split
    | simp (maxDischargeDepth := 20) [*]
    | with_reducible refine State.wf_fst (by assumption) ?_
    | with_reducible refine State.wf_snd (by assumption) ?_)

@[simp] theorem State.memFault_spill (s : State) (port : Nat) : (State.memFault s port).spill = s.spill := rfl

@[simp] theorem State.memAnswer_spill (s : State) (port tag : Nat) : (State.memAnswer s port tag).1.spill = s.spill := by
  unfold State.memAnswer
  repeat' (first
    | split
    | simp)

@[simp] theorem State.lineIn_wf (s :
    State) (p n : Nat) (l : LineAddr) (keep : Bool) (data : Line) (nib : Nib) (poison ue : Bool) (hw : spillWf s.spill = true) : spillWf (State.lineIn s p n l keep data nib poison ue).spill = true := by
  unfold State.lineIn
  repeat' (first
    | assumption
    | with_reducible refine State.wf_branch ?_ ?_
    | split
    | simp (maxDischargeDepth := 20) [*]
    | with_reducible refine State.wf_fst (by assumption) ?_
    | with_reducible refine State.wf_snd (by assumption) ?_)

@[simp] theorem State.readDone_wf (s :
    State) (c : MemCmd) (data : Line) (nib : Nib) (poison ue : Bool) (hw : spillWf s.spill = true) : spillWf (State.readDone s c data nib poison ue).spill = true := by
  unfold State.readDone
  repeat' (first
    | assumption
    | with_reducible refine State.wf_branch ?_ ?_
    | split
    | simp (maxDischargeDepth := 20) [*]
    | with_reducible refine State.wf_fst (by assumption) ?_
    | with_reducible refine State.wf_snd (by assumption) ?_)

@[simp] theorem State.wpqDone_wf (s :
    State) (p wid : Nat) (hw : spillWf s.spill = true) : spillWf (State.wpqDone s p wid).spill = true := by
  simp (maxDischargeDepth := 20) [State.wpqDone, *]

@[simp] theorem State.writeDone_wf (s :
    State) (c : MemCmd) (hw : spillWf s.spill = true) : spillWf (State.writeDone s c).spill = true := by
  unfold State.writeDone; split <;> simp [*]

@[simp] theorem State.memData_wf (s :
    State) (port tag : Nat) (data : Line) (nib : Nib) (poison ue : Bool) (hw : spillWf s.spill = true) : spillWf (State.memData s port tag data nib poison ue).spill = true := by
  unfold State.memData
  repeat' (first
    | assumption
    | with_reducible refine State.wf_branch ?_ ?_
    | with_reducible apply State.readDone_wf
    | split
    | simp only [State.spill_ite, State.memBack_spill, State.memFree_spill, Run.read_spill, State.memFault_spill, State.memAnswer_spill]
    | dsimp only
    | with_reducible refine State.wf_fst (by assumption) ?_
    | with_reducible refine State.wf_snd (by assumption) ?_)

@[simp] theorem State.memWritten_wf (s :
    State) (port tag : Nat) (hw : spillWf s.spill = true) : spillWf (State.memWritten s port tag).spill = true := by
  unfold State.memWritten
  repeat' (first
    | assumption
    | with_reducible refine State.wf_branch ?_ ?_
    | with_reducible apply State.writeDone_wf
    | split
    | simp only [State.spill_ite, State.memBack_spill, State.memFree_spill, Run.read_spill, State.memFault_spill, State.memAnswer_spill]
    | dsimp only
    | with_reducible refine State.wf_fst (by assumption) ?_
    | with_reducible refine State.wf_snd (by assumption) ?_)

@[simp] theorem State.memTimeout_wf (s :
    State) (port tag : Nat) (hw : spillWf s.spill = true) : spillWf (State.memTimeout s port tag).spill = true := by
  unfold State.memTimeout
  repeat' (first
    | assumption
    | with_reducible refine State.wf_branch ?_ ?_
    | split
    | simp (maxDischargeDepth := 20) [*]
    | with_reducible refine State.wf_fst (by assumption) ?_
    | with_reducible refine State.wf_snd (by assumption) ?_)

@[simp] theorem State.spillAnswer_wf (s :
    State) (port tag : Nat) (hit ue : Bool) (hw : spillWf s.spill = true) : spillWf (State.spillAnswer s port tag hit ue).spill = true := by
  unfold State.spillAnswer
  repeat' (first
    | assumption
    | with_reducible refine State.wf_branch ?_ ?_
    | split
    | simp (maxDischargeDepth := 20) [*]
    | with_reducible refine State.wf_fst (by assumption) ?_
    | with_reducible refine State.wf_snd (by assumption) ?_)

@[simp] theorem State.strayAck_spill (s :
    State) (p : Nat) : (State.strayAck s p).spill = s.spill := by unfold State.strayAck; split <;> simp

@[simp] theorem State.dirAck_wf (s :
    State) (p : Nat) (sent : NMsg) (out : Bool) (free : Slice → Slice) (hit : Tracker → Ack → Bool) (hw : spillWf s.spill = true) : spillWf (State.dirAck s p sent out free hit).spill = true := by
  unfold State.dirAck
  repeat' (first
    | assumption
    | with_reducible refine State.wf_branch ?_ ?_
    | split
    | simp (maxDischargeDepth := 20) [*]
    | with_reducible refine State.wf_fst (by assumption) ?_
    | with_reducible refine State.wf_snd (by assumption) ?_)

@[simp] theorem State.ackCmd_wf (s :
    State) (a : AckSel) (hw : spillWf s.spill = true) : spillWf (State.ackCmd s a).spill = true := by
  unfold State.ackCmd
  repeat' (first
    | assumption
    | with_reducible refine State.wf_branch ?_ ?_
    | split
    | simp (maxDischargeDepth := 20) [*]
    | with_reducible refine State.wf_fst (by assumption) ?_
    | with_reducible refine State.wf_snd (by assumption) ?_)

@[simp] theorem State.openMig_wf (s :
    State) (p : Nat) (q : Req) (o : Pool) (hw : spillWf s.spill = true) : spillWf (State.openMig s p q o).spill = true := by
  simp [State.openMig, *]

@[simp] theorem State.migStart_go_wf (p : Nat) (pg : Page) (k : MigKind) (sl : Slice) (s :
    State) (h : spillWf s.spill = true) :
    spillWf (State.migStart.go p pg k s sl).spill = true := by
  unfold State.migStart.go
  split
  · simp [h]
  · split <;> simp [h]

@[simp] theorem State.migStart_wf (s : State) (p : Nat) (pg : Page) (k : MigKind) (h : spillWf s.spill = true) :
    spillWf (s.migStart p pg k).spill = true := by
  unfold State.migStart
  repeat' (first
    | assumption
    | with_reducible refine State.wf_branch ?_ ?_
    | split
    | simp [*])

@[simp] theorem State.releaseMig_wf (s :
    State) (p : Nat) (pg : Page) (hw : spillWf s.spill = true) : spillWf (State.releaseMig s p pg).spill = true := by
  unfold State.releaseMig
  repeat' (first
    | assumption
    | with_reducible refine State.wf_branch ?_ ?_
    | split
    | simp (maxDischargeDepth := 20) [*]
    | with_reducible refine State.wf_fst (by assumption) ?_
    | with_reducible refine State.wf_snd (by assumption) ?_)

@[simp] theorem State.takeMigDone_spill (s : State) (p : Nat) (pg : Page) : (State.takeMigDone s p pg).spill = s.spill := rfl

@[simp] theorem State.migDone_wf (s :
    State) (p : Nat) (pg : Page) (hw : spillWf s.spill = true) : spillWf (State.migDone s p pg).spill = true := by
  unfold State.migDone
  repeat' (first
    | assumption
    | with_reducible refine State.wf_branch ?_ ?_
    | with_reducible refine State.wf_foldl _ (fun s a hs => ?_) _ _ ?_
    | with_reducible apply State.feed_wf
    | with_reducible apply State.settle_wf
    | split
    | simp only [State.spill_ite, State.failSlice_spill, State.takeMigDone_spill]
    | dsimp only
    | with_reducible refine State.wf_fst (by assumption) ?_
    | with_reducible refine State.wf_snd (by assumption) ?_)

@[simp] theorem State.moveTick_wf (s :
    State) (p n : Nat) (hw : spillWf s.spill = true) : spillWf (State.moveTick s p n).spill = true := by
  unfold State.moveTick
  repeat' (first
    | assumption
    | with_reducible refine State.wf_branch ?_ ?_
    | split
    | simp (maxDischargeDepth := 20) [*]
    | with_reducible refine State.wf_fst (by assumption) ?_
    | with_reducible refine State.wf_snd (by assumption) ?_)

@[simp] theorem State.selfCheck_wf (s : State) (p : Nat) (agree : Bool) (hw : spillWf s.spill = true) :
    spillWf (State.selfCheck s p agree).spill = true := by
  unfold State.selfCheck
  extract_lets s1
  have h : spillWf s1.spill = true := State.toSelfSlot_wf _ _ _ hw
  clear_value s1
  repeat' (first
    | with_reducible assumption
    | with_reducible refine State.wf_branch ?_ ?_
    | split
    | simp [h])

@[simp] theorem State.reeval_wf (s :
    State) (p n : Nat) (hw : spillWf s.spill = true) : spillWf (State.reeval s p n).spill = true := by
  unfold State.reeval
  repeat' (first
    | assumption
    | with_reducible refine State.wf_branch ?_ ?_
    | split
    | simp (maxDischargeDepth := 20) [*]
    | with_reducible refine State.wf_fst (by assumption) ?_
    | with_reducible refine State.wf_snd (by assumption) ?_)

/-! ### Machine/Arb.lean -/

@[simp] theorem State.starved_spill (s :
    State) (p n : Nat) : (State.starved s p n).spill = s.spill := by unfold State.starved; split <;> simp

@[simp] theorem State.kcredit_wf (s :
    State) (p n : Nat) (hw : spillWf s.spill = true) : spillWf (State.kcredit s p n).spill = true := by
  unfold State.kcredit
  repeat' (first
    | assumption
    | with_reducible refine State.wf_branch ?_ ?_
    | split
    | simp (maxDischargeDepth := 20) [*]
    | with_reducible refine State.wf_fst (by assumption) ?_
    | with_reducible refine State.wf_snd (by assumption) ?_)

/-! ### Machine/Walks.lean -/

@[simp] theorem State.enterUnprot_wf (s :
    State) (b : Nat) (hw : spillWf s.spill = true) : spillWf (State.enterUnprot s b).spill = true := by
  unfold State.enterUnprot
  repeat' (first
    | assumption
    | with_reducible refine State.wf_branch ?_ ?_
    | split
    | simp (maxDischargeDepth := 20) [*]
    | with_reducible refine State.wf_fst (by assumption) ?_
    | with_reducible refine State.wf_snd (by assumption) ?_)

@[simp] theorem State.pairUnprot_wf (s :
    State) (b cause : Nat) (hw : spillWf s.spill = true) : spillWf (State.pairUnprot s b cause).spill = true := by
  unfold State.pairUnprot
  repeat' (first
    | assumption
    | with_reducible refine State.wf_branch ?_ ?_
    | split
    | simp (maxDischargeDepth := 20) [*]
    | with_reducible refine State.wf_fst (by assumption) ?_
    | with_reducible refine State.wf_snd (by assumption) ?_)

@[simp] theorem State.linkFail_wf (s :
    State) (p : Nat) (hw : spillWf s.spill = true) : spillWf (State.linkFail s p).spill = true := by
  unfold State.linkFail
  repeat' (first
    | assumption
    | with_reducible refine State.wf_branch ?_ ?_
    | split
    | simp (maxDischargeDepth := 20) [*]
    | with_reducible refine State.wf_fst (by assumption) ?_
    | with_reducible refine State.wf_snd (by assumption) ?_)

@[simp] theorem State.prefetchAccept_wf (s :
    State) (p : Nat) (hw : spillWf s.spill = true) : spillWf (State.prefetchAccept s p).spill = true := by
  unfold State.prefetchAccept
  repeat' (first
    | assumption
    | with_reducible refine State.wf_branch ?_ ?_
    | split
    | simp (maxDischargeDepth := 20) [*]
    | with_reducible refine State.wf_fst (by assumption) ?_
    | with_reducible refine State.wf_snd (by assumption) ?_)

theorem State.visitSet_spill {s : State} {p set : Nat} {take drop : Nat × CLine → Bool} {t : State}
    (h : State.visitSet s p set take drop = some t) : t.spill = s.spill := by
  unfold State.visitSet at h
  split at h
  · contradiction
  · dsimp only at h
    split at h
    · contradiction
    · injection h with h
      subst h
      rw [State.spill_foldl _ (by simp), State.spill_foldl _ (by simp)]

@[simp] theorem State.modMsc_spill (s : State) (p : Nat) (f : Msc → Msc) : (State.modMsc s p f).spill = s.spill := rfl

theorem State.retireTurn_spill {s : State} {p : Nat} {sl : Slice} {t : State} (h : State.retireTurn s p sl = some t) :
    t.spill = s.spill := by
  obtain ⟨r, -, h⟩ := List.exists_of_findSome?_eq_some h
  dsimp only at h
  repeat' (first | contradiction | split at h)
  all_goals
    injection h with h
    subst h
    simp [State.visitSet_spill ‹_›]

@[simp] theorem State.writebackTurn_wf (s :
    State) (p : Nat) (hw : spillWf s.spill = true) : spillWf (State.writebackTurn s p).spill = true := by
  unfold State.writebackTurn
  repeat' (first
    | assumption
    | with_reducible refine State.wf_branch ?_ ?_
    | with_reducible apply State.settle_wf
    | split
    | simp only [State.spill_ite, State.noteOcc_spill, State.modMsc_spill]
    | dsimp only
    | with_reducible refine State.wf_fst (by assumption) ?_
    | with_reducible refine State.wf_snd (by assumption) ?_
    | (rw [State.visitSet_spill (by assumption)]; assumption)
    | (rw [State.retireTurn_spill (by assumption)]; assumption))

@[simp] theorem State.cacheDrainTurn_wf (s :
    State) (p : Nat) (hw : spillWf s.spill = true) : spillWf (State.cacheDrainTurn s p).spill = true := by
  unfold State.cacheDrainTurn
  repeat' (first
    | assumption
    | with_reducible refine State.wf_branch ?_ ?_
    | with_reducible apply State.settle_wf
    | split
    | simp only [State.spill_ite, State.noteOcc_spill, State.modMsc_spill]
    | dsimp only
    | with_reducible refine State.wf_fst (by assumption) ?_
    | with_reducible refine State.wf_snd (by assumption) ?_
    | (rw [State.visitSet_spill (by assumption)]; assumption))

@[simp] theorem State.drainTurn_wf (s :
    State) (p : Nat) (hw : spillWf s.spill = true) : spillWf (State.drainTurn s p).spill = true := by
  unfold State.drainTurn
  repeat' (first
    | assumption
    | with_reducible refine State.wf_branch ?_ ?_
    | with_reducible apply State.settle_wf
    | split
    | simp only [State.spill_ite, State.modSlice_spill, State.noteOcc_spill]
    | dsimp only
    | with_reducible refine State.wf_fst (by assumption) ?_
    | with_reducible refine State.wf_snd (by assumption) ?_
    | (rw [State.visitSet_spill (by assumption)]; assumption))

@[simp] theorem State.victimToWpq_wf (s :
    State) (p v : Nat) (hw : spillWf s.spill = true) : spillWf (State.victimToWpq s p v).spill = true := by
  unfold State.victimToWpq
  repeat' (first
    | assumption
    | with_reducible refine State.wf_branch ?_ ?_
    | split
    | simp (maxDischargeDepth := 20) [*]
    | with_reducible refine State.wf_fst (by assumption) ?_
    | with_reducible refine State.wf_snd (by assumption) ?_)

@[simp] theorem State.wpqIssue_spill (s : State) (p : Nat) : (State.wpqIssue s p).spill = s.spill := by
  unfold State.wpqIssue
  repeat' (first
    | split
    | simp)

@[simp] theorem State.kpinFill_wf (s :
    State) (p n : Nat) (hw : spillWf s.spill = true) : spillWf (State.kpinFill s p n).spill = true := by
  unfold State.kpinFill
  repeat' (first
    | assumption
    | with_reducible refine State.wf_branch ?_ ?_
    | split
    | simp (maxDischargeDepth := 20) [*]
    | with_reducible refine State.wf_fst (by assumption) ?_
    | with_reducible refine State.wf_snd (by assumption) ?_)

@[simp] theorem State.mirrorUpdate_wf (s :
    State) (p : Nat) (hw : spillWf s.spill = true) : spillWf (State.mirrorUpdate s p).spill = true := by
  unfold State.mirrorUpdate
  repeat' (first
    | assumption
    | with_reducible refine State.wf_branch ?_ ?_
    | with_reducible refine State.wf_foldl _ (fun s a hs => ?_) _ _ ?_
    | split
    | simp (maxDischargeDepth := 20) [*]
    | with_reducible refine State.wf_fst (by assumption) ?_
    | with_reducible refine State.wf_snd (by assumption) ?_)

@[simp] theorem State.preloadEnd_spill (s :
    State) (p : Nat) : (State.preloadEnd s p).spill = s.spill := by unfold State.preloadEnd; split <;> simp

theorem State.preloadLine_wf {s : State} {p : Nat} {sl : Slice} {l : LineAddr} {t : State}
    (h : State.preloadLine s p sl l = some t) (hs : spillWf s.spill = true) : spillWf t.spill = true := by
  unfold State.preloadLine at h
  dsimp only at h
  repeat' (first | contradiction | split at h)
  all_goals
    injection h with h
    subst h
    simp [*]

@[simp] theorem State.preloadTurn_wf (s :
    State) (p : Nat) (hw : spillWf s.spill = true) : spillWf (State.preloadTurn s p).spill = true := by
  unfold State.preloadTurn
  repeat' (first
    | assumption
    | with_reducible refine State.wf_branch ?_ ?_
    | with_reducible apply State.settle_wf
    | split
    | simp only [State.spill_ite, State.noteOcc_spill, State.modMsc_spill, State.preloadEnd_spill]
    | dsimp only
    | with_reducible refine State.wf_fst (by assumption) ?_
    | with_reducible refine State.wf_snd (by assumption) ?_
    | (rw [State.visitSet_spill (by assumption)]; assumption)
    | refine State.preloadLine_wf (by assumption) ?_)

@[simp] theorem State.wayRetire_spill (s :
    State) (p w : Nat) : (State.wayRetire s p w).spill = s.spill := by unfold State.wayRetire; split <;> simp

@[simp] theorem State.errWindow_spill (s :
    State) (p : Nat) : (State.errWindow s p).spill = s.spill := by simp [State.errWindow]

@[simp] theorem State.evictEntry_wf (s : State) (p i : Nat) (v : Entry) (hw : spillWf s.spill = true) :
    spillWf (State.evictEntry s p i v).spill = true := by
  unfold State.evictEntry
  split
  · exact hw
  · split
    · exact hw
    · extract_lets bi t0 t put m r0 r1 w s1
      have h1 : spillWf s1.spill = true := by simp [s1, r1, r0, Run.start, hw]
      clear_value s1
      split
      · exact State.pump_wf _ _ _ _ h1
      · exact h1

@[simp] theorem State.sfWalkTurn_wf (s :
    State) (p : Nat) (hw : spillWf s.spill = true) : spillWf (State.sfWalkTurn s p).spill = true := by
  unfold State.sfWalkTurn
  repeat' (first
    | assumption
    | with_reducible refine State.wf_branch ?_ ?_
    | with_reducible refine State.wf_foldl _ (fun s a hs => ?_) _ _ ?_
    | with_reducible apply State.settle_wf
    | with_reducible apply State.evictEntry_wf
    | split
    | simp only [State.spill_ite, State.modSlice_spill]
    | dsimp only
    | with_reducible refine State.wf_fst (by assumption) ?_
    | with_reducible refine State.wf_snd (by assumption) ?_)

@[simp] theorem State.sweepOpen_spill (s : State) (p : Nat) (l : LineAddr) : (State.sweepOpen s p l).spill = s.spill := by
  unfold State.sweepOpen
  split
  · rfl
  · split <;> simp

@[simp] theorem State.sweepSnoop_wf (s :
    State) (p : Nat) (ts : List Tracker) (hw : spillWf s.spill = true) : spillWf (State.sweepSnoop s p ts).spill = true := by
  unfold State.sweepSnoop
  repeat' (first
    | assumption
    | with_reducible refine State.wf_branch ?_ ?_
    | with_reducible refine State.wf_foldl _ (fun s a hs => ?_) _ _ ?_
    | with_reducible apply State.sweepDone_wf
    | with_reducible apply State.feed_wf
    | split
    | simp only [State.spill_ite, State.modSlice_spill, State.modTrk_spill, State.sendBISnp_spill, State.sendRSnp_spill]
    | dsimp only
    | with_reducible refine State.wf_fst (by assumption) ?_
    | with_reducible refine State.wf_snd (by assumption) ?_)

@[simp] theorem State.sweepEndRange_spill (s :
    State) (p : Nat) (b : Blind) : (State.sweepEndRange s p b).spill = s.spill := by simp [State.sweepEndRange]

@[simp] theorem State.sweepGroup_wf (s :
    State) (p : Nat) (hw : spillWf s.spill = true) : spillWf (State.sweepGroup s p).spill = true := by
  unfold State.sweepGroup
  repeat' (first
    | assumption
    | with_reducible refine State.wf_branch ?_ ?_
    | with_reducible refine State.wf_foldl _ (fun s a hs => ?_) _ _ ?_
    | with_reducible apply Run.next_wf
    | with_reducible apply State.sweepDone_wf
    | with_reducible apply State.settle_wf
    | with_reducible apply State.sweepSnoop_wf
    | split
    | simp only [State.spill_ite, State.modSlice_spill, State.pmRequest_spill, State.retire_spill, State.sweepOpen_spill, State.sweepEndRange_spill]
    | dsimp only
    | with_reducible refine State.wf_fst (by assumption) ?_
    | with_reducible refine State.wf_snd (by assumption) ?_)

end Sys2Proof.Machine
end

