-- ==== Sys2Proof/Laws/State.lean ====
section
/-! SUPPORT. For each named update of the state, one lemma for each field: what it becomes, or that it stays. No later proof
unfolds a record update. -/

namespace Sys2Proof.Machine

open Sys2Proof

set_option linter.unreachableTactic false
set_option linter.unusedTactic false
set_option linter.unusedSimpArgs false

/-! ### modSlice -/

@[simp] theorem State.modSlice_variant (s : State) (p : Nat) (f : Slice → Slice) : (s.modSlice p f).variant = s.variant := rfl
@[simp] theorem State.modSlice_pending (s : State) (p : Nat) (f : Slice → Slice) : (s.modSlice p f).pending = s.pending := rfl
@[simp] theorem State.modSlice_free (s : State) (p : Nat) (f : Slice → Slice) : (s.modSlice p f).free = s.free := rfl
@[simp] theorem State.modSlice_pins (s : State) (p : Nat) (f : Slice → Slice) : (s.modSlice p f).pins = s.pins := rfl
@[simp] theorem State.modSlice_gl (s : State) (p : Nat) (f : Slice → Slice) : (s.modSlice p f).gl = s.gl := rfl
@[simp] theorem State.modSlice_regs (s : State) (p : Nat) (f : Slice → Slice) : (s.modSlice p f).regs = s.regs := rfl
@[simp] theorem State.modSlice_cfg (s : State) (p : Nat) (f : Slice → Slice) : (s.modSlice p f).cfg = s.cfg := rfl
@[simp] theorem State.modSlice_hostPorts (s : State) (p : Nat) (f : Slice → Slice) : (s.modSlice p f).hostPorts = s.hostPorts := rfl
@[simp] theorem State.modSlice_hids (s : State) (p : Nat) (f : Slice → Slice) : (s.modSlice p f).hids = s.hids := rfl
@[simp] theorem State.modSlice_agentPorts (s : State) (p : Nat) (f : Slice → Slice) : (s.modSlice p f).agentPorts = s.agentPorts := rfl
@[simp] theorem State.modSlice_slices (s : State) (p : Nat) (f : Slice → Slice) : (s.modSlice p f).slices = s.slices.modify p f := rfl
@[simp] theorem State.modSlice_memPorts (s : State) (p : Nat) (f : Slice → Slice) : (s.modSlice p f).memPorts = s.memPorts := rfl
@[simp] theorem State.modSlice_cast (s : State) (p : Nat) (f : Slice → Slice) : (s.modSlice p f).cast = s.cast := rfl
@[simp] theorem State.modSlice_dir (s : State) (p : Nat) (f : Slice → Slice) : (s.modSlice p f).dir = s.dir := rfl
@[simp] theorem State.modSlice_dctl (s : State) (p : Nat) (f : Slice → Slice) : (s.modSlice p f).dctl = s.dctl := rfl
@[simp] theorem State.modSlice_root (s : State) (p : Nat) (f : Slice → Slice) : (s.modSlice p f).root = s.root := rfl
@[simp] theorem State.modSlice_eg (s : State) (p : Nat) (f : Slice → Slice) : (s.modSlice p f).eg = s.eg := rfl
@[simp] theorem State.modSlice_pwr (s : State) (p : Nat) (f : Slice → Slice) : (s.modSlice p f).pwr = s.pwr := rfl
@[simp] theorem State.modSlice_ld (s : State) (p : Nat) (f : Slice → Slice) : (s.modSlice p f).ld = s.ld := rfl
@[simp] theorem State.modSlice_fb (s : State) (p : Nat) (f : Slice → Slice) : (s.modSlice p f).fb = s.fb := rfl
@[simp] theorem State.modSlice_net (s : State) (p : Nat) (f : Slice → Slice) : (s.modSlice p f).net = s.net := rfl
@[simp] theorem State.modSlice_ring (s : State) (p : Nat) (f : Slice → Slice) : (s.modSlice p f).ring = s.ring := rfl
@[simp] theorem State.modSlice_ringSnoops (s : State) (p : Nat) (f : Slice → Slice) : (s.modSlice p f).ringSnoops = s.ringSnoops := rfl
@[simp] theorem State.modSlice_ev (s : State) (p : Nat) (f : Slice → Slice) : (s.modSlice p f).ev = s.ev := rfl

/-! ### modTrk -/

@[simp] theorem State.modTrk_variant (s : State) (p n : Nat) (f : Tracker → Tracker) : (s.modTrk p n f).variant = s.variant := rfl
@[simp] theorem State.modTrk_pending (s : State) (p n : Nat) (f : Tracker → Tracker) : (s.modTrk p n f).pending = s.pending := rfl
@[simp] theorem State.modTrk_free (s : State) (p n : Nat) (f : Tracker → Tracker) : (s.modTrk p n f).free = s.free := rfl
@[simp] theorem State.modTrk_pins (s : State) (p n : Nat) (f : Tracker → Tracker) : (s.modTrk p n f).pins = s.pins := rfl
@[simp] theorem State.modTrk_gl (s : State) (p n : Nat) (f : Tracker → Tracker) : (s.modTrk p n f).gl = s.gl := rfl
@[simp] theorem State.modTrk_regs (s : State) (p n : Nat) (f : Tracker → Tracker) : (s.modTrk p n f).regs = s.regs := rfl
@[simp] theorem State.modTrk_cfg (s : State) (p n : Nat) (f : Tracker → Tracker) : (s.modTrk p n f).cfg = s.cfg := rfl
@[simp] theorem State.modTrk_hostPorts (s : State) (p n : Nat) (f : Tracker → Tracker) :
    (s.modTrk p n f).hostPorts = s.hostPorts := rfl
@[simp] theorem State.modTrk_hids (s : State) (p n : Nat) (f : Tracker → Tracker) : (s.modTrk p n f).hids = s.hids := rfl
@[simp] theorem State.modTrk_agentPorts (s : State) (p n : Nat) (f : Tracker → Tracker) :
    (s.modTrk p n f).agentPorts = s.agentPorts := rfl
@[simp] theorem State.modTrk_slices (s : State) (p n : Nat) (f : Tracker → Tracker) :
    (s.modTrk p n f).slices = s.slices.modify p fun sl => sl.modTrk n f := rfl
@[simp] theorem State.modTrk_memPorts (s : State) (p n : Nat) (f : Tracker → Tracker) : (s.modTrk p n f).memPorts = s.memPorts := rfl
@[simp] theorem State.modTrk_cast (s : State) (p n : Nat) (f : Tracker → Tracker) : (s.modTrk p n f).cast = s.cast := rfl
@[simp] theorem State.modTrk_dir (s : State) (p n : Nat) (f : Tracker → Tracker) : (s.modTrk p n f).dir = s.dir := rfl
@[simp] theorem State.modTrk_dctl (s : State) (p n : Nat) (f : Tracker → Tracker) : (s.modTrk p n f).dctl = s.dctl := rfl
@[simp] theorem State.modTrk_root (s : State) (p n : Nat) (f : Tracker → Tracker) : (s.modTrk p n f).root = s.root := rfl
@[simp] theorem State.modTrk_eg (s : State) (p n : Nat) (f : Tracker → Tracker) : (s.modTrk p n f).eg = s.eg := rfl
@[simp] theorem State.modTrk_pwr (s : State) (p n : Nat) (f : Tracker → Tracker) : (s.modTrk p n f).pwr = s.pwr := rfl
@[simp] theorem State.modTrk_ld (s : State) (p n : Nat) (f : Tracker → Tracker) : (s.modTrk p n f).ld = s.ld := rfl
@[simp] theorem State.modTrk_fb (s : State) (p n : Nat) (f : Tracker → Tracker) : (s.modTrk p n f).fb = s.fb := rfl
@[simp] theorem State.modTrk_net (s : State) (p n : Nat) (f : Tracker → Tracker) : (s.modTrk p n f).net = s.net := rfl
@[simp] theorem State.modTrk_ring (s : State) (p n : Nat) (f : Tracker → Tracker) : (s.modTrk p n f).ring = s.ring := rfl
@[simp] theorem State.modTrk_ringSnoops (s : State) (p n : Nat) (f : Tracker → Tracker) :
    (s.modTrk p n f).ringSnoops = s.ringSnoops := rfl
@[simp] theorem State.modTrk_ev (s : State) (p n : Nat) (f : Tracker → Tracker) : (s.modTrk p n f).ev = s.ev := rfl

/-! ### modHostPort -/

@[simp] theorem State.modHostPort_variant (s : State) (p : Nat) (f : HostPort → HostPort) :
    (s.modHostPort p f).variant = s.variant := rfl
@[simp] theorem State.modHostPort_pending (s : State) (p : Nat) (f : HostPort → HostPort) :
    (s.modHostPort p f).pending = s.pending := rfl
@[simp] theorem State.modHostPort_free (s : State) (p : Nat) (f : HostPort → HostPort) : (s.modHostPort p f).free = s.free := rfl
@[simp] theorem State.modHostPort_pins (s : State) (p : Nat) (f : HostPort → HostPort) : (s.modHostPort p f).pins = s.pins := rfl
@[simp] theorem State.modHostPort_gl (s : State) (p : Nat) (f : HostPort → HostPort) : (s.modHostPort p f).gl = s.gl := rfl
@[simp] theorem State.modHostPort_regs (s : State) (p : Nat) (f : HostPort → HostPort) : (s.modHostPort p f).regs = s.regs := rfl
@[simp] theorem State.modHostPort_cfg (s : State) (p : Nat) (f : HostPort → HostPort) : (s.modHostPort p f).cfg = s.cfg := rfl
@[simp] theorem State.modHostPort_hostPorts (s : State) (p : Nat) (f : HostPort → HostPort) :
    (s.modHostPort p f).hostPorts = s.hostPorts.modify p f := rfl
@[simp] theorem State.modHostPort_hids (s : State) (p : Nat) (f : HostPort → HostPort) : (s.modHostPort p f).hids = s.hids := rfl
@[simp] theorem State.modHostPort_agentPorts (s : State) (p : Nat) (f : HostPort → HostPort) :
    (s.modHostPort p f).agentPorts = s.agentPorts := rfl
@[simp] theorem State.modHostPort_slices (s : State) (p : Nat) (f : HostPort → HostPort) : (s.modHostPort p f).slices = s.slices := rfl
@[simp] theorem State.modHostPort_memPorts (s : State) (p : Nat) (f : HostPort → HostPort) :
    (s.modHostPort p f).memPorts = s.memPorts := rfl
@[simp] theorem State.modHostPort_cast (s : State) (p : Nat) (f : HostPort → HostPort) : (s.modHostPort p f).cast = s.cast := rfl
@[simp] theorem State.modHostPort_dir (s : State) (p : Nat) (f : HostPort → HostPort) : (s.modHostPort p f).dir = s.dir := rfl
@[simp] theorem State.modHostPort_dctl (s : State) (p : Nat) (f : HostPort → HostPort) : (s.modHostPort p f).dctl = s.dctl := rfl
@[simp] theorem State.modHostPort_root (s : State) (p : Nat) (f : HostPort → HostPort) : (s.modHostPort p f).root = s.root := rfl
@[simp] theorem State.modHostPort_eg (s : State) (p : Nat) (f : HostPort → HostPort) : (s.modHostPort p f).eg = s.eg := rfl
@[simp] theorem State.modHostPort_pwr (s : State) (p : Nat) (f : HostPort → HostPort) : (s.modHostPort p f).pwr = s.pwr := rfl
@[simp] theorem State.modHostPort_ld (s : State) (p : Nat) (f : HostPort → HostPort) : (s.modHostPort p f).ld = s.ld := rfl
@[simp] theorem State.modHostPort_fb (s : State) (p : Nat) (f : HostPort → HostPort) : (s.modHostPort p f).fb = s.fb := rfl
@[simp] theorem State.modHostPort_net (s : State) (p : Nat) (f : HostPort → HostPort) : (s.modHostPort p f).net = s.net := rfl
@[simp] theorem State.modHostPort_ring (s : State) (p : Nat) (f : HostPort → HostPort) : (s.modHostPort p f).ring = s.ring := rfl
@[simp] theorem State.modHostPort_ringSnoops (s : State) (p : Nat) (f : HostPort → HostPort) :
    (s.modHostPort p f).ringSnoops = s.ringSnoops := rfl
@[simp] theorem State.modHostPort_ev (s : State) (p : Nat) (f : HostPort → HostPort) : (s.modHostPort p f).ev = s.ev := rfl

/-! ### modHid -/

@[simp] theorem State.modHid_variant (s : State) (h : Nat) (f : Hid → Hid) : (s.modHid h f).variant = s.variant := rfl
@[simp] theorem State.modHid_pending (s : State) (h : Nat) (f : Hid → Hid) : (s.modHid h f).pending = s.pending := rfl
@[simp] theorem State.modHid_free (s : State) (h : Nat) (f : Hid → Hid) : (s.modHid h f).free = s.free := rfl
@[simp] theorem State.modHid_pins (s : State) (h : Nat) (f : Hid → Hid) : (s.modHid h f).pins = s.pins := rfl
@[simp] theorem State.modHid_gl (s : State) (h : Nat) (f : Hid → Hid) : (s.modHid h f).gl = s.gl := rfl
@[simp] theorem State.modHid_regs (s : State) (h : Nat) (f : Hid → Hid) : (s.modHid h f).regs = s.regs := rfl
@[simp] theorem State.modHid_cfg (s : State) (h : Nat) (f : Hid → Hid) : (s.modHid h f).cfg = s.cfg := rfl
@[simp] theorem State.modHid_hostPorts (s : State) (h : Nat) (f : Hid → Hid) : (s.modHid h f).hostPorts = s.hostPorts := rfl
@[simp] theorem State.modHid_hids (s : State) (h : Nat) (f : Hid → Hid) : (s.modHid h f).hids = s.hids.modify h f := rfl
@[simp] theorem State.modHid_agentPorts (s : State) (h : Nat) (f : Hid → Hid) : (s.modHid h f).agentPorts = s.agentPorts := rfl
@[simp] theorem State.modHid_slices (s : State) (h : Nat) (f : Hid → Hid) : (s.modHid h f).slices = s.slices := rfl
@[simp] theorem State.modHid_memPorts (s : State) (h : Nat) (f : Hid → Hid) : (s.modHid h f).memPorts = s.memPorts := rfl
@[simp] theorem State.modHid_cast (s : State) (h : Nat) (f : Hid → Hid) : (s.modHid h f).cast = s.cast := rfl
@[simp] theorem State.modHid_dir (s : State) (h : Nat) (f : Hid → Hid) : (s.modHid h f).dir = s.dir := rfl
@[simp] theorem State.modHid_dctl (s : State) (h : Nat) (f : Hid → Hid) : (s.modHid h f).dctl = s.dctl := rfl
@[simp] theorem State.modHid_root (s : State) (h : Nat) (f : Hid → Hid) : (s.modHid h f).root = s.root := rfl
@[simp] theorem State.modHid_eg (s : State) (h : Nat) (f : Hid → Hid) : (s.modHid h f).eg = s.eg := rfl
@[simp] theorem State.modHid_pwr (s : State) (h : Nat) (f : Hid → Hid) : (s.modHid h f).pwr = s.pwr := rfl
@[simp] theorem State.modHid_ld (s : State) (h : Nat) (f : Hid → Hid) : (s.modHid h f).ld = s.ld := rfl
@[simp] theorem State.modHid_fb (s : State) (h : Nat) (f : Hid → Hid) : (s.modHid h f).fb = s.fb := rfl
@[simp] theorem State.modHid_net (s : State) (h : Nat) (f : Hid → Hid) : (s.modHid h f).net = s.net := rfl
@[simp] theorem State.modHid_ring (s : State) (h : Nat) (f : Hid → Hid) : (s.modHid h f).ring = s.ring := rfl
@[simp] theorem State.modHid_ringSnoops (s : State) (h : Nat) (f : Hid → Hid) : (s.modHid h f).ringSnoops = s.ringSnoops := rfl
@[simp] theorem State.modHid_ev (s : State) (h : Nat) (f : Hid → Hid) : (s.modHid h f).ev = s.ev := rfl

/-! ### modAgentPort -/

@[simp] theorem State.modAgentPort_variant (s : State) (p : Nat) (f : AgentPort → AgentPort) :
    (s.modAgentPort p f).variant = s.variant := rfl
@[simp] theorem State.modAgentPort_pending (s : State) (p : Nat) (f : AgentPort → AgentPort) :
    (s.modAgentPort p f).pending = s.pending := rfl
@[simp] theorem State.modAgentPort_free (s : State) (p : Nat) (f : AgentPort → AgentPort) : (s.modAgentPort p f).free = s.free := rfl
@[simp] theorem State.modAgentPort_pins (s : State) (p : Nat) (f : AgentPort → AgentPort) : (s.modAgentPort p f).pins = s.pins := rfl
@[simp] theorem State.modAgentPort_gl (s : State) (p : Nat) (f : AgentPort → AgentPort) : (s.modAgentPort p f).gl = s.gl := rfl
@[simp] theorem State.modAgentPort_regs (s : State) (p : Nat) (f : AgentPort → AgentPort) : (s.modAgentPort p f).regs = s.regs := rfl
@[simp] theorem State.modAgentPort_cfg (s : State) (p : Nat) (f : AgentPort → AgentPort) : (s.modAgentPort p f).cfg = s.cfg := rfl
@[simp] theorem State.modAgentPort_hostPorts (s : State) (p : Nat) (f : AgentPort → AgentPort) :
    (s.modAgentPort p f).hostPorts = s.hostPorts := rfl
@[simp] theorem State.modAgentPort_hids (s : State) (p : Nat) (f : AgentPort → AgentPort) : (s.modAgentPort p f).hids = s.hids := rfl
@[simp] theorem State.modAgentPort_agentPorts (s : State) (p : Nat) (f : AgentPort → AgentPort) :
    (s.modAgentPort p f).agentPorts = s.agentPorts.modify p f := rfl
@[simp] theorem State.modAgentPort_slices (s : State) (p : Nat) (f : AgentPort → AgentPort) :
    (s.modAgentPort p f).slices = s.slices := rfl
@[simp] theorem State.modAgentPort_memPorts (s : State) (p : Nat) (f : AgentPort → AgentPort) :
    (s.modAgentPort p f).memPorts = s.memPorts := rfl
@[simp] theorem State.modAgentPort_cast (s : State) (p : Nat) (f : AgentPort → AgentPort) : (s.modAgentPort p f).cast = s.cast := rfl
@[simp] theorem State.modAgentPort_dir (s : State) (p : Nat) (f : AgentPort → AgentPort) : (s.modAgentPort p f).dir = s.dir := rfl
@[simp] theorem State.modAgentPort_dctl (s : State) (p : Nat) (f : AgentPort → AgentPort) : (s.modAgentPort p f).dctl = s.dctl := rfl
@[simp] theorem State.modAgentPort_root (s : State) (p : Nat) (f : AgentPort → AgentPort) : (s.modAgentPort p f).root = s.root := rfl
@[simp] theorem State.modAgentPort_eg (s : State) (p : Nat) (f : AgentPort → AgentPort) : (s.modAgentPort p f).eg = s.eg := rfl
@[simp] theorem State.modAgentPort_pwr (s : State) (p : Nat) (f : AgentPort → AgentPort) : (s.modAgentPort p f).pwr = s.pwr := rfl
@[simp] theorem State.modAgentPort_ld (s : State) (p : Nat) (f : AgentPort → AgentPort) : (s.modAgentPort p f).ld = s.ld := rfl
@[simp] theorem State.modAgentPort_fb (s : State) (p : Nat) (f : AgentPort → AgentPort) : (s.modAgentPort p f).fb = s.fb := rfl
@[simp] theorem State.modAgentPort_net (s : State) (p : Nat) (f : AgentPort → AgentPort) : (s.modAgentPort p f).net = s.net := rfl
@[simp] theorem State.modAgentPort_ring (s : State) (p : Nat) (f : AgentPort → AgentPort) : (s.modAgentPort p f).ring = s.ring := rfl
@[simp] theorem State.modAgentPort_ringSnoops (s : State) (p : Nat) (f : AgentPort → AgentPort) :
    (s.modAgentPort p f).ringSnoops = s.ringSnoops := rfl
@[simp] theorem State.modAgentPort_ev (s : State) (p : Nat) (f : AgentPort → AgentPort) : (s.modAgentPort p f).ev = s.ev := rfl

/-! ### modMemPort -/

@[simp] theorem State.modMemPort_variant (s : State) (p : Nat) (f : MemPort → MemPort) : (s.modMemPort p f).variant = s.variant := rfl
@[simp] theorem State.modMemPort_pending (s : State) (p : Nat) (f : MemPort → MemPort) : (s.modMemPort p f).pending = s.pending := rfl
@[simp] theorem State.modMemPort_free (s : State) (p : Nat) (f : MemPort → MemPort) : (s.modMemPort p f).free = s.free := rfl
@[simp] theorem State.modMemPort_pins (s : State) (p : Nat) (f : MemPort → MemPort) : (s.modMemPort p f).pins = s.pins := rfl
@[simp] theorem State.modMemPort_gl (s : State) (p : Nat) (f : MemPort → MemPort) : (s.modMemPort p f).gl = s.gl := rfl
@[simp] theorem State.modMemPort_regs (s : State) (p : Nat) (f : MemPort → MemPort) : (s.modMemPort p f).regs = s.regs := rfl
@[simp] theorem State.modMemPort_cfg (s : State) (p : Nat) (f : MemPort → MemPort) : (s.modMemPort p f).cfg = s.cfg := rfl
@[simp] theorem State.modMemPort_hostPorts (s : State) (p : Nat) (f : MemPort → MemPort) :
    (s.modMemPort p f).hostPorts = s.hostPorts := rfl
@[simp] theorem State.modMemPort_hids (s : State) (p : Nat) (f : MemPort → MemPort) : (s.modMemPort p f).hids = s.hids := rfl
@[simp] theorem State.modMemPort_agentPorts (s : State) (p : Nat) (f : MemPort → MemPort) :
    (s.modMemPort p f).agentPorts = s.agentPorts := rfl
@[simp] theorem State.modMemPort_slices (s : State) (p : Nat) (f : MemPort → MemPort) : (s.modMemPort p f).slices = s.slices := rfl
@[simp] theorem State.modMemPort_memPorts (s : State) (p : Nat) (f : MemPort → MemPort) :
    (s.modMemPort p f).memPorts = s.memPorts.modify p f := rfl
@[simp] theorem State.modMemPort_cast (s : State) (p : Nat) (f : MemPort → MemPort) : (s.modMemPort p f).cast = s.cast := rfl
@[simp] theorem State.modMemPort_dir (s : State) (p : Nat) (f : MemPort → MemPort) : (s.modMemPort p f).dir = s.dir := rfl
@[simp] theorem State.modMemPort_dctl (s : State) (p : Nat) (f : MemPort → MemPort) : (s.modMemPort p f).dctl = s.dctl := rfl
@[simp] theorem State.modMemPort_root (s : State) (p : Nat) (f : MemPort → MemPort) : (s.modMemPort p f).root = s.root := rfl
@[simp] theorem State.modMemPort_eg (s : State) (p : Nat) (f : MemPort → MemPort) : (s.modMemPort p f).eg = s.eg := rfl
@[simp] theorem State.modMemPort_pwr (s : State) (p : Nat) (f : MemPort → MemPort) : (s.modMemPort p f).pwr = s.pwr := rfl
@[simp] theorem State.modMemPort_ld (s : State) (p : Nat) (f : MemPort → MemPort) : (s.modMemPort p f).ld = s.ld := rfl
@[simp] theorem State.modMemPort_fb (s : State) (p : Nat) (f : MemPort → MemPort) : (s.modMemPort p f).fb = s.fb := rfl
@[simp] theorem State.modMemPort_net (s : State) (p : Nat) (f : MemPort → MemPort) : (s.modMemPort p f).net = s.net := rfl
@[simp] theorem State.modMemPort_ring (s : State) (p : Nat) (f : MemPort → MemPort) : (s.modMemPort p f).ring = s.ring := rfl
@[simp] theorem State.modMemPort_ringSnoops (s : State) (p : Nat) (f : MemPort → MemPort) :
    (s.modMemPort p f).ringSnoops = s.ringSnoops := rfl
@[simp] theorem State.modMemPort_ev (s : State) (p : Nat) (f : MemPort → MemPort) : (s.modMemPort p f).ev = s.ev := rfl

/-! ### meshSend -/

@[simp] theorem State.meshSend_variant (s : State) (m : MeshMsg) : (s.meshSend m).variant = s.variant := rfl
@[simp] theorem State.meshSend_pending (s : State) (m : MeshMsg) : (s.meshSend m).pending = s.pending := rfl
@[simp] theorem State.meshSend_free (s : State) (m : MeshMsg) : (s.meshSend m).free = s.free := rfl
@[simp] theorem State.meshSend_pins (s : State) (m : MeshMsg) : (s.meshSend m).pins = s.pins := rfl
@[simp] theorem State.meshSend_gl (s : State) (m : MeshMsg) : (s.meshSend m).gl = s.gl := rfl
@[simp] theorem State.meshSend_regs (s : State) (m : MeshMsg) : (s.meshSend m).regs = s.regs := rfl
@[simp] theorem State.meshSend_cfg (s : State) (m : MeshMsg) : (s.meshSend m).cfg = s.cfg := rfl
@[simp] theorem State.meshSend_hostPorts (s : State) (m : MeshMsg) : (s.meshSend m).hostPorts = s.hostPorts := rfl
@[simp] theorem State.meshSend_hids (s : State) (m : MeshMsg) : (s.meshSend m).hids = s.hids := rfl
@[simp] theorem State.meshSend_agentPorts (s : State) (m : MeshMsg) : (s.meshSend m).agentPorts = s.agentPorts := rfl
@[simp] theorem State.meshSend_slices (s : State) (m : MeshMsg) : (s.meshSend m).slices = s.slices := rfl
@[simp] theorem State.meshSend_memPorts (s : State) (m : MeshMsg) : (s.meshSend m).memPorts = s.memPorts := rfl
@[simp] theorem State.meshSend_cast (s : State) (m : MeshMsg) : (s.meshSend m).cast = s.cast := rfl
@[simp] theorem State.meshSend_dir (s : State) (m : MeshMsg) : (s.meshSend m).dir = s.dir := rfl
@[simp] theorem State.meshSend_dctl (s : State) (m : MeshMsg) : (s.meshSend m).dctl = s.dctl := rfl
@[simp] theorem State.meshSend_root (s : State) (m : MeshMsg) : (s.meshSend m).root = s.root := rfl
@[simp] theorem State.meshSend_eg (s : State) (m : MeshMsg) : (s.meshSend m).eg = s.eg := rfl
@[simp] theorem State.meshSend_pwr (s : State) (m : MeshMsg) : (s.meshSend m).pwr = s.pwr := rfl
@[simp] theorem State.meshSend_ld (s : State) (m : MeshMsg) : (s.meshSend m).ld = s.ld := rfl
@[simp] theorem State.meshSend_net (s : State) (m : MeshMsg) : (s.meshSend m).net = s.net := rfl
@[simp] theorem State.meshSend_ring (s : State) (m : MeshMsg) : (s.meshSend m).ring = s.ring := rfl
@[simp] theorem State.meshSend_ringSnoops (s : State) (m : MeshMsg) : (s.meshSend m).ringSnoops = s.ringSnoops := rfl
@[simp] theorem State.meshSend_ev (s : State) (m : MeshMsg) : (s.meshSend m).ev = s.ev := rfl

/-! ### meshData -/

@[simp] theorem State.meshData_variant (s : State) (m : MeshMsg) (po : Bool) : (s.meshData m po).variant = s.variant := rfl
@[simp] theorem State.meshData_pending (s : State) (m : MeshMsg) (po : Bool) : (s.meshData m po).pending = s.pending := rfl
@[simp] theorem State.meshData_free (s : State) (m : MeshMsg) (po : Bool) : (s.meshData m po).free = s.free := rfl
@[simp] theorem State.meshData_pins (s : State) (m : MeshMsg) (po : Bool) : (s.meshData m po).pins = s.pins := rfl
@[simp] theorem State.meshData_gl (s : State) (m : MeshMsg) (po : Bool) : (s.meshData m po).gl = s.gl := rfl
@[simp] theorem State.meshData_regs (s : State) (m : MeshMsg) (po : Bool) : (s.meshData m po).regs = s.regs := rfl
@[simp] theorem State.meshData_cfg (s : State) (m : MeshMsg) (po : Bool) : (s.meshData m po).cfg = s.cfg := rfl
@[simp] theorem State.meshData_hostPorts (s : State) (m : MeshMsg) (po : Bool) : (s.meshData m po).hostPorts = s.hostPorts := rfl
@[simp] theorem State.meshData_hids (s : State) (m : MeshMsg) (po : Bool) : (s.meshData m po).hids = s.hids := rfl
@[simp] theorem State.meshData_agentPorts (s : State) (m : MeshMsg) (po : Bool) : (s.meshData m po).agentPorts = s.agentPorts := rfl
@[simp] theorem State.meshData_slices (s : State) (m : MeshMsg) (po : Bool) : (s.meshData m po).slices = s.slices := rfl
@[simp] theorem State.meshData_memPorts (s : State) (m : MeshMsg) (po : Bool) : (s.meshData m po).memPorts = s.memPorts := rfl
@[simp] theorem State.meshData_cast (s : State) (m : MeshMsg) (po : Bool) : (s.meshData m po).cast = s.cast := rfl
@[simp] theorem State.meshData_dir (s : State) (m : MeshMsg) (po : Bool) : (s.meshData m po).dir = s.dir := rfl
@[simp] theorem State.meshData_dctl (s : State) (m : MeshMsg) (po : Bool) : (s.meshData m po).dctl = s.dctl := rfl
@[simp] theorem State.meshData_root (s : State) (m : MeshMsg) (po : Bool) : (s.meshData m po).root = s.root := rfl
@[simp] theorem State.meshData_eg (s : State) (m : MeshMsg) (po : Bool) : (s.meshData m po).eg = s.eg := rfl
@[simp] theorem State.meshData_pwr (s : State) (m : MeshMsg) (po : Bool) : (s.meshData m po).pwr = s.pwr := rfl
@[simp] theorem State.meshData_ld (s : State) (m : MeshMsg) (po : Bool) : (s.meshData m po).ld = s.ld := rfl
@[simp] theorem State.meshData_net (s : State) (m : MeshMsg) (po : Bool) : (s.meshData m po).net = s.net := rfl
@[simp] theorem State.meshData_ring (s : State) (m : MeshMsg) (po : Bool) : (s.meshData m po).ring = s.ring := rfl
@[simp] theorem State.meshData_ringSnoops (s : State) (m : MeshMsg) (po : Bool) : (s.meshData m po).ringSnoops = s.ringSnoops := rfl
@[simp] theorem State.meshData_ev (s : State) (m : MeshMsg) (po : Bool) : (s.meshData m po).ev = s.ev := rfl

/-! ### meshMove -/

/-- What a run of the mesh leaves alone: everything but the fabric (R441, R448). -/
theorem State.meshRun_only_fb (n : Nat) (s : State) : State.meshRun n s = { s with fb := (State.meshRun n s).fb } := by
  induction n generalizing s with
  | zero => rfl
  | succ n ih => unfold State.meshRun; split; · rfl
                 · exact (ih _).trans rfl

/-- The mesh of a move changes nothing but the fabric. -/
theorem State.meshMove_only_fb (s : State) : s.meshMove = { s with fb := s.meshMove.fb } := by
  unfold State.meshMove; split; · rfl
  · exact State.meshRun_only_fb _ _

@[simp] theorem State.meshMove_variant (s : State) : (s.meshMove).variant = s.variant := by rw [State.meshMove_only_fb]
@[simp] theorem State.meshMove_pending (s : State) : (s.meshMove).pending = s.pending := by rw [State.meshMove_only_fb]
@[simp] theorem State.meshMove_free (s : State) : (s.meshMove).free = s.free := by rw [State.meshMove_only_fb]
@[simp] theorem State.meshMove_pins (s : State) : (s.meshMove).pins = s.pins := by rw [State.meshMove_only_fb]
@[simp] theorem State.meshMove_gl (s : State) : (s.meshMove).gl = s.gl := by rw [State.meshMove_only_fb]
@[simp] theorem State.meshMove_regs (s : State) : (s.meshMove).regs = s.regs := by rw [State.meshMove_only_fb]
@[simp] theorem State.meshMove_cfg (s : State) : (s.meshMove).cfg = s.cfg := by rw [State.meshMove_only_fb]
@[simp] theorem State.meshMove_hostPorts (s : State) : (s.meshMove).hostPorts = s.hostPorts := by rw [State.meshMove_only_fb]
@[simp] theorem State.meshMove_hids (s : State) : (s.meshMove).hids = s.hids := by rw [State.meshMove_only_fb]
@[simp] theorem State.meshMove_agentPorts (s : State) : (s.meshMove).agentPorts = s.agentPorts := by rw [State.meshMove_only_fb]
@[simp] theorem State.meshMove_slices (s : State) : (s.meshMove).slices = s.slices := by rw [State.meshMove_only_fb]
@[simp] theorem State.meshMove_memPorts (s : State) : (s.meshMove).memPorts = s.memPorts := by rw [State.meshMove_only_fb]
@[simp] theorem State.meshMove_cast (s : State) : (s.meshMove).cast = s.cast := by rw [State.meshMove_only_fb]
@[simp] theorem State.meshMove_dir (s : State) : (s.meshMove).dir = s.dir := by rw [State.meshMove_only_fb]
@[simp] theorem State.meshMove_dctl (s : State) : (s.meshMove).dctl = s.dctl := by rw [State.meshMove_only_fb]
@[simp] theorem State.meshMove_root (s : State) : (s.meshMove).root = s.root := by rw [State.meshMove_only_fb]
@[simp] theorem State.meshMove_eg (s : State) : (s.meshMove).eg = s.eg := by rw [State.meshMove_only_fb]
@[simp] theorem State.meshMove_pwr (s : State) : (s.meshMove).pwr = s.pwr := by rw [State.meshMove_only_fb]
@[simp] theorem State.meshMove_ld (s : State) : (s.meshMove).ld = s.ld := by rw [State.meshMove_only_fb]
@[simp] theorem State.meshMove_net (s : State) : (s.meshMove).net = s.net := by rw [State.meshMove_only_fb]
@[simp] theorem State.meshMove_ring (s : State) : (s.meshMove).ring = s.ring := by rw [State.meshMove_only_fb]
@[simp] theorem State.meshMove_ringSnoops (s : State) : (s.meshMove).ringSnoops = s.ringSnoops := by rw [State.meshMove_only_fb]
@[simp] theorem State.meshMove_ev (s : State) : (s.meshMove).ev = s.ev := by rw [State.meshMove_only_fb]

/-! ### send -/

@[simp] theorem State.send_variant (s : State) (m : NMsg) : (s.send m).variant = s.variant := rfl
@[simp] theorem State.send_pending (s : State) (m : NMsg) : (s.send m).pending = s.pending := rfl
@[simp] theorem State.send_free (s : State) (m : NMsg) : (s.send m).free = s.free := rfl
@[simp] theorem State.send_pins (s : State) (m : NMsg) : (s.send m).pins = s.pins := rfl
@[simp] theorem State.send_gl (s : State) (m : NMsg) : (s.send m).gl = s.gl := rfl
@[simp] theorem State.send_regs (s : State) (m : NMsg) : (s.send m).regs = s.regs := rfl
@[simp] theorem State.send_cfg (s : State) (m : NMsg) : (s.send m).cfg = s.cfg := rfl
@[simp] theorem State.send_hostPorts (s : State) (m : NMsg) : (s.send m).hostPorts = s.hostPorts := rfl
@[simp] theorem State.send_hids (s : State) (m : NMsg) : (s.send m).hids = s.hids := rfl
@[simp] theorem State.send_agentPorts (s : State) (m : NMsg) : (s.send m).agentPorts = s.agentPorts := rfl
@[simp] theorem State.send_slices (s : State) (m : NMsg) : (s.send m).slices = s.slices := rfl
@[simp] theorem State.send_memPorts (s : State) (m : NMsg) : (s.send m).memPorts = s.memPorts := rfl
@[simp] theorem State.send_cast (s : State) (m : NMsg) : (s.send m).cast = s.cast := rfl
@[simp] theorem State.send_dir (s : State) (m : NMsg) : (s.send m).dir = s.dir := rfl
@[simp] theorem State.send_dctl (s : State) (m : NMsg) : (s.send m).dctl = s.dctl := rfl
@[simp] theorem State.send_root (s : State) (m : NMsg) : (s.send m).root = s.root := rfl
@[simp] theorem State.send_eg (s : State) (m : NMsg) : (s.send m).eg = s.eg := rfl
@[simp] theorem State.send_pwr (s : State) (m : NMsg) : (s.send m).pwr = s.pwr := rfl
@[simp] theorem State.send_ld (s : State) (m : NMsg) : (s.send m).ld = s.ld := rfl
@[simp] theorem State.send_net (s : State) (m : NMsg) : (s.send m).net = s.net ++ [m] := rfl
@[simp] theorem State.send_ring (s : State) (m : NMsg) : (s.send m).ring = s.ring := rfl
@[simp] theorem State.send_ringSnoops (s : State) (m : NMsg) : (s.send m).ringSnoops = s.ringSnoops := rfl
@[simp] theorem State.send_ev (s : State) (m : NMsg) : (s.send m).ev = s.ev := rfl

/-! ### takeMsg -/

@[simp] theorem State.takeMsg_variant (s : State) (m : NMsg) : (s.takeMsg m).variant = s.variant := rfl
@[simp] theorem State.takeMsg_pending (s : State) (m : NMsg) : (s.takeMsg m).pending = s.pending := rfl
@[simp] theorem State.takeMsg_free (s : State) (m : NMsg) : (s.takeMsg m).free = s.free := rfl
@[simp] theorem State.takeMsg_pins (s : State) (m : NMsg) : (s.takeMsg m).pins = s.pins := rfl
@[simp] theorem State.takeMsg_gl (s : State) (m : NMsg) : (s.takeMsg m).gl = s.gl := rfl
@[simp] theorem State.takeMsg_regs (s : State) (m : NMsg) : (s.takeMsg m).regs = s.regs := rfl
@[simp] theorem State.takeMsg_cfg (s : State) (m : NMsg) : (s.takeMsg m).cfg = s.cfg := rfl
@[simp] theorem State.takeMsg_hostPorts (s : State) (m : NMsg) : (s.takeMsg m).hostPorts = s.hostPorts := rfl
@[simp] theorem State.takeMsg_hids (s : State) (m : NMsg) : (s.takeMsg m).hids = s.hids := rfl
@[simp] theorem State.takeMsg_agentPorts (s : State) (m : NMsg) : (s.takeMsg m).agentPorts = s.agentPorts := rfl
@[simp] theorem State.takeMsg_slices (s : State) (m : NMsg) : (s.takeMsg m).slices = s.slices := rfl
@[simp] theorem State.takeMsg_memPorts (s : State) (m : NMsg) : (s.takeMsg m).memPorts = s.memPorts := rfl
@[simp] theorem State.takeMsg_cast (s : State) (m : NMsg) : (s.takeMsg m).cast = s.cast := rfl
@[simp] theorem State.takeMsg_dir (s : State) (m : NMsg) : (s.takeMsg m).dir = s.dir := rfl
@[simp] theorem State.takeMsg_dctl (s : State) (m : NMsg) : (s.takeMsg m).dctl = s.dctl := rfl
@[simp] theorem State.takeMsg_root (s : State) (m : NMsg) : (s.takeMsg m).root = s.root := rfl
@[simp] theorem State.takeMsg_eg (s : State) (m : NMsg) : (s.takeMsg m).eg = s.eg := rfl
@[simp] theorem State.takeMsg_pwr (s : State) (m : NMsg) : (s.takeMsg m).pwr = s.pwr := rfl
@[simp] theorem State.takeMsg_ld (s : State) (m : NMsg) : (s.takeMsg m).ld = s.ld := rfl
@[simp] theorem State.takeMsg_fb (s : State) (m : NMsg) : (s.takeMsg m).fb = s.fb := rfl
@[simp] theorem State.takeMsg_ring (s : State) (m : NMsg) : (s.takeMsg m).ring = s.ring := rfl
@[simp] theorem State.takeMsg_ringSnoops (s : State) (m : NMsg) : (s.takeMsg m).ringSnoops = s.ringSnoops := rfl
@[simp] theorem State.takeMsg_ev (s : State) (m : NMsg) : (s.takeMsg m).ev = s.ev := rfl

/-! ### logEv -/

@[simp] theorem State.logEv_variant (s : State) (code sev src unit : Nat) (detail : W64) :
    (s.logEv code sev src unit detail).variant = s.variant := rfl
@[simp] theorem State.logEv_pending (s : State) (code sev src unit : Nat) (detail : W64) :
    (s.logEv code sev src unit detail).pending = s.pending := rfl
@[simp] theorem State.logEv_free (s : State) (code sev src unit : Nat) (detail : W64) :
    (s.logEv code sev src unit detail).free = s.free := rfl
@[simp] theorem State.logEv_pins (s : State) (code sev src unit : Nat) (detail : W64) :
    (s.logEv code sev src unit detail).pins = s.pins := rfl
@[simp] theorem State.logEv_gl (s : State) (code sev src unit : Nat) (detail : W64) :
    (s.logEv code sev src unit detail).gl = s.gl := rfl
@[simp] theorem State.logEv_regs (s : State) (code sev src unit : Nat) (detail : W64) :
    (s.logEv code sev src unit detail).regs = s.regs := rfl
@[simp] theorem State.logEv_cfg (s : State) (code sev src unit : Nat) (detail : W64) :
    (s.logEv code sev src unit detail).cfg = s.cfg := rfl
@[simp] theorem State.logEv_hostPorts (s : State) (code sev src unit : Nat) (detail : W64) :
    (s.logEv code sev src unit detail).hostPorts = s.hostPorts := rfl
@[simp] theorem State.logEv_hids (s : State) (code sev src unit : Nat) (detail : W64) :
    (s.logEv code sev src unit detail).hids = s.hids := rfl
@[simp] theorem State.logEv_agentPorts (s : State) (code sev src unit : Nat) (detail : W64) :
    (s.logEv code sev src unit detail).agentPorts = s.agentPorts := rfl
@[simp] theorem State.logEv_slices (s : State) (code sev src unit : Nat) (detail : W64) :
    (s.logEv code sev src unit detail).slices = s.slices := rfl
@[simp] theorem State.logEv_memPorts (s : State) (code sev src unit : Nat) (detail : W64) :
    (s.logEv code sev src unit detail).memPorts = s.memPorts := rfl
@[simp] theorem State.logEv_cast (s : State) (code sev src unit : Nat) (detail : W64) :
    (s.logEv code sev src unit detail).cast = s.cast := rfl
@[simp] theorem State.logEv_dir (s : State) (code sev src unit : Nat) (detail : W64) :
    (s.logEv code sev src unit detail).dir = s.dir := rfl
@[simp] theorem State.logEv_dctl (s : State) (code sev src unit : Nat) (detail : W64) :
    (s.logEv code sev src unit detail).dctl = s.dctl := rfl
@[simp] theorem State.logEv_root (s : State) (code sev src unit : Nat) (detail : W64) :
    (s.logEv code sev src unit detail).root = s.root := rfl
@[simp] theorem State.logEv_eg (s : State) (code sev src unit : Nat) (detail : W64) :
    (s.logEv code sev src unit detail).eg = s.eg := rfl
@[simp] theorem State.logEv_pwr (s : State) (code sev src unit : Nat) (detail : W64) :
    (s.logEv code sev src unit detail).pwr = s.pwr := rfl
@[simp] theorem State.logEv_ld (s : State) (code sev src unit : Nat) (detail : W64) :
    (s.logEv code sev src unit detail).ld = s.ld := rfl
@[simp] theorem State.logEv_fb (s : State) (code sev src unit : Nat) (detail : W64) :
    (s.logEv code sev src unit detail).fb = s.fb := rfl
@[simp] theorem State.logEv_net (s : State) (code sev src unit : Nat) (detail : W64) :
    (s.logEv code sev src unit detail).net = s.net := rfl
@[simp] theorem State.logEv_ring (s : State) (code sev src unit : Nat) (detail : W64) :
    (s.logEv code sev src unit detail).ring = s.ring := rfl
@[simp] theorem State.logEv_ringSnoops (s : State) (code sev src unit : Nat) (detail : W64) :
    (s.logEv code sev src unit detail).ringSnoops = s.ringSnoops := rfl

/-! ### count -/

@[simp] theorem State.count_variant (s : State) (p ev : Nat) (c : Option Cls) (n : Nat) : (s.count p ev c n).variant = s.variant := rfl
@[simp] theorem State.count_pending (s : State) (p ev : Nat) (c : Option Cls) (n : Nat) : (s.count p ev c n).pending = s.pending := rfl
@[simp] theorem State.count_free (s : State) (p ev : Nat) (c : Option Cls) (n : Nat) : (s.count p ev c n).free = s.free := rfl
@[simp] theorem State.count_pins (s : State) (p ev : Nat) (c : Option Cls) (n : Nat) : (s.count p ev c n).pins = s.pins := rfl
@[simp] theorem State.count_gl (s : State) (p ev : Nat) (c : Option Cls) (n : Nat) : (s.count p ev c n).gl = s.gl := rfl
@[simp] theorem State.count_regs (s : State) (p ev : Nat) (c : Option Cls) (n : Nat) : (s.count p ev c n).regs = s.regs := rfl
@[simp] theorem State.count_cfg (s : State) (p ev : Nat) (c : Option Cls) (n : Nat) : (s.count p ev c n).cfg = s.cfg := rfl
@[simp] theorem State.count_hostPorts (s : State) (p ev : Nat) (c : Option Cls) (n : Nat) :
    (s.count p ev c n).hostPorts = s.hostPorts := rfl
@[simp] theorem State.count_hids (s : State) (p ev : Nat) (c : Option Cls) (n : Nat) : (s.count p ev c n).hids = s.hids := rfl
@[simp] theorem State.count_agentPorts (s : State) (p ev : Nat) (c : Option Cls) (n : Nat) :
    (s.count p ev c n).agentPorts = s.agentPorts := rfl
@[simp] theorem State.count_memPorts (s : State) (p ev : Nat) (c : Option Cls) (n : Nat) :
    (s.count p ev c n).memPorts = s.memPorts := rfl
@[simp] theorem State.count_cast (s : State) (p ev : Nat) (c : Option Cls) (n : Nat) : (s.count p ev c n).cast = s.cast := rfl
@[simp] theorem State.count_dir (s : State) (p ev : Nat) (c : Option Cls) (n : Nat) : (s.count p ev c n).dir = s.dir := rfl
@[simp] theorem State.count_dctl (s : State) (p ev : Nat) (c : Option Cls) (n : Nat) : (s.count p ev c n).dctl = s.dctl := rfl
@[simp] theorem State.count_root (s : State) (p ev : Nat) (c : Option Cls) (n : Nat) : (s.count p ev c n).root = s.root := rfl
@[simp] theorem State.count_eg (s : State) (p ev : Nat) (c : Option Cls) (n : Nat) : (s.count p ev c n).eg = s.eg := rfl
@[simp] theorem State.count_pwr (s : State) (p ev : Nat) (c : Option Cls) (n : Nat) : (s.count p ev c n).pwr = s.pwr := rfl
@[simp] theorem State.count_ld (s : State) (p ev : Nat) (c : Option Cls) (n : Nat) : (s.count p ev c n).ld = s.ld := rfl
@[simp] theorem State.count_fb (s : State) (p ev : Nat) (c : Option Cls) (n : Nat) : (s.count p ev c n).fb = s.fb := rfl
@[simp] theorem State.count_net (s : State) (p ev : Nat) (c : Option Cls) (n : Nat) : (s.count p ev c n).net = s.net := rfl
@[simp] theorem State.count_ring (s : State) (p ev : Nat) (c : Option Cls) (n : Nat) : (s.count p ev c n).ring = s.ring := rfl
@[simp] theorem State.count_ringSnoops (s : State) (p ev : Nat) (c : Option Cls) (n : Nat) :
    (s.count p ev c n).ringSnoops = s.ringSnoops := rfl
@[simp] theorem State.count_ev (s : State) (p ev : Nat) (c : Option Cls) (n : Nat) : (s.count p ev c n).ev = s.ev := rfl

/-! ### memSubmit -/

@[simp] theorem State.memSubmit_variant (s : State) (c : MemCmd) :
    (s.memSubmit c).variant = s.variant := by unfold State.memSubmit; dsimp only; split <;> rfl
@[simp] theorem State.memSubmit_pending (s : State) (c : MemCmd) :
    (s.memSubmit c).pending = s.pending := by unfold State.memSubmit; dsimp only; split <;> rfl
@[simp] theorem State.memSubmit_free (s : State) (c : MemCmd) :
    (s.memSubmit c).free = s.free := by unfold State.memSubmit; dsimp only; split <;> rfl
@[simp] theorem State.memSubmit_pins (s : State) (c : MemCmd) :
    (s.memSubmit c).pins = s.pins := by unfold State.memSubmit; dsimp only; split <;> rfl
@[simp] theorem State.memSubmit_gl (s : State) (c : MemCmd) :
    (s.memSubmit c).gl = s.gl := by unfold State.memSubmit; dsimp only; split <;> rfl
@[simp] theorem State.memSubmit_regs (s : State) (c : MemCmd) :
    (s.memSubmit c).regs = s.regs := by unfold State.memSubmit; dsimp only; split <;> rfl
@[simp] theorem State.memSubmit_cfg (s : State) (c : MemCmd) :
    (s.memSubmit c).cfg = s.cfg := by unfold State.memSubmit; dsimp only; split <;> rfl
@[simp] theorem State.memSubmit_hostPorts (s : State) (c : MemCmd) :
    (s.memSubmit c).hostPorts = s.hostPorts := by unfold State.memSubmit; dsimp only; split <;> rfl
@[simp] theorem State.memSubmit_hids (s : State) (c : MemCmd) :
    (s.memSubmit c).hids = s.hids := by unfold State.memSubmit; dsimp only; split <;> rfl
@[simp] theorem State.memSubmit_agentPorts (s : State) (c : MemCmd) :
    (s.memSubmit c).agentPorts = s.agentPorts := by unfold State.memSubmit; dsimp only; split <;> rfl
@[simp] theorem State.memSubmit_slices (s : State) (c : MemCmd) :
    (s.memSubmit c).slices = s.slices := by unfold State.memSubmit; dsimp only; split <;> rfl
@[simp] theorem State.memSubmit_cast (s : State) (c : MemCmd) :
    (s.memSubmit c).cast = s.cast := by unfold State.memSubmit; dsimp only; split <;> rfl
@[simp] theorem State.memSubmit_dir (s : State) (c : MemCmd) :
    (s.memSubmit c).dir = s.dir := by unfold State.memSubmit; dsimp only; split <;> rfl
@[simp] theorem State.memSubmit_dctl (s : State) (c : MemCmd) :
    (s.memSubmit c).dctl = s.dctl := by unfold State.memSubmit; dsimp only; split <;> rfl
@[simp] theorem State.memSubmit_root (s : State) (c : MemCmd) :
    (s.memSubmit c).root = s.root := by unfold State.memSubmit; dsimp only; split <;> rfl
@[simp] theorem State.memSubmit_eg (s : State) (c : MemCmd) :
    (s.memSubmit c).eg = s.eg := by unfold State.memSubmit; dsimp only; split <;> rfl
@[simp] theorem State.memSubmit_pwr (s : State) (c : MemCmd) :
    (s.memSubmit c).pwr = s.pwr := by unfold State.memSubmit; dsimp only; split <;> rfl
@[simp] theorem State.memSubmit_ld (s : State) (c : MemCmd) :
    (s.memSubmit c).ld = s.ld := by unfold State.memSubmit; dsimp only; split <;> rfl
@[simp] theorem State.memSubmit_net (s : State) (c : MemCmd) :
    (s.memSubmit c).net = s.net := by unfold State.memSubmit; dsimp only; split <;> rfl
@[simp] theorem State.memSubmit_ring (s : State) (c : MemCmd) :
    (s.memSubmit c).ring = s.ring := by unfold State.memSubmit; dsimp only; split <;> rfl
@[simp] theorem State.memSubmit_ringSnoops (s : State) (c : MemCmd) :
    (s.memSubmit c).ringSnoops = s.ringSnoops := by unfold State.memSubmit; dsimp only; split <;> rfl
@[simp] theorem State.memSubmit_ev (s : State) (c : MemCmd) :
    (s.memSubmit c).ev = s.ev := by unfold State.memSubmit; dsimp only; split <;> rfl

/-! ### memFree -/

@[simp] theorem State.memFree_variant (s : State) (m tag : Nat) : (s.memFree m tag).variant = s.variant := rfl
@[simp] theorem State.memFree_pending (s : State) (m tag : Nat) : (s.memFree m tag).pending = s.pending := rfl
@[simp] theorem State.memFree_free (s : State) (m tag : Nat) : (s.memFree m tag).free = s.free := rfl
@[simp] theorem State.memFree_pins (s : State) (m tag : Nat) : (s.memFree m tag).pins = s.pins := rfl
@[simp] theorem State.memFree_gl (s : State) (m tag : Nat) : (s.memFree m tag).gl = s.gl := rfl
@[simp] theorem State.memFree_regs (s : State) (m tag : Nat) : (s.memFree m tag).regs = s.regs := rfl
@[simp] theorem State.memFree_cfg (s : State) (m tag : Nat) : (s.memFree m tag).cfg = s.cfg := rfl
@[simp] theorem State.memFree_hostPorts (s : State) (m tag : Nat) : (s.memFree m tag).hostPorts = s.hostPorts := rfl
@[simp] theorem State.memFree_hids (s : State) (m tag : Nat) : (s.memFree m tag).hids = s.hids := rfl
@[simp] theorem State.memFree_agentPorts (s : State) (m tag : Nat) : (s.memFree m tag).agentPorts = s.agentPorts := rfl
@[simp] theorem State.memFree_slices (s : State) (m tag : Nat) : (s.memFree m tag).slices = s.slices := rfl
@[simp] theorem State.memFree_cast (s : State) (m tag : Nat) : (s.memFree m tag).cast = s.cast := rfl
@[simp] theorem State.memFree_dir (s : State) (m tag : Nat) : (s.memFree m tag).dir = s.dir := rfl
@[simp] theorem State.memFree_dctl (s : State) (m tag : Nat) : (s.memFree m tag).dctl = s.dctl := rfl
@[simp] theorem State.memFree_root (s : State) (m tag : Nat) : (s.memFree m tag).root = s.root := rfl
@[simp] theorem State.memFree_eg (s : State) (m tag : Nat) : (s.memFree m tag).eg = s.eg := rfl
@[simp] theorem State.memFree_pwr (s : State) (m tag : Nat) : (s.memFree m tag).pwr = s.pwr := rfl
@[simp] theorem State.memFree_ld (s : State) (m tag : Nat) : (s.memFree m tag).ld = s.ld := rfl
@[simp] theorem State.memFree_fb (s : State) (m tag : Nat) : (s.memFree m tag).fb = s.fb := rfl
@[simp] theorem State.memFree_net (s : State) (m tag : Nat) : (s.memFree m tag).net = s.net := rfl
@[simp] theorem State.memFree_ring (s : State) (m tag : Nat) : (s.memFree m tag).ring = s.ring := rfl
@[simp] theorem State.memFree_ringSnoops (s : State) (m tag : Nat) : (s.memFree m tag).ringSnoops = s.ringSnoops := rfl
@[simp] theorem State.memFree_ev (s : State) (m tag : Nat) : (s.memFree m tag).ev = s.ev := rfl

/-! ### setBucket -/

@[simp] theorem State.setBucket_variant (s : State) (n : Nat) (b : Line) : (s.setBucket n b).variant = s.variant := rfl
@[simp] theorem State.setBucket_pending (s : State) (n : Nat) (b : Line) : (s.setBucket n b).pending = s.pending := rfl
@[simp] theorem State.setBucket_free (s : State) (n : Nat) (b : Line) : (s.setBucket n b).free = s.free := rfl
@[simp] theorem State.setBucket_pins (s : State) (n : Nat) (b : Line) : (s.setBucket n b).pins = s.pins := rfl
@[simp] theorem State.setBucket_gl (s : State) (n : Nat) (b : Line) : (s.setBucket n b).gl = s.gl := rfl
@[simp] theorem State.setBucket_regs (s : State) (n : Nat) (b : Line) : (s.setBucket n b).regs = s.regs := rfl
@[simp] theorem State.setBucket_cfg (s : State) (n : Nat) (b : Line) : (s.setBucket n b).cfg = s.cfg := rfl
@[simp] theorem State.setBucket_hostPorts (s : State) (n : Nat) (b : Line) : (s.setBucket n b).hostPorts = s.hostPorts := rfl
@[simp] theorem State.setBucket_hids (s : State) (n : Nat) (b : Line) : (s.setBucket n b).hids = s.hids := rfl
@[simp] theorem State.setBucket_agentPorts (s : State) (n : Nat) (b : Line) : (s.setBucket n b).agentPorts = s.agentPorts := rfl
@[simp] theorem State.setBucket_slices (s : State) (n : Nat) (b : Line) : (s.setBucket n b).slices = s.slices := rfl
@[simp] theorem State.setBucket_memPorts (s : State) (n : Nat) (b : Line) : (s.setBucket n b).memPorts = s.memPorts := rfl
@[simp] theorem State.setBucket_cast (s : State) (n : Nat) (b : Line) : (s.setBucket n b).cast = s.cast := rfl
@[simp] theorem State.setBucket_dir (s : State) (n : Nat) (b : Line) : (s.setBucket n b).dir = s.dir := rfl
@[simp] theorem State.setBucket_dctl (s : State) (n : Nat) (b : Line) : (s.setBucket n b).dctl = s.dctl := rfl
@[simp] theorem State.setBucket_root (s : State) (n : Nat) (b : Line) : (s.setBucket n b).root = s.root := rfl
@[simp] theorem State.setBucket_eg (s : State) (n : Nat) (b : Line) : (s.setBucket n b).eg = s.eg := rfl
@[simp] theorem State.setBucket_pwr (s : State) (n : Nat) (b : Line) : (s.setBucket n b).pwr = s.pwr := rfl
@[simp] theorem State.setBucket_ld (s : State) (n : Nat) (b : Line) : (s.setBucket n b).ld = s.ld := rfl
@[simp] theorem State.setBucket_fb (s : State) (n : Nat) (b : Line) : (s.setBucket n b).fb = s.fb := rfl
@[simp] theorem State.setBucket_net (s : State) (n : Nat) (b : Line) : (s.setBucket n b).net = s.net := rfl
@[simp] theorem State.setBucket_ring (s : State) (n : Nat) (b : Line) : (s.setBucket n b).ring = s.ring := rfl
@[simp] theorem State.setBucket_ringSnoops (s : State) (n : Nat) (b : Line) : (s.setBucket n b).ringSnoops = s.ringSnoops := rfl
@[simp] theorem State.setBucket_ev (s : State) (n : Nat) (b : Line) : (s.setBucket n b).ev = s.ev := rfl

/-! ### modMove -/

@[simp] theorem State.modMove_variant (s : State) (p : Page) (f : Move → Move) : (s.modMove p f).variant = s.variant := rfl
@[simp] theorem State.modMove_pending (s : State) (p : Page) (f : Move → Move) : (s.modMove p f).pending = s.pending := rfl
@[simp] theorem State.modMove_free (s : State) (p : Page) (f : Move → Move) : (s.modMove p f).free = s.free := rfl
@[simp] theorem State.modMove_pins (s : State) (p : Page) (f : Move → Move) : (s.modMove p f).pins = s.pins := rfl
@[simp] theorem State.modMove_gl (s : State) (p : Page) (f : Move → Move) : (s.modMove p f).gl = s.gl := rfl
@[simp] theorem State.modMove_regs (s : State) (p : Page) (f : Move → Move) : (s.modMove p f).regs = s.regs := rfl
@[simp] theorem State.modMove_cfg (s : State) (p : Page) (f : Move → Move) : (s.modMove p f).cfg = s.cfg := rfl
@[simp] theorem State.modMove_hostPorts (s : State) (p : Page) (f : Move → Move) : (s.modMove p f).hostPorts = s.hostPorts := rfl
@[simp] theorem State.modMove_hids (s : State) (p : Page) (f : Move → Move) : (s.modMove p f).hids = s.hids := rfl
@[simp] theorem State.modMove_agentPorts (s : State) (p : Page) (f : Move → Move) : (s.modMove p f).agentPorts = s.agentPorts := rfl
@[simp] theorem State.modMove_slices (s : State) (p : Page) (f : Move → Move) : (s.modMove p f).slices = s.slices := rfl
@[simp] theorem State.modMove_memPorts (s : State) (p : Page) (f : Move → Move) : (s.modMove p f).memPorts = s.memPorts := rfl
@[simp] theorem State.modMove_cast (s : State) (p : Page) (f : Move → Move) : (s.modMove p f).cast = s.cast := rfl
@[simp] theorem State.modMove_dctl (s : State) (p : Page) (f : Move → Move) : (s.modMove p f).dctl = s.dctl := rfl
@[simp] theorem State.modMove_root (s : State) (p : Page) (f : Move → Move) : (s.modMove p f).root = s.root := rfl
@[simp] theorem State.modMove_eg (s : State) (p : Page) (f : Move → Move) : (s.modMove p f).eg = s.eg := rfl
@[simp] theorem State.modMove_pwr (s : State) (p : Page) (f : Move → Move) : (s.modMove p f).pwr = s.pwr := rfl
@[simp] theorem State.modMove_ld (s : State) (p : Page) (f : Move → Move) : (s.modMove p f).ld = s.ld := rfl
@[simp] theorem State.modMove_fb (s : State) (p : Page) (f : Move → Move) : (s.modMove p f).fb = s.fb := rfl
@[simp] theorem State.modMove_net (s : State) (p : Page) (f : Move → Move) : (s.modMove p f).net = s.net := rfl
@[simp] theorem State.modMove_ring (s : State) (p : Page) (f : Move → Move) : (s.modMove p f).ring = s.ring := rfl
@[simp] theorem State.modMove_ringSnoops (s : State) (p : Page) (f : Move → Move) : (s.modMove p f).ringSnoops = s.ringSnoops := rfl
@[simp] theorem State.modMove_ev (s : State) (p : Page) (f : Move → Move) : (s.modMove p f).ev = s.ev := rfl

/-! ### ringInject -/

/-- What a filling of the ring's empty slots leaves alone: everything but the ring and the fabric (R251). -/
theorem State.ringFill_only (n : Nat) (s : State) : State.ringFill n s =
    { s with fb := (State.ringFill n s).fb, ring := (State.ringFill n s).ring, ringSnoops := (State.ringFill n s).ringSnoops } := by
  induction n generalizing s with
  | zero => rfl
  | succ n ih =>
    unfold State.ringFill
    have put (w : RingWait) : s.ringPut w =
        { s with fb := (s.ringPut w).fb, ring := (s.ringPut w).ring, ringSnoops := (s.ringPut w).ringSnoops } := by cases w <;> rfl
    split
    · rfl
    · split
      · refine (ih _).trans ?_; rw [put]
      · split
        · refine (ih _).trans ?_; rw [put]
        · rfl

/-- An injection changes nothing but the ring and the fabric. -/
theorem State.ringInject_only (s : State) (w : RingWait) : s.ringInject w =
    { s with fb := (s.ringInject w).fb, ring := (s.ringInject w).ring, ringSnoops := (s.ringInject w).ringSnoops } :=
  (State.ringFill_only _ _).trans rfl

/-- A slot that becomes free changes nothing but the ring and the fabric. -/
theorem State.slotFreed_only (s : State) (g : Option (Bool × Nat)) : s.slotFreed g =
    { s with fb := (s.slotFreed g).fb, ring := (s.slotFreed g).ring, ringSnoops := (s.slotFreed g).ringSnoops } := by
  unfold State.slotFreed
  split
  · rfl
  · refine (State.ringFill_only _ _).trans ?_
    split <;> rfl

/-- A flit that leaves the ring changes nothing but the ring and the fabric. -/
theorem State.ringEject_only (s : State) (hit : RingFlit → Bool) : s.ringEject hit =
    { s with fb := (s.ringEject hit).fb, ring := (s.ringEject hit).ring, ringSnoops := (s.ringEject hit).ringSnoops } :=
  (State.slotFreed_only _ _).trans rfl

@[simp] theorem State.ringInject_variant (s : State) (w : RingWait) :
    (s.ringInject w).variant = s.variant := by rw [State.ringInject_only]
@[simp] theorem State.ringInject_pending (s : State) (w : RingWait) :
    (s.ringInject w).pending = s.pending := by rw [State.ringInject_only]
@[simp] theorem State.ringInject_free (s : State) (w : RingWait) : (s.ringInject w).free = s.free := by rw [State.ringInject_only]
@[simp] theorem State.ringInject_pins (s : State) (w : RingWait) : (s.ringInject w).pins = s.pins := by rw [State.ringInject_only]
@[simp] theorem State.ringInject_gl (s : State) (w : RingWait) : (s.ringInject w).gl = s.gl := by rw [State.ringInject_only]
@[simp] theorem State.ringInject_regs (s : State) (w : RingWait) : (s.ringInject w).regs = s.regs := by rw [State.ringInject_only]
@[simp] theorem State.ringInject_cfg (s : State) (w : RingWait) : (s.ringInject w).cfg = s.cfg := by rw [State.ringInject_only]
@[simp] theorem State.ringInject_hostPorts (s : State) (w : RingWait) :
    (s.ringInject w).hostPorts = s.hostPorts := by rw [State.ringInject_only]
@[simp] theorem State.ringInject_hids (s : State) (w : RingWait) : (s.ringInject w).hids = s.hids := by rw [State.ringInject_only]
@[simp] theorem State.ringInject_agentPorts (s : State) (w : RingWait) :
    (s.ringInject w).agentPorts = s.agentPorts := by rw [State.ringInject_only]
@[simp] theorem State.ringInject_slices (s : State) (w : RingWait) :
    (s.ringInject w).slices = s.slices := by rw [State.ringInject_only]
@[simp] theorem State.ringInject_memPorts (s : State) (w : RingWait) :
    (s.ringInject w).memPorts = s.memPorts := by rw [State.ringInject_only]
@[simp] theorem State.ringInject_cast (s : State) (w : RingWait) : (s.ringInject w).cast = s.cast := by rw [State.ringInject_only]
@[simp] theorem State.ringInject_dir (s : State) (w : RingWait) : (s.ringInject w).dir = s.dir := by rw [State.ringInject_only]
@[simp] theorem State.ringInject_dctl (s : State) (w : RingWait) : (s.ringInject w).dctl = s.dctl := by rw [State.ringInject_only]
@[simp] theorem State.ringInject_root (s : State) (w : RingWait) : (s.ringInject w).root = s.root := by rw [State.ringInject_only]
@[simp] theorem State.ringInject_eg (s : State) (w : RingWait) : (s.ringInject w).eg = s.eg := by rw [State.ringInject_only]
@[simp] theorem State.ringInject_pwr (s : State) (w : RingWait) : (s.ringInject w).pwr = s.pwr := by rw [State.ringInject_only]
@[simp] theorem State.ringInject_ld (s : State) (w : RingWait) : (s.ringInject w).ld = s.ld := by rw [State.ringInject_only]
@[simp] theorem State.ringInject_net (s : State) (w : RingWait) : (s.ringInject w).net = s.net := by rw [State.ringInject_only]
@[simp] theorem State.ringInject_ev (s : State) (w : RingWait) : (s.ringInject w).ev = s.ev := by rw [State.ringInject_only]

/-! ### slotFreed -/

@[simp] theorem State.slotFreed_variant (s : State) (g : Option (Bool × Nat)) :
    (s.slotFreed g).variant = s.variant := by rw [State.slotFreed_only]
@[simp] theorem State.slotFreed_pending (s : State) (g : Option (Bool × Nat)) :
    (s.slotFreed g).pending = s.pending := by rw [State.slotFreed_only]
@[simp] theorem State.slotFreed_free (s : State) (g : Option (Bool × Nat)) :
    (s.slotFreed g).free = s.free := by rw [State.slotFreed_only]
@[simp] theorem State.slotFreed_pins (s : State) (g : Option (Bool × Nat)) :
    (s.slotFreed g).pins = s.pins := by rw [State.slotFreed_only]
@[simp] theorem State.slotFreed_gl (s : State) (g : Option (Bool × Nat)) : (s.slotFreed g).gl = s.gl := by rw [State.slotFreed_only]
@[simp] theorem State.slotFreed_regs (s : State) (g : Option (Bool × Nat)) :
    (s.slotFreed g).regs = s.regs := by rw [State.slotFreed_only]
@[simp] theorem State.slotFreed_cfg (s : State) (g : Option (Bool × Nat)) : (s.slotFreed g).cfg = s.cfg := by rw [State.slotFreed_only]
@[simp] theorem State.slotFreed_hostPorts (s : State) (g : Option (Bool × Nat)) :
    (s.slotFreed g).hostPorts = s.hostPorts := by rw [State.slotFreed_only]
@[simp] theorem State.slotFreed_hids (s : State) (g : Option (Bool × Nat)) :
    (s.slotFreed g).hids = s.hids := by rw [State.slotFreed_only]
@[simp] theorem State.slotFreed_agentPorts (s : State) (g : Option (Bool × Nat)) :
    (s.slotFreed g).agentPorts = s.agentPorts := by rw [State.slotFreed_only]
@[simp] theorem State.slotFreed_slices (s : State) (g : Option (Bool × Nat)) :
    (s.slotFreed g).slices = s.slices := by rw [State.slotFreed_only]
@[simp] theorem State.slotFreed_memPorts (s : State) (g : Option (Bool × Nat)) :
    (s.slotFreed g).memPorts = s.memPorts := by rw [State.slotFreed_only]
@[simp] theorem State.slotFreed_cast (s : State) (g : Option (Bool × Nat)) :
    (s.slotFreed g).cast = s.cast := by rw [State.slotFreed_only]
@[simp] theorem State.slotFreed_dir (s : State) (g : Option (Bool × Nat)) : (s.slotFreed g).dir = s.dir := by rw [State.slotFreed_only]
@[simp] theorem State.slotFreed_dctl (s : State) (g : Option (Bool × Nat)) :
    (s.slotFreed g).dctl = s.dctl := by rw [State.slotFreed_only]
@[simp] theorem State.slotFreed_root (s : State) (g : Option (Bool × Nat)) :
    (s.slotFreed g).root = s.root := by rw [State.slotFreed_only]
@[simp] theorem State.slotFreed_eg (s : State) (g : Option (Bool × Nat)) : (s.slotFreed g).eg = s.eg := by rw [State.slotFreed_only]
@[simp] theorem State.slotFreed_pwr (s : State) (g : Option (Bool × Nat)) : (s.slotFreed g).pwr = s.pwr := by rw [State.slotFreed_only]
@[simp] theorem State.slotFreed_ld (s : State) (g : Option (Bool × Nat)) : (s.slotFreed g).ld = s.ld := by rw [State.slotFreed_only]
@[simp] theorem State.slotFreed_net (s : State) (g : Option (Bool × Nat)) : (s.slotFreed g).net = s.net := by rw [State.slotFreed_only]
@[simp] theorem State.slotFreed_ev (s : State) (g : Option (Bool × Nat)) : (s.slotFreed g).ev = s.ev := by rw [State.slotFreed_only]

/-! ### ringEject -/

@[simp] theorem State.ringEject_variant (s : State) (hit : RingFlit → Bool) :
    (s.ringEject hit).variant = s.variant := by rw [State.ringEject_only]
@[simp] theorem State.ringEject_pending (s : State) (hit : RingFlit → Bool) :
    (s.ringEject hit).pending = s.pending := by rw [State.ringEject_only]
@[simp] theorem State.ringEject_free (s : State) (hit : RingFlit → Bool) :
    (s.ringEject hit).free = s.free := by rw [State.ringEject_only]
@[simp] theorem State.ringEject_pins (s : State) (hit : RingFlit → Bool) :
    (s.ringEject hit).pins = s.pins := by rw [State.ringEject_only]
@[simp] theorem State.ringEject_gl (s : State) (hit : RingFlit → Bool) : (s.ringEject hit).gl = s.gl := by rw [State.ringEject_only]
@[simp] theorem State.ringEject_regs (s : State) (hit : RingFlit → Bool) :
    (s.ringEject hit).regs = s.regs := by rw [State.ringEject_only]
@[simp] theorem State.ringEject_cfg (s : State) (hit : RingFlit → Bool) : (s.ringEject hit).cfg = s.cfg := by rw [State.ringEject_only]
@[simp] theorem State.ringEject_hostPorts (s : State) (hit : RingFlit → Bool) :
    (s.ringEject hit).hostPorts = s.hostPorts := by rw [State.ringEject_only]
@[simp] theorem State.ringEject_hids (s : State) (hit : RingFlit → Bool) :
    (s.ringEject hit).hids = s.hids := by rw [State.ringEject_only]
@[simp] theorem State.ringEject_agentPorts (s : State) (hit : RingFlit → Bool) :
    (s.ringEject hit).agentPorts = s.agentPorts := by rw [State.ringEject_only]
@[simp] theorem State.ringEject_slices (s : State) (hit : RingFlit → Bool) :
    (s.ringEject hit).slices = s.slices := by rw [State.ringEject_only]
@[simp] theorem State.ringEject_memPorts (s : State) (hit : RingFlit → Bool) :
    (s.ringEject hit).memPorts = s.memPorts := by rw [State.ringEject_only]
@[simp] theorem State.ringEject_cast (s : State) (hit : RingFlit → Bool) :
    (s.ringEject hit).cast = s.cast := by rw [State.ringEject_only]
@[simp] theorem State.ringEject_dir (s : State) (hit : RingFlit → Bool) : (s.ringEject hit).dir = s.dir := by rw [State.ringEject_only]
@[simp] theorem State.ringEject_dctl (s : State) (hit : RingFlit → Bool) :
    (s.ringEject hit).dctl = s.dctl := by rw [State.ringEject_only]
@[simp] theorem State.ringEject_root (s : State) (hit : RingFlit → Bool) :
    (s.ringEject hit).root = s.root := by rw [State.ringEject_only]
@[simp] theorem State.ringEject_eg (s : State) (hit : RingFlit → Bool) : (s.ringEject hit).eg = s.eg := by rw [State.ringEject_only]
@[simp] theorem State.ringEject_pwr (s : State) (hit : RingFlit → Bool) : (s.ringEject hit).pwr = s.pwr := by rw [State.ringEject_only]
@[simp] theorem State.ringEject_ld (s : State) (hit : RingFlit → Bool) : (s.ringEject hit).ld = s.ld := by rw [State.ringEject_only]
@[simp] theorem State.ringEject_net (s : State) (hit : RingFlit → Bool) : (s.ringEject hit).net = s.net := by rw [State.ringEject_only]
@[simp] theorem State.ringEject_ev (s : State) (hit : RingFlit → Bool) : (s.ringEject hit).ev = s.ev := by rw [State.ringEject_only]

/-! ### Parts read after they are changed -/

/-- A host port after its change. -/
@[simp] theorem State.hostPort_modHostPort (s : State) (p : Nat) (f : HostPort → HostPort) :
    (s.modHostPort p f).hostPort p = (s.hostPort p).map f := by
  simp [State.hostPort, State.modHostPort]
/-- A host identity after its change. -/
@[simp] theorem State.hid_modHid (s : State) (h : Nat) (f : Hid → Hid) : (s.modHid h f).hid h = (s.hid h).map f := by
  simp [State.hid, State.modHid]
/-- An agent port after its change. -/
@[simp] theorem State.agentPort_modAgentPort (s : State) (p : Nat) (f : AgentPort → AgentPort) :
    (s.modAgentPort p f).agentPort p = (s.agentPort p).map f := by
  simp [State.agentPort, State.modAgentPort]
/-- Another host port stays. -/
theorem State.hostPort_modHostPort_other (s : State) {p q : Nat} (h : q ≠ p) (f : HostPort → HostPort) :
    (s.modHostPort p f).hostPort q = s.hostPort q := by
  simp [State.hostPort, State.modHostPort, List.getElem?_modify, Ne.symm h]
/-- Another host identity stays. -/
theorem State.hid_modHid_other (s : State) {p q : Nat} (h : q ≠ p) (f : Hid → Hid) : (s.modHid p f).hid q = s.hid q := by
  simp [State.hid, State.modHid, List.getElem?_modify, Ne.symm h]
/-- Another agent port stays. -/
theorem State.agentPort_modAgentPort_other (s : State) {p q : Nat} (h : q ≠ p) (f : AgentPort → AgentPort) :
    (s.modAgentPort p f).agentPort q = s.agentPort q := by
  simp [State.agentPort, State.modAgentPort, List.getElem?_modify, Ne.symm h]
/-- Two changes of one agent port are one. -/
theorem State.modAgentPort_modAgentPort (s : State) (p : Nat) (f g : AgentPort → AgentPort) :
    (s.modAgentPort p f).modAgentPort p g = s.modAgentPort p fun x => g (f x) := by
  simp [State.modAgentPort, List.modify_modify_eq, Function.comp_def]
/-- Changes of an agent port that agree on what it holds are the same change. -/
theorem State.modAgentPort_congr (s : State) (p : Nat) (ap : AgentPort) (h : s.agentPort p = some ap) (f g : AgentPort → AgentPort)
    (hf : f ap = g ap) : s.modAgentPort p f = s.modAgentPort p g := by
  have : s.agentPorts.modify p f = s.agentPorts.modify p g := by
    apply List.ext_getElem?
    intro i
    by_cases hi : p = i
    · subst hi; simp [State.agentPort] at h; simp [h, hf]
    · simp [List.getElem?_modify, hi]
  simp [State.modAgentPort, this]
/-- A value read from a keyed list of which some keys were removed. -/
theorem kget_filter {α : Type} (f : Nat → Bool) (l : List (Nat × α)) (o : Nat) :
    kget o (l.filter fun x => f x.1) = if f o then kget o l else none := by
  induction l with
  | nil => simp [kget]
  | cons x r ih =>
    obtain ⟨a, y⟩ := x
    by_cases ha : a = o
    · subst ha
      by_cases hf : f a <;> simp [hf, kget, ih]
    · by_cases hf : f a <;> simp [hf, kget, ih, ha]
/-- Removing the first element that a test names. -/
theorem eraseFirst_append {α : Type} (p : α → Bool) (a b : List α) (m : α) (h : ∀ x ∈ a, p x = false) (hm : p m = true) :
    eraseFirst p (a ++ m :: b) = a ++ b := by
  induction a with
  | nil => simp [eraseFirst, hm]
  | cons x r ih =>
    simp only [List.cons_append, eraseFirst, h x (.head _), Bool.false_eq_true, if_false, List.cons.injEq, true_and]
    exact ih fun y hy => h y (.tail _ hy)

end Sys2Proof.Machine
end

