-- ==== Sys2Proof/Laws/Hosts.lean ====
section
/-! SUPPORT. Host ports and host identities: error responses, and expiry and binding where the slices hold nothing for the identity. -/

namespace Sys2Proof.Machine

open Sys2Proof

set_option linter.unreachableTactic false
set_option linter.unusedTactic false
set_option linter.unusedSimpArgs false

/-- A change that changes nothing of any element. -/
theorem list_modify_id {α} (l : List α) (n : Nat) (f : α → α) (h : ∀ x ∈ l, f x = x) : l.modify n f = l := by
  apply List.ext_getElem?; intro i; rw [List.getElem?_modify]; split
  · cases hx : l[i]? with
    | none => rfl
    | some x => simp [h x (List.mem_of_getElem? hx)]
  · simp

/-- A fold of an operation that changes nothing. -/
theorem fold_same {β} (f : State → β → State) (l : List β) (s : State) (h : ∀ b ∈ l, f s b = s) : l.foldl f s = s := by
  induction l with
  | nil => rfl
  | cons x xs ih => simp [List.foldl_cons, h x (by simp)]; exact ih (fun b hb => h b (by simp [hb]))

/-- No return queue holds a message for the host identity: nothing is dropped. -/
theorem State.dropQueue_quiet (s : State) (h p : Nat) (hs : ∀ sl ∈ s.slices, ∀ m ∈ sl.retq, m.hid ≠ h) : s.dropQueue h p = s := by
  unfold State.dropQueue
  cases hsl : s.slice p with
  | none => rfl
  | some sl =>
    have hm := hs sl (List.mem_of_getElem? hsl)
    have : sl.retq.filter (fun m => m.hid == h) = [] := by simpa using hm
    simp only [this, List.foldl_nil, State.modSlice]
    rw [list_modify_id]
    intro x hx
    have := hs x hx
    have : x.retq.filter (fun m => m.hid != h) = x.retq := by simpa using this
    rw [this]

/-- No tracker awaits the host identity: nothing is answered for it. -/
theorem State.answerFor_quiet (s : State) (h p : Nat) (hs : ∀ sl ∈ s.slices, sl.waitsFor h = []) : s.answerFor h p = s := by
  unfold State.answerFor
  split
  · rename_i x sl h1 h2; rw [hs sl (List.mem_of_getElem? h2)]; rfl
  · rfl

/-- Nothing is queued for the host identity and no tracker awaits it: its expiry changes nothing more. -/
theorem State.expireHid_quiet (s : State) (h : Nat) (hs : ∀ sl ∈ s.slices, (∀ m ∈ sl.retq, m.hid ≠ h) ∧ sl.waitsFor h = []) : s.expireHid h = s := by
  unfold State.expireHid
  simp only
  rw [fold_same (fun s p => s.dropQueue h p) _ s (fun p _ => State.dropQueue_quiet s h p (fun sl hl => (hs sl hl).1))]
  exact fold_same _ _ _ (fun p _ => State.answerFor_quiet s h p (fun sl hl => (hs sl hl).2))

/-- A host identity with one of its ports up is reachable. -/
theorem State.hidUp_of (s : State) (h p : Nat) (x : Hid) (h1 : s.hid h = some x) (h2 : bitAt x.portMask p = true) (h3 : s.hostUp p = true) : s.hidUp h = true := by
  unfold State.hidUp State.snoopPort
  rw [h1]
  simp only
  rw [List.find?_isSome]
  refine ⟨p, ?_, ?_⟩
  · unfold State.hostUp at h3; cases hh : s.hostPort p with
    | none => simp [hh] at h3
    | some y => simp only [State.hostPort] at hh; simp [List.getElem?_eq_some_iff.mp hh |>.1]
  · simp only [h2, Bool.true_and]; exact h3

/-- No return queue holds anything: nothing is sent again. -/
theorem State.resend_quiet (s : State) (h : Nat) (hs : ∀ sl ∈ s.slices, sl.retq = []) : s.resend h = s := by
  unfold State.resend
  apply fold_same
  intro p _
  unfold State.resendSlice
  split
  · rename_i sl q h1 h2
    rw [hs sl (List.mem_of_getElem? h1)]; rfl
  · rfl

/-- Binding, at one entry of the host-ID table. -/
def Hid.bindOne (p : Nat) (x : Hid) : Hid := if bitAt x.portMask p && x.valid && (x.st == .unbound || x.st == .absent) then { x with st := .bound, windowLeft := 0 } else x

/-- Binding a host identity of a port that is up, with the return queues empty, changes the identity alone. -/
theorem State.bindHid_quiet (s : State) (h p : Nat) (x : Hid) (hx : s.hid h = some x) (hb : bitAt x.portMask p = true) (hu : s.hostUp p = true) (hs : ∀ sl ∈ s.slices, sl.retq = []) :
   s.bindHid h = { s with hids := s.hids.modify h (Hid.bindOne p) } := by
  unfold State.bindHid
  rw [hx]
  simp only [State.hidUp_of s h p x hx hb hu, Bool.and_true]
  split
  · rename_i hc
    rw [State.resend_quiet _ _ (by simpa [State.modHid] using hs)]
    simp only [State.modHid]; congr 1
    apply List.ext_getElem?; intro i; rw [List.getElem?_modify, List.getElem?_modify]; split
    · rename_i hi; subst hi; simp only [State.hid] at hx; rw [hx]; simp [Hid.bindOne, hb]; simp at hc; simp [hc]; intro a c; rcases hc.2 with d | d <;> contradiction
    · rfl
  · rename_i hc
    have : s.hids.modify h (Hid.bindOne p) = s.hids := by
      apply List.ext_getElem?; intro i; rw [List.getElem?_modify]; split
      · rename_i hi; subst hi; simp only [State.hid] at hx; rw [hx]; simp [Hid.bindOne, hb]; simp at hc; intro a; exact fun b => absurd b (by have := hc a; simp [this])
      · simp
    rw [this]

/-- Binding several host identities of a port. -/
theorem State.bindHid_foldl (p : Nat) (ks : List Nat) (s : State) (hk : ∀ h ∈ ks, ∃ x, s.hid h = some x ∧ bitAt x.portMask p = true) (hu : s.hostUp p = true) (hs : ∀ sl ∈ s.slices, sl.retq = []) :
  ks.foldl State.bindHid s = { s with hids := ks.foldl (fun l h => l.modify h (Hid.bindOne p)) s.hids } := by
  induction ks generalizing s with
  | nil => rfl
  | cons k ks ih =>
    obtain ⟨x, hx, hb⟩ := hk k (by simp)
    rw [List.foldl_cons, State.bindHid_quiet s k p x hx hb hu hs, ih]
    · rfl
    · intro h hh
      obtain ⟨y, hy, hyb⟩ := hk h (by simp [hh])
      simp only [State.hid] at hy ⊢
      rw [List.getElem?_modify]; split
      · rw [hy]; refine ⟨_, rfl, ?_⟩; simp only [Hid.bindOne]; split <;> simpa using hyb
      · refine ⟨y, by rw [hy]; rfl, hyb⟩
    · exact hu
    · exact hs

/-- Changes of distinct elements, one after the other. -/
theorem modify_foldl {f : Hid → Hid} (ks : List Nat) (l : List Hid) (hn : ks.Nodup) (i : Nat) :
   (ks.foldl (fun l h => l.modify h f) l)[i]? = if i ∈ ks then l[i]?.map f else l[i]? := by
  induction ks generalizing l with
  | nil => simp
  | cons k ks ih =>
    simp only [List.foldl_cons, List.nodup_cons] at hn ⊢
    rw [ih _ hn.2, List.getElem?_modify]
    by_cases hi : k = i
    · subst hi; simp [hn.1]
    · simp [hi, Ne.symm hi]

/-- What recording an error condition of a host port does. -/
theorem State.hostErr_eq (s : State) (port w : Nat) (hp : HostPort) (h : s.hostPort port = some hp) :
   s.hostErr port w = { s with hostPorts := s.hostPorts.modify port (fun h => { h with errs := h.errs.modify (errCounter w) satInc, logged := if h.logged.contains w then h.logged else h.logged ++ [w] }), ev := if hp.logged.contains w then s.ev else (s.logEv 0x20 0 srcHost port (BitVec.ofNat 64 w)).ev } := by
  unfold State.hostErr
  rw [h]
  simp only
  split <;> rfl

/-- A change that keeps the link keeps the port up. -/
theorem State.hostUp_modHostPort (s : State) (p : Nat) (f) (hf : ∀ x, (f x).linkUp = x.linkUp ∧ (f x).inReset = x.inReset) : (s.modHostPort p f).hostUp p = s.hostUp p := by
  unfold State.hostUp
  cases h : s.hostPort p with
  | none => rw [show (s.modHostPort p f).hostPort p = none by simp only [State.hostPort, State.modHostPort] at h ⊢; simp [h]]
  | some x => simp [h, hf]

/-- A message that no slice sends leaves on a port that is up, behind the others there (R163). -/
theorem State.emitS2M_up (s : State) (port h : Nat) (l : LineAddr) (b : S2MBody) (hu : s.hostUp port = true) :
   s.emitS2M port ⟨h, l, none, b, false, 0⟩ = s.modHostPort port fun x => { x with egress := x.egress ++ [⟨h, l, none, b, false, 0⟩] } := by
  simp [State.emitS2M, State.queuedFor, hu, State.putS2M, State.meshS2M, addS2M]

/-- What the error response of a port that is up does. -/
theorem State.hostError_eq (s : State) (port h : Nat) (k : Inp) (tag : Nat) (l : LineAddr) (hu : s.hostUp port = true) :
   s.hostError port h k tag l =
     s.modHostPort port fun x => { x with egress := x.egress ++ (hostErrorBodies k tag).map fun b => ⟨h, l, none, b, false, 0⟩ } := by
  have h2 : ∀ f : HostPort → HostPort, ∀ g : HostPort → HostPort, (s.modHostPort port f).modHostPort port g = s.modHostPort port fun x => g (f x) := by
    intro f g
    simp only [State.modHostPort]; congr 1; apply List.ext_getElem?; intro i; simp only [List.getElem?_modify]; split
    · simp [Function.comp_def]
    · simp
  have e0 : s = s.modHostPort port fun x => { x with egress := x.egress ++ [] } := by
    simp only [State.modHostPort, List.append_nil]
    have : s.hostPorts.modify port (fun x => x) = s.hostPorts := by
      apply List.ext_getElem?; intro i; simp [List.getElem?_modify]
    simp [this]
  have two (b c : S2MBody) : (s.emitS2M port ⟨h, l, none, b, false, 0⟩).emitS2M port ⟨h, l, none, c, false, 0⟩ =
      s.modHostPort port fun x => { x with egress := x.egress ++ [⟨h, l, none, b, false, 0⟩, ⟨h, l, none, c, false, 0⟩] } := by
    rw [State.emitS2M_up _ _ _ _ _ hu, State.emitS2M_up, h2]
    · simp
    · rw [State.hostUp_modHostPort _ _ _ (by intro x; exact ⟨rfl, rfl⟩)]; exact hu
  cases k
  case memSpecRd => simpa [State.hostError, hostErrorBodies] using e0
  case memRd => simp only [State.hostError, hostErrorBodies, two, List.map]
  case memRdData => simp only [State.hostError, hostErrorBodies, two, List.map]
  all_goals simp only [State.hostError, hostErrorBodies, State.emitS2M_up _ _ _ _ _ hu, List.map]

end Sys2Proof.Machine
end

