-- ==== Sys2Proof/Laws/Inputs.lean ====
section
/-! SUPPORT. What the shared operations of a slice's inputs and of a host port can do. -/

namespace Sys2Proof.Machine

open Sys2Proof

/-- A slice that is changed. -/
theorem State.slice_modSlice (s : State) (p : Nat) (f : Slice → Slice) (sl : Slice) (h : s.slice p = some sl) :
    (s.modSlice p f).slice p = some (f sl) := by
  simp only [State.slice, State.modSlice] at h ⊢
  simp [h]

/-- The slices that are not. -/
theorem State.slice_modSlice_other (s : State) {p q : Nat} (hq : q ≠ p) (f : Slice → Slice) :
    (s.modSlice p f).slice q = s.slice q := by
  simp [State.slice, State.modSlice, List.getElem?_modify, Ne.symm hq]

/-- Changing a slice twice. -/
theorem State.modSlice_modSlice (s : State) (p : Nat) (f g : Slice → Slice) :
    (s.modSlice p f).modSlice p g = s.modSlice p fun x => g (f x) := by
  simp only [State.modSlice]
  congr 1
  apply List.ext_getElem?
  intro i
  simp only [List.getElem?_modify]
  split
  · simp [Function.comp_def]
  · simp

/-- Which messages need no slot depends on the trackers and on the sender, kind and line of the message alone. -/
theorem Slice.noSlot_congr {x y : Slice} {q r : Req} (ht : x.trk = y.trk) (hs : q.src = r.src) (hk : q.kind = r.kind)
    (hl : q.line = r.line) : x.noSlot q = y.noSlot r := by
  simp only [Slice.noSlot, Slice.sideTrk, Slice.holderTrk, Tracker.takesSide, ht, hs, hk, hl]

/-- A request that its home slice takes in joins the port's input, last, with the class-K credit that it uses (R92); only BIConflict
is counted (R174); one that needs no slot goes to its tracker. -/
theorem State.arrive_joins (s : State) (p n : Nat) (q : Req) (sl : Slice) (hp : s.slice p = some sl) (hn : q.src.input = some n) :
    s.arrive p q =
      let k := q.withK || s.portClass q == .k
      let s1 := s.meshReq p q k
      let t := ((if q.kind = .biConflict then s1.count p 0x32 none else s1).joined p n
        { q with seq := sl.arb.seq, withK := k && q.kind != .biConflict && sl.creditIdle n })
      if sl.live && sl.noSlot q then t.settleIn p else t := by
  have hm : (s.meshReq p q (q.withK || s.portClass q == .k)).slice p = some sl := by
    unfold State.meshReq; dsimp only; split <;> exact hp
  unfold State.arrive
  rw [hp, hn]
  simp only [beq_iff_eq]
  have hc : ∃ y : Slice, (if q.kind = Inp.biConflict then (s.meshReq p q (q.withK || s.portClass q == .k)).count p 50 none
      else s.meshReq p q (q.withK || s.portClass q == .k)).slice p = some y ∧ y.trk = sl.trk ∧ y.ident = sl.ident := by
    split
    · exact ⟨_, State.slice_modSlice _ p _ sl hm, rfl, rfl⟩
    · exact ⟨sl, hm, rfl, rfl⟩
  obtain ⟨y, hy, ht, hi⟩ := hc
  rw [State.slice_modSlice _ p _ y hy]
  have h1 : ∀ f, (({ y with arb := { y.arb with seq := y.arb.seq + 1 }, ident := { y.ident with gated := false, busyMove := true } } :
      Slice).modInput n f).live = sl.live := by intro f; simp [Slice.live, Slice.modInput, hi]
  have h2 : ∀ f, (({ y with arb := { y.arb with seq := y.arb.seq + 1 }, ident := { y.ident with gated := false, busyMove := true } } :
      Slice).modInput n f).noSlot { q with seq := sl.arb.seq, withK := (q.withK || s.portClass q == .k) && q.kind != .biConflict && sl.creditIdle n } =
        sl.noSlot q := fun f => Slice.noSlot_congr (x := Slice.modInput _ n f) ht rfl rfl rfl
  simp only [h1, h2]
  rfl

end Sys2Proof.Machine
end

