-- ==== Sys2Proof/Laws/PerInstr.lean ====
section
/-! SUPPORT. Statements made per command. Operands: a well-formed command names only physical slices that the largest variant has. -/

namespace Sys2Proof

/-- The slices an acknowledgement names. -/
def AckSel.slices : AckSel → List Nat
  | .mem _ _ => []
  | .mirror phys => [phys]
  | .stamp phys _ => [phys]
  | .dirtyMark phys _ => [phys]

/-- The slices that take a ring-loss notice. -/
def LossTarget.slices : LossTarget → List Nat
  | .slice phys => [phys]
  | .port _ => []

/-- The slice whose link a link number names (R450). -/
def linkSlices (link : Nat) : List Nat := if link < 128 && link % 64 < 17 then [link % 64] else []

end Sys2Proof

namespace Sys2Proof.Laws.Operands

set_option Elab.async false

open Sys2Proof

/-- The physical slices a command names. -/
def slicesOf : Instr → List Nat
  | .fenceAtSlice phys _ => [phys]
  | .fenceAnswer phys _ => [phys]
  | .agentResponseArrival phys _ => [phys]
  | .ringSnoopCopy _ phys _ _ => [phys]
  | .rspI r => [r.phys]
  | .rspS r => [r.phys]
  | .rspFwd r => [r.phys]
  | .rspWbData r _ _ => [r.phys]
  | .rspIW r => [r.phys]
  | .memAck a => a.slices
  | .migStart phys _ _ => [phys]
  | .migDone phys _ => [phys]
  | .moveTick phys _ => [phys]
  | .castleReplay phys => [phys]
  | .selfCheck phys _ => [phys]
  | .reeval phys _ => [phys]
  | .issueSlot phys => [phys]
  | .starvationLimit phys _ => [phys]
  | .holdRelease phys _ => [phys]
  | .kcreditIssue phys _ => [phys]
  | .prefetchAccept phys => [phys]
  | .writebackWalkTurn phys => [phys]
  | .cacheDrainWalkTurn phys => [phys]
  | .victimToWpq phys _ => [phys]
  | .wpqIssue phys => [phys]
  | .pendingKpinFill phys _ => [phys]
  | .mirrorUpdate phys => [phys]
  | .preloadWalkTurn phys => [phys]
  | .wayRetire phys _ => [phys]
  | .errorWindowRestart phys => [phys]
  | .sfWayDisableWalk phys => [phys]
  | .blindfoldSweepGroup phys => [phys]
  | .promo phys _ => [phys]
  | .dack phys _ => [phys]
  | .dnote phys _ => [phys]
  | .dirtyMark phys _ => [phys]
  | .stamp phys _ => [phys]
  | .heatReport phys _ _ => [phys]
  | .pageMapFill phys _ _ => [phys]
  | .cleanCommand phys _ => [phys]
  | .cleanAck phys _ => [phys]
  | .sliceFailureDeclared phys _ => [phys]
  | .adoptionItemMove phys => [phys]
  | .resyncComplete phys => [phys]
  | .meshParityRefuse link => linkSlices link.link
  | .ringLossNotice target => target.slices
  | .slPmcClrCyc phys _ => [phys]
  | .slPmcClrCnt phys _ => [phys]
  | .slOccMaxRead phys _ => [phys]
  | .slPeekGo phys _ => [phys]
  | .slMscPreStart phys _ => [phys]
  | .slMscPreAbort phys _ => [phys]
  | .selfTestDone phys _ => [phys]
  | .drainWalkTurn phys => [phys]
  | .p1Gate phys => [phys]
  | .p1Ungate phys => [phys]
  | _ => []

/-- A well-formed command names slices that exist. -/
def Statement (i : Instr) : Prop := i.wf = true → ∀ p ∈ slicesOf i, p < 17

theorem memRd (m : HostMsg) : Statement (.memRd m) := by
  intro _ p hp; cases hp

theorem memRdData (m : HostMsg) : Statement (.memRdData m) := by
  intro _ p hp; cases hp

theorem memSpecRd (m : HostMsg) : Statement (.memSpecRd m) := by
  intro _ p hp; cases hp

theorem memInv (m : HostMsg) : Statement (.memInv m) := by
  intro _ p hp; cases hp

theorem memInvNT (m : HostMsg) : Statement (.memInvNT m) := by
  intro _ p hp; cases hp

theorem memClnEvct (m : HostMsg) : Statement (.memClnEvct m) := by
  intro _ p hp; cases hp

theorem memWr (m : HostMsg) (data : Line) (poison : Bool) : Statement (.memWr m data poison) := by
  intro _ p hp; cases hp

theorem memWrPtl (m : HostMsg) (data : Line) (be : BitVec 64) (poison : Bool) : Statement (.memWrPtl m data be poison) := by
  intro _ p hp; cases hp

theorem biConflict (m : HostMsg) : Statement (.biConflict m) := by
  intro _ p hp; cases hp

theorem hostUnsupported (m : HostMsg) (chan : M2SChan) : Statement (.hostUnsupported m chan) := by
  intro _ p hp; cases hp

theorem biRspI (r : BiRsp) : Statement (.biRspI r) := by
  intro _ p hp; cases hp

theorem biRspS (r : BiRsp) : Statement (.biRspS r) := by
  intro _ p hp; cases hp

theorem biRspE (r : BiRsp) : Statement (.biRspE r) := by
  intro _ p hp; cases hp

theorem biRspIBlk (r : BiRsp) (four : Bool) : Statement (.biRspIBlk r four) := by
  intro _ p hp; cases hp

theorem biRspSBlk (r : BiRsp) (four : Bool) : Statement (.biRspSBlk r four) := by
  intro _ p hp; cases hp

theorem biRspEBlk (r : BiRsp) (four : Bool) : Statement (.biRspEBlk r four) := by
  intro _ p hp; cases hp

theorem hostLinkUp (port : Nat) : Statement (.hostLinkUp port) := by
  intro _ p hp; cases hp

theorem hostPortReset (port : Nat) : Statement (.hostPortReset port) := by
  intro _ p hp; cases hp

theorem s2mDelivered (port : Nat) (chan : S2MChan) : Statement (.s2mDelivered port chan) := by
  intro _ p hp; cases hp

theorem returnWindowExpiry (hid : Nat) : Statement (.returnWindowExpiry hid) := by
  intro _ p hp; cases hp

theorem hostSnoopTimeout (hid : Nat) : Statement (.hostSnoopTimeout hid) := by
  intro _ p hp; cases hp

theorem expirySweepEnd (hid : Nat) : Statement (.expirySweepEnd hid) := by
  intro _ p hp; cases hp

theorem rdShared (a : AgentMsg) : Statement (.rdShared a) := by
  intro _ p hp; cases hp

theorem rdOwn (a : AgentMsg) : Statement (.rdOwn a) := by
  intro _ p hp; cases hp

theorem rdCur (a : AgentMsg) : Statement (.rdCur a) := by
  intro _ p hp; cases hp

theorem upgrade (a : AgentMsg) : Statement (.upgrade a) := by
  intro _ p hp; cases hp

theorem wbDirty (a : AgentMsg) (data : Line) (poison : Bool) : Statement (.wbDirty a data poison) := by
  intro _ p hp; cases hp

theorem evictClean (a : AgentMsg) : Statement (.evictClean a) := by
  intro _ p hp; cases hp

theorem atomicOp (a : AgentMsg) (data : Line) : Statement (.atomicOp a data) := by
  intro _ p hp; cases hp

theorem rdRes (a : AgentMsg) : Statement (.rdRes a) := by
  intro _ p hp; cases hp

theorem wrCond (a : AgentMsg) (data : Line) : Statement (.wrCond a data) := by
  intro _ p hp; cases hp

theorem fence (a : AgentMsg) : Statement (.fence a) := by
  intro _ p hp; cases hp

theorem agentPortSend (port : Nat) (useK : Bool) (reach : Reach) : Statement (.agentPortSend port useK reach) := by
  intro _ p hp; cases hp

theorem fenceAtSlice (phys : Nat) (t : ThreadId) : Statement (.fenceAtSlice phys t) := by
  intro h p hp; simp_all [slicesOf, Instr.wf]

theorem fenceAnswer (phys : Nat) (t : ThreadId) : Statement (.fenceAnswer phys t) := by
  intro h p hp; simp_all [slicesOf, Instr.wf]

theorem agentResponseArrival (phys : Nat) (port : Nat) : Statement (.agentResponseArrival phys port) := by
  intro h p hp; simp_all [slicesOf, Instr.wf]

theorem agentResponseDelivery (t : ThreadId) : Statement (.agentResponseDelivery t) := by
  intro _ p hp; cases hp

theorem forwardedDataArrival (port : Nat) (agent : Nat) (line : LineAddr) (data : Line) (dirty : Bool) (poison : Bool) : Statement (.forwardedDataArrival port agent line data dirty poison) := by
  intro _ p hp; cases hp

theorem threadException (t : ThreadId) : Statement (.threadException t) := by
  intro _ p hp; cases hp

theorem ringSnoopCopy (port : Nat) (phys : Nat) (trk : Nat) (line : LineAddr) : Statement (.ringSnoopCopy port phys trk line) := by
  intro h p hp; simp_all [slicesOf, Instr.wf]

theorem agentPortSnoop (port : Nat) (sq : Nat) : Statement (.agentPortSnoop port sq) := by
  intro _ p hp; cases hp

theorem agentSnoopAnswer (port : Nat) (header : BitVec 64) (data : Line) : Statement (.agentSnoopAnswer port header data) := by
  intro _ p hp; cases hp

theorem agentSnoopTimeout (port : Nat) (agent : Nat) : Statement (.agentSnoopTimeout port agent) := by
  intro _ p hp; cases hp

theorem rspI (r : AgRsp) : Statement (.rspI r) := by
  intro h p hp; simp_all [slicesOf, Instr.wf, AgRsp.wf]

theorem rspS (r : AgRsp) : Statement (.rspS r) := by
  intro h p hp; simp_all [slicesOf, Instr.wf, AgRsp.wf]

theorem rspFwd (r : AgRsp) : Statement (.rspFwd r) := by
  intro h p hp; simp_all [slicesOf, Instr.wf, AgRsp.wf]

theorem rspWbData (r : AgRsp) (data : Line) (poison : Bool) : Statement (.rspWbData r data poison) := by
  intro h p hp; simp_all [slicesOf, Instr.wf, AgRsp.wf]

theorem rspIW (r : AgRsp) : Statement (.rspIW r) := by
  intro h p hp; simp_all [slicesOf, Instr.wf, AgRsp.wf]

theorem memData (port : Nat) (tag : Nat) (data : Line) (nib : Nib) (poison : Bool) (ue : Bool) : Statement (.memData port tag data nib poison ue) := by
  intro _ p hp; cases hp

theorem memAck (a : AckSel) : Statement (.memAck a) := by
  intro h p hp
  cases a <;> simp_all [slicesOf, AckSel.slices, Instr.wf, AckSel.wf]

theorem memoryPortTimeout (port : Nat) (tag : Nat) : Statement (.memoryPortTimeout port tag) := by
  intro _ p hp; cases hp

theorem spillHit (port : Nat) (tag : Nat) : Statement (.spillHit port tag) := by
  intro _ p hp; cases hp

theorem spillMiss (port : Nat) (tag : Nat) (ue : Bool) : Statement (.spillMiss port tag ue) := by
  intro _ p hp; cases hp

theorem migStart (phys : Nat) (page : Page) (kind : MigKind) : Statement (.migStart phys page kind) := by
  intro h p hp; simp_all [slicesOf, Instr.wf]

theorem migDone (phys : Nat) (page : Page) : Statement (.migDone phys page) := by
  intro h p hp; simp_all [slicesOf, Instr.wf]

theorem moveTick (phys : Nat) (trk : Nat) : Statement (.moveTick phys trk) := by
  intro h p hp; simp_all [slicesOf, Instr.wf]

theorem castleReplay (phys : Nat) : Statement (.castleReplay phys) := by
  intro h p hp; simp_all [slicesOf, Instr.wf]

theorem selfCheck (phys : Nat) (agree : Bool) : Statement (.selfCheck phys agree) := by
  intro h p hp; simp_all [slicesOf, Instr.wf]

theorem reeval (phys : Nat) (trk : Nat) : Statement (.reeval phys trk) := by
  intro h p hp; simp_all [slicesOf, Instr.wf]

theorem issueSlot (phys : Nat) : Statement (.issueSlot phys) := by
  intro h p hp; simp_all [slicesOf, Instr.wf]

theorem starvationLimit (phys : Nat) (input : Nat) : Statement (.starvationLimit phys input) := by
  intro h p hp; simp_all [slicesOf, Instr.wf]

theorem holdRelease (phys : Nat) (line : LineAddr) : Statement (.holdRelease phys line) := by
  intro h p hp; simp_all [slicesOf, Instr.wf]

theorem kcreditIssue (phys : Nat) (input : Nat) : Statement (.kcreditIssue phys input) := by
  intro h p hp; simp_all [slicesOf, Instr.wf]

theorem moveBoundary : Statement .moveBoundary := by
  intro _ p hp; cases hp

theorem prefetchAccept (phys : Nat) : Statement (.prefetchAccept phys) := by
  intro h p hp; simp_all [slicesOf, Instr.wf]

theorem writebackWalkTurn (phys : Nat) : Statement (.writebackWalkTurn phys) := by
  intro h p hp; simp_all [slicesOf, Instr.wf]

theorem cacheDrainWalkTurn (phys : Nat) : Statement (.cacheDrainWalkTurn phys) := by
  intro h p hp; simp_all [slicesOf, Instr.wf]

theorem victimToWpq (phys : Nat) (entry : Nat) : Statement (.victimToWpq phys entry) := by
  intro h p hp; simp_all [slicesOf, Instr.wf]

theorem wpqIssue (phys : Nat) : Statement (.wpqIssue phys) := by
  intro h p hp; simp_all [slicesOf, Instr.wf]

theorem pendingKpinFill (phys : Nat) (trk : Nat) : Statement (.pendingKpinFill phys trk) := by
  intro h p hp; simp_all [slicesOf, Instr.wf]

theorem mirrorUpdate (phys : Nat) : Statement (.mirrorUpdate phys) := by
  intro h p hp; simp_all [slicesOf, Instr.wf]

theorem preloadWalkTurn (phys : Nat) : Statement (.preloadWalkTurn phys) := by
  intro h p hp; simp_all [slicesOf, Instr.wf]

theorem wayRetire (phys : Nat) (way : Nat) : Statement (.wayRetire phys way) := by
  intro h p hp; simp_all [slicesOf, Instr.wf]

theorem errorWindowRestart (phys : Nat) : Statement (.errorWindowRestart phys) := by
  intro h p hp; simp_all [slicesOf, Instr.wf]

theorem sfWayDisableWalk (phys : Nat) : Statement (.sfWayDisableWalk phys) := by
  intro h p hp; simp_all [slicesOf, Instr.wf]

theorem blindfoldSweepGroup (phys : Nat) : Statement (.blindfoldSweepGroup phys) := by
  intro h p hp; simp_all [slicesOf, Instr.wf]

theorem promo (phys : Nat) (page : Page) : Statement (.promo phys page) := by
  intro h p hp; simp_all [slicesOf, Instr.wf]

theorem dack (phys : Nat) (page : Page) : Statement (.dack phys page) := by
  intro h p hp; simp_all [slicesOf, Instr.wf]

theorem dnote (phys : Nat) (page : Page) : Statement (.dnote phys page) := by
  intro h p hp; simp_all [slicesOf, Instr.wf]

theorem dirtyMark (phys : Nat) (page : Page) : Statement (.dirtyMark phys page) := by
  intro h p hp; simp_all [slicesOf, Instr.wf]

theorem dirtyMarkRelease : Statement .dirtyMarkRelease := by
  intro _ p hp; cases hp

theorem stamp (phys : Nat) (page : Page) : Statement (.stamp phys page) := by
  intro h p hp; simp_all [slicesOf, Instr.wf]

theorem heatReport (phys : Nat) (page : Page) (heat : BitVec 8) : Statement (.heatReport phys page heat) := by
  intro h p hp; simp_all [slicesOf, Instr.wf]

theorem pageMapFill (phys : Nat) (page : Page) (ue : Bool) : Statement (.pageMapFill phys page ue) := by
  intro h p hp; simp_all [slicesOf, Instr.wf]

theorem pageMapEntryUpdate (page : Page) : Statement (.pageMapEntryUpdate page) := by
  intro _ p hp; cases hp

theorem demotionClockStep : Statement .demotionClockStep := by
  intro _ p hp; cases hp

theorem slotEvictionClockStep (pool : Nat) : Statement (.slotEvictionClockStep pool) := by
  intro _ p hp; cases hp

theorem cleaningStart : Statement .cleaningStart := by
  intro _ p hp; cases hp

theorem cleanCommand (phys : Nat) (page : Page) : Statement (.cleanCommand phys page) := by
  intro h p hp; simp_all [slicesOf, Instr.wf]

theorem cleanAck (phys : Nat) (page : Page) : Statement (.cleanAck phys page) := by
  intro h p hp; simp_all [slicesOf, Instr.wf]

theorem gameSweeperStep : Statement .gameSweeperStep := by
  intro _ p hp; cases hp

theorem heatDecay : Statement .heatDecay := by
  intro _ p hp; cases hp

theorem pageMapChunkLoad (chunk : Nat) (pins : List (Page × BitVec 3)) : Statement (.pageMapChunkLoad chunk pins) := by
  intro _ p hp; cases hp

theorem copyDone (ctag : Nat) (status : BitVec 4) : Statement (.copyDone ctag status) := by
  intro _ p hp; cases hp

theorem compressDone (ctag : Nat) (status : BitVec 4) (len : Nat) (crc : W32) : Statement (.compressDone ctag status len crc) := by
  intro _ p hp; cases hp

theorem flushDone (ctag : Nat) (status : BitVec 4) : Statement (.flushDone ctag status) := by
  intro _ p hp; cases hp

theorem stagingStoreDone (ctag : Nat) (status : BitVec 4) : Statement (.stagingStoreDone ctag status) := by
  intro _ p hp; cases hp

theorem victimOfferResponse (ctag : Nat) (status : BitVec 4) : Statement (.victimOfferResponse ctag status) := by
  intro _ p hp; cases hp

theorem cleanCopyDone (ctag : Nat) (status : BitVec 4) : Statement (.cleanCopyDone ctag status) := by
  intro _ p hp; cases hp

theorem persistentWriteDone (ctag : Nat) (status : BitVec 4) : Statement (.persistentWriteDone ctag status) := by
  intro _ p hp; cases hp

theorem persistentReadDone (ctag : Nat) (status : BitVec 4) (lines : List PLine) : Statement (.persistentReadDone ctag status lines) := by
  intro _ p hp; cases hp

theorem savePageDone (ctag : Nat) (status : BitVec 4) : Statement (.savePageDone ctag status) := by
  intro _ p hp; cases hp

theorem doorbell (ring : Nat) : Statement (.doorbell ring) := by
  intro _ p hp; cases hp

theorem ringPoll : Statement .ringPoll := by
  intro _ p hp; cases hp

theorem hintSlot (ring : Nat) : Statement (.hintSlot ring) := by
  intro _ p hp; cases hp

theorem pinComplete (page : Page) : Statement (.pinComplete page) := by
  intro _ p hp; cases hp

theorem pdListStart (w : RegAcc) : Statement (.pdListStart w) := by
  intro _ p hp; cases hp

theorem pdListAbort (w : RegAcc) : Statement (.pdListAbort w) := by
  intro _ p hp; cases hp

theorem listReadDone (tag : Nat) (lines : List Line) : Statement (.listReadDone tag lines) := by
  intro _ p hp; cases hp

theorem masterReadError (tag : Nat) (why : MasterErr) : Statement (.masterReadError tag why) := by
  intro _ p hp; cases hp

theorem pdRingCtlReset (w : RegAcc) : Statement (.pdRingCtlReset w) := by
  intro _ p hp; cases hp

theorem sliceFailureDeclared (phys : Nat) (cause : BitVec 4) : Statement (.sliceFailureDeclared phys cause) := by
  intro h p hp; simp_all [slicesOf, Instr.wf]

theorem adoptionItemMove (phys : Nat) : Statement (.adoptionItemMove phys) := by
  intro h p hp; simp_all [slicesOf, Instr.wf]

theorem resyncComplete (phys : Nat) : Statement (.resyncComplete phys) := by
  intro h p hp; simp_all [slicesOf, Instr.wf]

theorem meshParityRefuse (link : LinkFlit) : Statement (.meshParityRefuse link) := by
  intro _ p hp
  simp only [slicesOf, linkSlices] at hp
  split at hp <;> simp_all

theorem ringParityFail (stop : Nat) (kind : ParityKind) (flit : Nat) : Statement (.ringParityFail stop kind flit) := by
  intro _ p hp; cases hp

theorem ringLossNotice (target : LossTarget) : Statement (.ringLossNotice target) := by
  intro h p hp
  cases target <;> simp_all [slicesOf, LossTarget.slices, Instr.wf, LossTarget.wf]

theorem ringEscalation (flit : Nat) : Statement (.ringEscalation flit) := by
  intro _ p hp; cases hp

theorem ringInjectClaim (stop : Nat) : Statement (.ringInjectClaim stop) := by
  intro _ p hp; cases hp

theorem probeMatch (probe : Nat) (flit : Flit) : Statement (.probeMatch probe flit) := by
  intro _ p hp; cases hp

theorem tracePacketGap (probe : Nat) : Statement (.tracePacketGap probe) := by
  intro _ p hp; cases hp

theorem fbTraceDataRead (r : RegRd) : Statement (.fbTraceDataRead r) := by
  intro _ p hp; cases hp

theorem fbTraceCtlFlush (w : RegAcc) : Statement (.fbTraceCtlFlush w) := by
  intro _ p hp; cases hp

theorem fbPrbCtlClear (probe : Nat) (w : RegAcc) : Statement (.fbPrbCtlClear probe w) := by
  intro _ p hp; cases hp

theorem fbEvtPop (r : RegRd) : Statement (.fbEvtPop r) := by
  intro _ p hp; cases hp

theorem eventFifoStale : Statement .eventFifoStale := by
  intro _ p hp; cases hp

theorem slPmcClrCyc (phys : Nat) (w : RegAcc) : Statement (.slPmcClrCyc phys w) := by
  intro h p hp; simp_all [slicesOf, Instr.wf]

theorem slPmcClrCnt (phys : Nat) (w : RegAcc) : Statement (.slPmcClrCnt phys w) := by
  intro h p hp; simp_all [slicesOf, Instr.wf]

theorem counterLowRead (offset : BitVec 27) (r : RegRd) : Statement (.counterLowRead offset r) := by
  intro _ p hp; cases hp

theorem wideRegisterLowRead (offset : BitVec 27) (r : RegRd) : Statement (.wideRegisterLowRead offset r) := by
  intro _ p hp; cases hp

theorem slOccMaxRead (phys : Nat) (r : RegRd) : Statement (.slOccMaxRead phys r) := by
  intro h p hp; simp_all [slicesOf, Instr.wf]

theorem readClearRegister (offset : BitVec 27) (r : RegRd) : Statement (.readClearRegister offset r) := by
  intro _ p hp; cases hp

theorem slPeekGo (phys : Nat) (w : RegAcc) : Statement (.slPeekGo phys w) := by
  intro h p hp; simp_all [slicesOf, Instr.wf]

theorem slMscPreStart (phys : Nat) (w : RegAcc) : Statement (.slMscPreStart phys w) := by
  intro h p hp; simp_all [slicesOf, Instr.wf]

theorem slMscPreAbort (phys : Nat) (w : RegAcc) : Statement (.slMscPreAbort phys w) := by
  intro h p hp; simp_all [slicesOf, Instr.wf]

theorem glCommit (w : RegAcc) : Statement (.glCommit w) := by
  intro _ p hp; cases hp

theorem glGameWrite (w : RegAcc) : Statement (.glGameWrite w) := by
  intro _ p hp; cases hp

theorem registerAliasWrite (offset : BitVec 27) (w : RegAcc) : Statement (.registerAliasWrite offset w) := by
  intro _ p hp; cases hp

theorem registerWrite (offset : BitVec 27) (w : RegAcc) : Statement (.registerWrite offset w) := by
  intro _ p hp; cases hp

theorem dvsecConfigWrite (offset : Nat) (value : W32) : Statement (.dvsecConfigWrite offset value) := by
  intro _ p hp; cases hp

theorem expansionRomRead (offset : BitVec 27) (r : RegRd) : Statement (.expansionRomRead offset r) := by
  intro _ p hp; cases hp

theorem expansionRomWrite (offset : BitVec 27) (w : RegAcc) : Statement (.expansionRomWrite offset w) := by
  intro _ p hp; cases hp

theorem atomicApertureAtomicOp (offset : Nat) (a : AgentMsg) (data : Line) : Statement (.atomicApertureAtomicOp offset a data) := by
  intro _ p hp; cases hp

theorem ldCmdFetch (w : RegAcc) : Statement (.ldCmdFetch w) := by
  intro _ p hp; cases hp

theorem fetchStepDone (e : FetchEvent) : Statement (.fetchStepDone e) := by
  intro _ p hp; cases hp

theorem ldCmdArmReload (w : RegAcc) : Statement (.ldCmdArmReload w) := by
  intro _ p hp; cases hp

theorem ldCmdDisarm (w : RegAcc) : Statement (.ldCmdDisarm w) := by
  intro _ p hp; cases hp

theorem ldCmdRetry (w : RegAcc) : Statement (.ldCmdRetry w) := by
  intro _ p hp; cases hp

theorem ldRotAccept (w : RegAcc) : Statement (.ldRotAccept w) := by
  intro _ p hp; cases hp

theorem ldRotReject (w : RegAcc) : Statement (.ldRotReject w) := by
  intro _ p hp; cases hp

theorem rootOfTrustTimeout : Statement .rootOfTrustTimeout := by
  intro _ p hp; cases hp

theorem egCtlShutdown (w : RegAcc) : Statement (.egCtlShutdown w) := by
  intro _ p hp; cases hp

theorem egCtlAcceptLoss (w : RegAcc) : Statement (.egCtlAcceptLoss w) := by
  intro _ p hp; cases hp

theorem egPorRelease : Statement .egPorRelease := by
  intro _ p hp; cases hp

theorem blkPorRelease : Statement .blkPorRelease := by
  intro _ p hp; cases hp

theorem selfTestDone (phys : Nat) (found : SelfTest) : Statement (.selfTestDone phys found) := by
  intro h p hp; simp_all [slicesOf, Instr.wf]

theorem slotHeadersRead (slotA : SlotBytes) (slotB : SlotBytes) (sfdp : Option Sfdp) : Statement (.slotHeadersRead slotA slotB sfdp) := by
  intro _ p hp; cases hp

theorem imageSlotLoaded (bytes : List (BitVec 8)) : Statement (.imageSlotLoaded bytes) := by
  intro _ p hp; cases hp

theorem setupWalk : Statement .setupWalk := by
  intro _ p hp; cases hp

theorem restartComplete : Statement .restartComplete := by
  intro _ p hp; cases hp

theorem warmReq : Statement .warmReq := by
  intro _ p hp; cases hp

theorem warmReload (slotA : SlotBytes) (slotB : SlotBytes) : Statement (.warmReload slotA slotB) := by
  intro _ p hp; cases hp

theorem fabRst : Statement .fabRst := by
  intro _ p hp; cases hp

theorem endgameInputChange (i : EgInputs) : Statement (.endgameInputChange i) := by
  intro _ p hp; cases hp

theorem adcSample (chan : Nat) (code : BitVec 12) : Statement (.adcSample chan code) := by
  intro _ p hp; cases hp

theorem allowanceCompute : Statement .allowanceCompute := by
  intro _ p hp; cases hp

theorem debounceComplete : Statement .debounceComplete := by
  intro _ p hp; cases hp

theorem rideTimeEnd : Statement .rideTimeEnd := by
  intro _ p hp; cases hp

theorem rideRecover : Statement .rideRecover := by
  intro _ p hp; cases hp

theorem drainWalkTurn (phys : Nat) : Statement (.drainWalkTurn phys) := by
  intro h p hp; simp_all [slicesOf, Instr.wf]

theorem drainComplete : Statement .drainComplete := by
  intro _ p hp; cases hp

theorem gpfPhase1 : Statement .gpfPhase1 := by
  intro _ p hp; cases hp

theorem gpfPhase1Ack : Statement .gpfPhase1Ack := by
  intro _ p hp; cases hp

theorem gpfPhase2 : Statement .gpfPhase2 := by
  intro _ p hp; cases hp

theorem pmDstateD3hot : Statement .pmDstateD3hot := by
  intro _ p hp; cases hp

theorem p2EntryComplete : Statement .p2EntryComplete := by
  intro _ p hp; cases hp

theorem pmDstateD0 : Statement .pmDstateD0 := by
  intro _ p hp; cases hp

theorem pmP3Req : Statement .pmP3Req := by
  intro _ p hp; cases hp

theorem p1Gate (phys : Nat) : Statement (.p1Gate phys) := by
  intro h p hp; simp_all [slicesOf, Instr.wf]

theorem p1Ungate (phys : Nat) : Statement (.p1Ungate phys) := by
  intro h p hp; simp_all [slicesOf, Instr.wf]

theorem demotionToPersistentDone (ctag : Nat) (status : BitVec 4) : Statement (.demotionToPersistentDone ctag status) := by
  intro _ p hp; cases hp

theorem evictionFromCompressedDone (ctag : Nat) (status : BitVec 4) : Statement (.evictionFromCompressedDone ctag status) := by
  intro _ p hp; cases hp

theorem norEraseProgramTimeout : Statement .norEraseProgramTimeout := by
  intro _ p hp; cases hp

theorem tracePortTransfer : Statement .tracePortTransfer := by
  intro _ p hp; cases hp

theorem eventRequestAccept : Statement .eventRequestAccept := by
  intro _ p hp; cases hp

theorem pmDstateReserved (value : BitVec 2) : Statement (.pmDstateReserved value) := by
  intro _ p hp; cases hp

end Sys2Proof.Laws.Operands
end

