-- ==== Sys2Proof/Laws/SpillUnits.lean ====
section
/-! SUPPORT. Each operation leaves the spill directory alone, or keeps the one form of its list: the director, castling, start-up, power and register accesses. -/

namespace Sys2Proof.Machine

open Sys2Proof

set_option linter.unreachableTactic false
set_option linter.unusedTactic false
set_option linter.unusedSimpArgs false

/-! ### Machine/Director.lean -/

@[simp] theorem State.onMsg_wf (s :
    State) (m : NMsg) (f : State → State) (hf : ∀ s, spillWf s.spill = true → spillWf (f s).spill = true) (hw : spillWf s.spill = true) : spillWf (State.onMsg s m f).spill = true := by
  unfold State.onMsg; split <;> simp [*]

@[simp] theorem State.pmInstall_spill (s :
    State) (p : Nat) (pg : Page) (e : PEnt) (w : Nat) : (State.pmInstall s p pg e w).spill = s.spill := by
  unfold State.pmInstall
  repeat' (first
    | split
    | simp)

@[simp] theorem State.pmWake_wf (s :
    State) (p : Nat) (pg : Page) (hw : spillWf s.spill = true) : spillWf (State.pmWake s p pg).spill = true := by
  unfold State.pmWake
  repeat' (first
    | assumption
    | with_reducible refine State.wf_branch ?_ ?_
    | with_reducible refine State.wf_foldl _ (fun s a hs => ?_) _ _ ?_
    | split
    | simp (maxDischargeDepth := 20) [*]
    | with_reducible refine State.wf_fst (by assumption) ?_
    | with_reducible refine State.wf_snd (by assumption) ?_)

@[simp] theorem State.pageMapFill_wf (s : State) (p : Nat) (pg : Page) (ue : Bool) (hw : spillWf s.spill = true) :
    spillWf (State.pageMapFill s p pg ue).spill = true := by
  unfold State.pageMapFill
  refine State.wf_branch hw ?_
  refine State.onMsg_wf _ _ _ (fun s hs => ?_) hw
  split
  · exact hs
  · split
    · exact hs
    · extract_lets s1 s2 e tmp s3
      have h2 : spillWf s2.spill = true := by simp only [s2]; split <;> simp [s1, hs]
      clear_value s2
      split
      · simp [hs]
      · split
        · simp [hs]
        · split <;> simp [h2, s3]

@[simp] theorem State.pageMapUpdate_wf (s :
    State) (pg : Page) (hw : spillWf s.spill = true) : spillWf (State.pageMapUpdate s pg).spill = true := by
  unfold State.pageMapUpdate
  repeat' (first
    | assumption
    | with_reducible refine State.wf_branch ?_ ?_
    | with_reducible refine State.onMsg_wf _ _ _ (fun s hs => ?_) ?_
    | split
    | simp (maxDischargeDepth := 20) [*]
    | with_reducible refine State.wf_fst (by assumption) ?_
    | with_reducible refine State.wf_snd (by assumption) ?_)

@[simp] theorem State.heatDecay_spill (s : State) : (State.heatDecay s).spill = s.spill := by unfold State.heatDecay; split <;> rfl

@[simp] theorem State.cleanAt_wf (s : State) (p : Nat) (pg : Page) (hw : spillWf s.spill = true) :
    spillWf (State.cleanAt s p pg).spill = true := by
  unfold State.cleanAt
  split
  · exact hw
  · extract_lets ls vs
    refine State.wf_branch hw ?_
    refine State.onMsg_wf _ _ _ (fun s hs => ?_) hw
    extract_lets s1 s2 s3
    have h3 : spillWf s3.spill = true :=
      State.wf_foldl _ (fun s v h => by simp [h]) _ _ (State.wf_foldl _ (fun s v h => by simp [h]) _ _ (by simp [s1, hs]))
    clear_value s3
    split
    · exact h3
    · simp [h3]

@[simp] theorem State.onTe_wf (s : State) (t : Nat) (st : BitVec 4) (f : TeCmd → State → State)
    (hf : ∀ c s, spillWf s.spill = true → spillWf (f c s).spill = true) (hw : spillWf s.spill = true) :
    spillWf (State.onTe s t st f).spill = true := by
  unfold State.onTe
  split
  · exact hw
  · exact hf _ _ (by simp [hw])

@[simp] theorem State.copyDone_promo_wf (s : State) (t : Nat) (st : BitVec 4) (hw : spillWf s.spill = true) :
    spillWf (State.copyDone.promo s t st).spill = true := by
  unfold State.copyDone.promo
  split <;> exact State.onTe_wf _ _ _ _ (fun c s hs => by simp [hs]) hw

@[simp] theorem State.copyDone_wf (s : State) (t : Nat) (st : BitVec 4) (hw : spillWf s.spill = true) :
    spillWf (State.copyDone s t st).spill = true := by
  unfold State.copyDone
  split
  · exact State.onTe_wf _ _ _ _ (fun c s hs => by simp [hs]) hw
  · simp [hw]
  · simp [hw]
  · exact hw

@[simp] theorem State.compressDone_wf (s :
    State) (t : Nat) (st : BitVec 4) (len : Nat) (hw : spillWf s.spill = true) : spillWf (State.compressDone s t st len).spill = true := by
  unfold State.compressDone
  repeat' (first
    | assumption
    | with_reducible refine State.wf_branch ?_ ?_
    | with_reducible refine State.onTe_wf _ _ _ _ (fun c s hs => ?_) ?_
    | split
    | simp (maxDischargeDepth := 20) [*]
    | with_reducible refine State.wf_fst (by assumption) ?_
    | with_reducible refine State.wf_snd (by assumption) ?_)

@[simp] theorem State.flushAnswer_wf (s :
    State) (t : Nat) (st : BitVec 4) (hw : spillWf s.spill = true) : spillWf (State.flushAnswer s t st).spill = true := by
  unfold State.flushAnswer; split <;> simp [*]

@[simp] theorem State.storeDone_wf (s :
    State) (t : Nat) (st : BitVec 4) (hw : spillWf s.spill = true) : spillWf (State.storeDone s t st).spill = true := by
  unfold State.storeDone
  repeat' (first
    | assumption
    | with_reducible refine State.wf_branch ?_ ?_
    | with_reducible refine State.onTe_wf _ _ _ _ (fun c s hs => ?_) ?_
    | split
    | simp (maxDischargeDepth := 20) [*]
    | with_reducible refine State.wf_fst (by assumption) ?_
    | with_reducible refine State.wf_snd (by assumption) ?_)

@[simp] theorem State.offerDone_wf (s :
    State) (t : Nat) (st : BitVec 4) (hw : spillWf s.spill = true) : spillWf (State.offerDone s t st).spill = true := by
  unfold State.offerDone; split <;> simp [*]

@[simp] theorem State.cleanCopied_wf (s :
    State) (t : Nat) (st : BitVec 4) (hw : spillWf s.spill = true) : spillWf (State.cleanCopied s t st).spill = true := by
  unfold State.cleanCopied; split <;> simp [*]

@[simp] theorem State.persistDone_wf (s :
    State) (t : Nat) (st : BitVec 4) (hw : spillWf s.spill = true) : spillWf (State.persistDone s t st).spill = true := by
  unfold State.persistDone; split <;> simp [*]

@[simp] theorem State.evictDone_wf (s :
    State) (t : Nat) (st : BitVec 4) (hw : spillWf s.spill = true) : spillWf (State.evictDone s t st).spill = true := by
  unfold State.evictDone; split <;> simp [*]

@[simp] theorem State.writeAcked_wf (s :
    State) (t : Nat) (st : BitVec 4) (hw : spillWf s.spill = true) : spillWf (State.writeAcked s t st).spill = true := by
  unfold State.writeAcked
  repeat' (first
    | assumption
    | with_reducible refine State.wf_branch ?_ ?_
    | with_reducible refine State.onTe_wf _ _ _ _ (fun c s hs => ?_) ?_
    | split
    | simp (maxDischargeDepth := 20) [*]
    | with_reducible refine State.wf_fst (by assumption) ?_
    | with_reducible refine State.wf_snd (by assumption) ?_)

@[simp] theorem State.readReturned_wf (s :
    State) (t : Nat) (st : BitVec 4) (ls : List PLine) (hw : spillWf s.spill = true) : spillWf (State.readReturned s t st ls).spill = true := by
  unfold State.readReturned; split <;> simp [*]

@[simp] theorem State.saveDone_wf (s :
    State) (t : Nat) (st : BitVec 4) (hw : spillWf s.spill = true) : spillWf (State.saveDone s t st).spill = true := by
  unfold State.saveDone; split <;> simp [*]

@[simp] theorem State.chunkLoad_spill (s :
    State) (n : Nat) (pins : List (Page × BitVec 3)) : (State.chunkLoad s n pins).spill = s.spill := by
  simp [State.chunkLoad]

/-! ### Machine/Hints.lean -/

theorem State.dirAccess_wf {s : State} {kind : Inp} {tag : Nat} {l : LineAddr} {d : Line} {t : State}
    (h : s.dirAccess kind tag l d = some t) (hs : spillWf s.spill = true) : spillWf t.spill = true := by
  unfold State.dirAccess at h
  repeat' (first | contradiction | split at h | dsimp only at h)
  all_goals
    injection h with h
    subst h
    simp [*]

theorem State.dirAccess_bind_wf {s t : State} {o : Option LineAddr} {kind : Inp} {tag : Nat} {d : LineAddr → Line}
    (h : (o.bind fun l => s.dirAccess kind tag l (d l)) = some t) (hs : spillWf s.spill = true) : spillWf t.spill = true := by
  obtain ⟨l, -, h⟩ := Option.bind_eq_some_iff.mp h
  exact State.dirAccess_wf h hs

@[simp] theorem State.setPin_spill (s :
    State) (p : Page) (cp : BitVec 3) : (State.setPin s p cp).spill = s.spill := by simp [State.setPin]

@[simp] theorem State.pinPage_spill (s :
    State) (p : Page) (arg : BitVec 2) : (State.pinPage s p arg).spill = s.spill := by simp [State.pinPage]

@[simp] theorem State.hintPromote_spill (s :
    State) (p : Page) : (State.hintPromote s p).1.spill = s.spill := by unfold State.hintPromote; split <;> simp

@[simp] theorem State.hintBegin_spill (s :
    State) (op : Nat) (arg : BitVec 2) (p : Page) : (State.hintBegin s op arg p).1.spill = s.spill := by
  unfold State.hintBegin
  repeat' (first
    | split
    | simp)

theorem State.hintFill_wf {s : State} {l : LineAddr} {t : State}
    (h : s.hintFill l = some t) (hs : spillWf s.spill = true) : spillWf t.spill = true := by
  unfold State.hintFill at h
  repeat' (first | contradiction | split at h | dsimp only at h)
  all_goals
    injection h with h
    subst h
    simp [*]

@[simp] theorem State.hintStep_wf (s :
    State) (op : Nat) (arg : BitVec 2) (p : Page) (stage : HintStage) (lines : Nat) (hw : spillWf s.spill = true) : spillWf (State.hintStep s op arg p stage lines).1.spill = true := by
  unfold State.hintStep
  repeat' (first
    | assumption
    | with_reducible refine State.wf_branch ?_ ?_
    | split
    | simp (maxDischargeDepth := 20) [*]
    | with_reducible refine State.wf_fst (by assumption) ?_
    | with_reducible refine State.wf_snd (by assumption) ?_
    | refine State.hintFill_wf (by assumption) ?_)

theorem State.takeDone_spill {s t : State} {tag : Nat} {d : Option Line} (h : s.takeDone tag = some (d, t)) : t.spill = s.spill := by
  unfold State.takeDone at h
  obtain ⟨x, -, h⟩ := Option.map_eq_some_iff.mp h
  injection h with h1 h2
  subst h2
  simp

@[simp] theorem State.ctxStep_wf (s : State) (c : HintCtx) (h : spillWf s.spill = true) :
    spillWf (State.ctxStep s c).1.spill = true := by
  unfold State.ctxStep
  repeat' (first
    | assumption
    | with_reducible exact State.dirAccess_bind_wf ‹_› h
    | (rw [State.takeDone_spill ‹_›]; assumption)
    | split
    | simp [*]
    | dsimp only)

@[simp] theorem State.ctxRun_wf (n : Nat) (s : State) (c : HintCtx) (h : spillWf s.spill = true) :
    spillWf (State.ctxRun n s c).1.spill = true := by
  induction n generalizing s c with
  | zero => exact h
  | succ n ih =>
    unfold State.ctxRun
    have hc := State.ctxStep_wf s c h
    repeat' (first
      | assumption
      | split
      | simp_all)

@[simp] theorem State.takeBells_spill (n : Nat) (s : State) : (State.takeBells n s).spill = s.spill := by
  induction n generalizing s with
  | zero => rfl
  | succ n ih =>
    unfold State.takeBells
    repeat' (first
      | with_reducible rfl
      | split
      | simp [ih])

@[simp] theorem State.ringsRun_wf (s : State) (h : spillWf s.spill = true) : spillWf (State.ringsRun s).spill = true := by
  unfold State.ringsRun
  refine State.wf_foldl _ (fun s r hs => ?_) _ _ h
  split <;> simp [hs]

@[simp] theorem State.addBell_spill (s : State) (r : Nat) : (State.addBell s r).spill = s.spill := by simp [State.addBell]

@[simp] theorem State.modList_spill (s : State) (f : PList → PList) : (State.modList s f).spill = s.spill := rfl

@[simp] theorem State.listEnd_spill (s : State) (st : BitVec 8) : (State.listEnd s st).spill = s.spill := rfl

@[simp] theorem State.listStop_spill (s :
    State) (st : BitVec 8) : (State.listStop s st).spill = s.spill := by simp [State.listStop]

@[simp] theorem State.listReads_wf (n : Nat) (s :
    State) (h : spillWf s.spill = true) : spillWf (State.listReads n s).spill = true := by
  induction n generalizing s with
  | zero => exact h
  | succ n ih =>
    unfold State.listReads
    repeat' (first
      | assumption
      | split
      | simp (maxDischargeDepth := 20) [*])

@[simp] theorem State.listStep_wf (s : State) (hw : spillWf s.spill = true) : spillWf (State.listStep s).spill = true := by
  unfold State.listStep
  repeat' (first
    | assumption
    | with_reducible refine State.wf_branch ?_ ?_
    | split
    | simp (maxDischargeDepth := 20) [*]
    | with_reducible refine State.wf_fst (by assumption) ?_
    | with_reducible refine State.wf_snd (by assumption) ?_)

@[simp] theorem State.listRun_wf (n : Nat) (s :
    State) (h : spillWf s.spill = true) : spillWf (State.listRun n s).spill = true := by
  induction n generalizing s with
  | zero => exact h
  | succ n ih =>
    unfold State.listRun
    repeat' (first
      | assumption
      | split
      | simp (maxDischargeDepth := 20) [*])

@[simp] theorem State.listStart_spill (s :
    State) (addr : BitVec 64) (opc : Nat) (arg : BitVec 2) (count : Nat) : (State.listStart s addr opc arg count).spill = s.spill := by
  simp [State.listStart]

@[simp] theorem State.listRead_spill (s :
    State) (tag : Nat) (lines : List Line) : (State.listRead s tag lines).spill = s.spill := by
  unfold State.listRead; split <;> simp

@[simp] theorem State.listReadError_spill (s :
    State) (tag : Nat) : (State.listReadError s tag).spill = s.spill := by unfold State.listReadError; split <;> simp

@[simp] theorem State.hintSettle_wf (s :
    State) (hw : spillWf s.spill = true) : spillWf (State.hintSettle s).spill = true := by simp [State.hintSettle, *]

@[simp] theorem State.hintSlot_wf (s :
    State) (r : Nat) (hw : spillWf s.spill = true) : spillWf (State.hintSlot s r).spill = true := by
  unfold State.hintSlot
  repeat' (first
    | assumption
    | with_reducible refine State.wf_branch ?_ ?_
    | split
    | simp (maxDischargeDepth := 20) [*]
    | with_reducible refine State.wf_fst (by assumption) ?_
    | with_reducible refine State.wf_snd (by assumption) ?_
    | (rw [State.takeDone_spill (by assumption)]; assumption))

@[simp] theorem State.pinComplete_spill (s :
    State) (p : Page) : (State.pinComplete s p).spill = s.spill := by simp [State.pinComplete]

/-! ### Machine/DirCmds.lean -/

@[simp] theorem State.ringPoll_spill (s : State) : (State.ringPoll s).spill = s.spill := by simp [State.ringPoll]

@[simp] theorem State.masterError_spill (s : State) (tag : Nat) : (State.masterError s tag).spill = s.spill := by
  unfold State.masterError
  repeat' (first
    | split
    | simp)

/-! ### Machine/Castling.lean -/

@[simp] theorem State.landUpdates_spill (s :
    State) (f b : Nat) : (State.landUpdates s f b).spill = s.spill := by unfold State.landUpdates; split <;> simp

@[simp] theorem State.retarget_spill (s :
    State) (f g : Nat) : (State.retarget s f g).spill = s.spill := by unfold State.retarget; split <;> simp

@[simp] theorem State.isolate_spill (s : State) (p : Nat) : (State.isolate s p).spill = s.spill := rfl

@[simp] theorem State.takeRegs_spill (s : State) (f g : Nat) : (State.takeRegs s f g).spill = s.spill := rfl

@[simp] theorem State.modHome_spill (s : State) (n : Nat) (f : Home → Home) : (State.modHome s n f).spill = s.spill := rfl

@[simp] theorem State.redirectTo_spill (s : State) (f g : Nat) : (State.redirectTo s f g).spill = s.spill := rfl

@[simp] theorem State.placeSame_spill (s :
    State) (g : Nat) (it : RItem) : (State.placeSame s g it).spill = s.spill := by unfold State.placeSame; split <;> simp

theorem State.placeFree_spill {s t : State} {g : Nat} {it : RItem} (h : s.placeFree g it = some t) : t.spill = s.spill := by
  unfold State.placeFree at h
  split at h
  · simp only [reduceCtorEq] at h
  · dsimp only at h
    split at h
    all_goals
      repeat' split at h
      all_goals first
        | simp only [reduceCtorEq] at h; done
        | (simp only [Option.some.injEq] at h; subst h; simp)

@[simp] theorem State.resnoop_spill (s :
    State) (g n : Nat) (l : LineAddr) (vic : Bool) : (State.resnoop s g n l vic).spill = s.spill := by
  unfold State.resnoop
  repeat' (first
    | with_reducible rfl
    | with_reducible refine (State.spill_foldl _ (fun s a => ?_) _ _).trans ?_
    | split
    | simp
    | with_reducible refine State.spill_fst (by assumption) ?_
    | with_reducible refine State.spill_snd (by assumption) ?_)

@[simp] theorem State.reissue_wf (s :
    State) (g n : Nat) (a : Ack) (hw : spillWf s.spill = true) : spillWf (State.reissue s g n a).spill = true := by
  unfold State.reissue
  repeat' (first
    | assumption
    | with_reducible refine State.wf_branch ?_ ?_
    | split
    | simp (maxDischargeDepth := 20) [*]
    | with_reducible refine State.wf_fst (by assumption) ?_
    | with_reducible refine State.wf_snd (by assumption) ?_)

@[simp] theorem State.resumeVictim_spill (s : State) (g n : Nat) : (State.resumeVictim s g n).spill = s.spill := by
  unfold State.resumeVictim
  split
  · rfl
  · split <;> simp

@[simp] theorem State.resumeTrk_wf (s :
    State) (g n : Nat) (hw : spillWf s.spill = true) : spillWf (State.resumeTrk s g n).spill = true := by
  unfold State.resumeTrk
  repeat' (first
    | assumption
    | with_reducible refine State.wf_branch ?_ ?_
    | with_reducible refine State.wf_foldl _ (fun s a hs => ?_) _ _ ?_
    | with_reducible apply State.pump_wf
    | with_reducible apply State.feed_wf
    | with_reducible apply State.reissue_wf
    | split
    | simp only [State.spill_ite, State.modTrk_spill, releaseHeld_spill, State.tryRetire_spill, State.resumeVictim_spill]
    | dsimp only
    | with_reducible refine State.wf_fst (by assumption) ?_
    | with_reducible refine State.wf_snd (by assumption) ?_)

@[simp] theorem State.restartCopies_spill (s :
    State) (log : Nat) : (State.restartCopies s log).spill = s.spill := by simp [State.restartCopies]

@[simp] theorem State.recleans_spill (s :
    State) (g log : Nat) : (State.recleans s g log).spill = s.spill := by simp [State.recleans]

@[simp] theorem State.drawStall_spill (s : State) : (State.drawStall s).2.spill = s.spill := rfl

@[simp] theorem State.replayEnd_wf (s : State) (r : Replay) (hw : spillWf s.spill = true) :
    spillWf (State.replayEnd s r).spill = true := by
  unfold State.replayEnd
  extract_lets g kp fs fc c s1 s2 d none_ s3 src s4 s5 s6 ns s7
  have h3 : s3.spill = s.spill := by simp only [s3]; split <;> simp [d, s2, s1]
  have h4 : s4.spill = s.spill := by simp only [s4, State.kpLoads_spill]; exact h3
  have h6 : spillWf s6.spill = true := by
    have h5 : s5.spill = s.spill := by simp only [s5]; split <;> simp [h4]
    simp [s6, h5, hw]
  have h7 : spillWf s7.spill = true := by
    rw [show s7.spill = s6.spill from State.spill_foldl _ (fun s a => by simp) _ _]; exact h6
  have h8 : spillWf (ns.foldl (fun s n => s.resumeTrk g n) s7).spill = true := State.wf_foldl _ (fun s n h => by simp [h]) _ _ h7
  simp [h8]

@[simp] theorem State.busBeat_spill (s :
    State) (b : Nat) : (State.busBeat s b).1.spill = s.spill := by unfold State.busBeat; split <;> simp

theorem State.lostRecord_spill {s : State} {g : Nat} {q : Req} {t : State} (h : State.lostRecord s g q = some t) : t.spill = s.spill := by
  unfold State.lostRecord at h
  repeat' split at h
  all_goals first
    | simp only [reduceCtorEq] at h; done
    | (simp only [Option.some.injEq] at h; subst h; simp)

@[simp] theorem State.placeLost_spill (s : State) (g : Nat) (it : RItem) : (State.placeLost s g it).spill = s.spill := by
  unfold State.placeLost
  split
  · simp
  · simp
  · cases h : s.lostRecord g _ with
    | none => simp
    | some x => exact State.lostRecord_spill h
  · cases h : s.lostRecord g _ with
    | none => simp
    | some x => exact State.lostRecord_spill h
  · rfl

@[simp] theorem State.replayStep_wf (s : State) (r : Replay) (hw : spillWf s.spill = true) :
    spillWf (State.replayStep s r).spill = true := by
  unfold State.replayStep
  extract_lets g d s0
  split
  · exact hw
  · refine State.wf_branch (by simp [hw]) ?_
    have h0 : s0.spill = s.spill := by simp only [s0, d]; split <;> simp
    split
    · rw [h0]; exact hw
    · rename_i s1 e
      have h1 : s1.spill = s.spill := by
        split at e
        · exact (State.placeFree_spill e).trans h0
        · split at e <;> simp only [Option.some.injEq] at e <;> simp [← e, h0]
      extract_lets put c s2 s3
      have h3 : spillWf s3.spill = true := by simp only [s3]; split <;> [(split <;> simp [s2, h1, hw]); simp [s2, h1, hw]]
      clear_value s3
      simp [h3]

@[simp] theorem State.startReplay_spill (s :
    State) (r : Replay) : (State.startReplay s r).spill = s.spill := by simp [State.startReplay]

@[simp] theorem State.takeover_wf (s :
    State) (f b g log : Nat) (c : FailCause) (items : List RItem) (hw : spillWf s.spill = true) : spillWf (State.takeover s f b g log c items).spill = true := by
  simp [State.takeover, *]

@[simp] theorem State.adopt_wf (s :
    State) (f b log : Nat) (c : FailCause) (items : List RItem) (hw : spillWf s.spill = true) : spillWf (State.adopt s f b log c items).spill = true := by
  simp [State.adopt, *]

@[simp] theorem State.dropMoves_spill (s : State) (n : Nat) (p : Nat) : (State.dropMoves s n p).spill = s.spill := by
  unfold State.dropMoves
  repeat' (first
    | with_reducible rfl
    | with_reducible refine (State.spill_foldl _ (fun s a => ?_) _ _).trans ?_
    | split
    | simp
    | with_reducible refine State.spill_fst (by assumption) ?_
    | with_reducible refine State.spill_snd (by assumption) ?_)

@[simp] theorem State.lostWaiting_spill (s :
    State) (port : Nat) : (State.lostWaiting s port).spill = s.spill := by unfold State.lostWaiting; split <;> simp

@[simp] theorem State.loseOne_spill (s : State) (n p : Nat) : (State.loseOne s n p).spill = s.spill := by
  unfold State.loseOne
  repeat' (first
    | with_reducible rfl
    | dsimp only
    | with_reducible refine State.spill_branch ?_ ?_
    | with_reducible refine (State.spill_foldl _ (fun s a => ?_) _ _).trans ?_
    | split
    | simp
    | with_reducible refine State.spill_fst (by assumption) ?_
    | with_reducible refine State.spill_snd (by assumption) ?_)

@[simp] theorem State.lose_wf (s :
    State) (p : Nat) (hw : spillWf s.spill = true) : spillWf (State.lose s p).spill = true := by
  unfold State.lose
  repeat' (first
    | assumption
    | with_reducible refine State.wf_branch ?_ ?_
    | with_reducible refine State.wf_foldl _ (fun s a hs => ?_) _ _ ?_
    | split
    | simp (maxDischargeDepth := 20) [*]
    | with_reducible refine State.wf_fst (by assumption) ?_
    | with_reducible refine State.wf_snd (by assumption) ?_)

@[simp] theorem State.reserveLost_wf (s :
    State) (p : Nat) (r : Replay) (hw : spillWf s.spill = true) : spillWf (State.reserveLost s p r).spill = true := by
  unfold State.reserveLost; split <;> simp [*]

@[simp] theorem State.servingFails_wf (s :
    State) (p : Nat) (sl : Slice) (c : FailCause) (hw : spillWf s.spill = true) : spillWf (State.servingFails s p sl c).spill = true := by
  unfold State.servingFails
  repeat' (first
    | assumption
    | with_reducible refine State.wf_branch ?_ ?_
    | split
    | simp (maxDischargeDepth := 20) [*]
    | with_reducible refine State.wf_fst (by assumption) ?_
    | with_reducible refine State.wf_snd (by assumption) ?_)

@[simp] theorem State.declare_wf (s :
    State) (p : Nat) (cause : BitVec 4) (hw : spillWf s.spill = true) : spillWf (State.declare s p cause).spill = true := by
  unfold State.declare
  repeat' (first
    | assumption
    | with_reducible refine State.wf_branch ?_ ?_
    | split
    | simp (maxDischargeDepth := 20) [*]
    | with_reducible refine State.wf_fst (by assumption) ?_
    | with_reducible refine State.wf_snd (by assumption) ?_)

@[simp] theorem State.castleReplay_wf (s :
    State) (p : Nat) (hw : spillWf s.spill = true) : spillWf (State.castleReplay s p).spill = true := by
  unfold State.castleReplay
  repeat' (first
    | assumption
    | with_reducible refine State.wf_branch ?_ ?_
    | split
    | simp (maxDischargeDepth := 20) [*]
    | with_reducible refine State.wf_fst (by assumption) ?_
    | with_reducible refine State.wf_snd (by assumption) ?_)

@[simp] theorem State.adoptionMove_wf (s :
    State) (p : Nat) (hw : spillWf s.spill = true) : spillWf (State.adoptionMove s p).spill = true := by
  unfold State.adoptionMove
  repeat' (first
    | assumption
    | with_reducible refine State.wf_branch ?_ ?_
    | split
    | simp (maxDischargeDepth := 20) [*]
    | with_reducible refine State.wf_fst (by assumption) ?_
    | with_reducible refine State.wf_snd (by assumption) ?_)

@[simp] theorem State.pairProtected_spill (s :
    State) (p : Nat) : (State.pairProtected s p).spill = s.spill := by simp [State.pairProtected]

@[simp] theorem State.resyncDone_wf (s :
    State) (p : Nat) (hw : spillWf s.spill = true) : spillWf (State.resyncDone s p).spill = true := by
  unfold State.resyncDone
  repeat' (first
    | assumption
    | with_reducible refine State.wf_branch ?_ ?_
    | split
    | simp (maxDischargeDepth := 20) [*]
    | with_reducible refine State.wf_fst (by assumption) ?_
    | with_reducible refine State.wf_snd (by assumption) ?_)

/-! ### Machine/Boundary.lean -/

@[simp] theorem State.commitForce_spill (s : State) : (State.commitForce s).spill = s.spill := by simp [State.commitForce]

@[simp] theorem State.limitsFollow_spill (s :
    State) (p : Nat) (offs : List Nat) : (State.limitsFollow s p offs).spill = s.spill := by simp [State.limitsFollow]

@[simp] theorem State.sliceBoundary_spill (s :
    State) (offs : List Nat) (p : Nat) : (State.sliceBoundary s offs p).spill = s.spill := by
  unfold State.sliceBoundary; split <;> simp

@[simp] theorem State.logsAnew_spill (s : State) : (State.logsAnew s).spill = s.spill := rfl

@[simp] theorem State.rootTick_spill (s : State) : (State.rootTick s).spill = s.spill := by simp [State.rootTick]

@[simp] theorem State.directorDue_spill (s : State) : (State.directorDue s).spill = s.spill := rfl

@[simp] theorem State.moveBoundary_wf (s :
    State) (hw : spillWf s.spill = true) : spillWf (State.moveBoundary s).spill = true := by
  unfold State.moveBoundary
  repeat' (first
    | assumption
    | with_reducible refine State.wf_branch ?_ ?_
    | with_reducible refine State.wf_foldl _ (fun s a hs => ?_) _ _ ?_
    | split
    | simp (maxDischargeDepth := 20) [*]
    | with_reducible refine State.wf_fst (by assumption) ?_
    | with_reducible refine State.wf_snd (by assumption) ?_)

@[simp] theorem State.p1Gate_spill (s :
    State) (p : Nat) : (State.p1Gate s p).spill = s.spill := by unfold State.p1Gate; split <;> simp

/-! ### Machine/Start.lean -/

@[simp] theorem State.egReset_spill (s : State) : (State.egReset s).spill = s.spill := rfl

@[simp] theorem State.blkReset_spill (s : State) : (State.blkReset s).spill = s.spill := rfl

@[simp] theorem State.selfTest_spill (s :
    State) (p : Nat) (pass : Bool) : (State.selfTest s p pass).spill = s.spill := by unfold State.selfTest; split <;> simp

@[simp] theorem State.headersRead_spill (s :
    State) (a b : List Byte) (x : Option Sfdp) : (State.headersRead s a b x).spill = s.spill := by simp [State.headersRead]

@[simp] theorem State.slotLoaded_spill (s :
    State) (bytes : List Byte) : (State.slotLoaded s bytes).spill = s.spill := by simp [State.slotLoaded]

@[simp] theorem State.setup_spill (s : State) : (State.setup s).spill = s.spill := by simp [State.setup]

@[simp] theorem State.seedLfsr_spill (s : State) (p : Nat) : (State.seedLfsr s p).spill = s.spill := rfl

@[simp] theorem State.p2Enter_spill (s : State) : (State.p2Enter s).spill = s.spill := by simp [State.p2Enter]

@[simp] theorem State.asked_spill (s : State) : (State.asked s).spill = s.spill := by simp [State.asked]

@[simp] theorem State.blindPins_spill (s : State) : (State.blindPins s).spill = s.spill := rfl

@[simp] theorem State.restartDone_spill (s : State) : (State.restartDone s).spill = s.spill := by
  unfold State.restartDone
  repeat' (first
    | with_reducible rfl
    | with_reducible refine State.spill_branch ?_ ?_
    | with_reducible refine (State.spill_foldl _ (fun s a => ?_) _ _).trans ?_
    | split
    | simp
    | with_reducible refine State.spill_fst (by assumption) ?_
    | with_reducible refine State.spill_snd (by assumption) ?_)

@[simp] theorem State.reload_spill (s :
    State) (a b : List Byte) : (State.reload s a b).spill = s.spill := by simp [State.reload]

/-! ### Machine/Power.lean -/

@[simp] theorem State.egRuns_spill (s :
    State) (f : State → State) (hf : ∀ s, (f s).spill = s.spill) : (State.egRuns s f).spill = s.spill := by
  unfold State.egRuns
  repeat' (first
    | split
    | simp
    | exact hf _)

@[simp] theorem State.debounced_spill (s : State) : (State.debounced s).spill = s.spill := by simp [State.debounced]

@[simp] theorem State.rideEnds_spill (s : State) : (State.rideEnds s).spill = s.spill := by simp [State.rideEnds]

@[simp] theorem State.rideRecovers_spill (s : State) : (State.rideRecovers s).spill = s.spill := by simp [State.rideRecovers]

@[simp] theorem State.drainDone_spill (s : State) : (State.drainDone s).spill = s.spill := by simp [State.drainDone]

@[simp] theorem State.gpfOne_spill (s : State) : (State.gpfOne s).spill = s.spill := rfl

@[simp] theorem State.gpfTwo_spill (s : State) : (State.gpfTwo s).spill = s.spill := by simp [State.gpfTwo]

@[simp] theorem State.gpf_spill (s : State) (n : Nat) : (State.gpf s n).spill = s.spill := by simp [State.gpf]

@[simp] theorem State.gpfOneDone_spill (s : State) : (State.gpfOneDone s).spill = s.spill := by simp [State.gpfOneDone]

@[simp] theorem State.p2Exit_spill (s : State) : (State.p2Exit s).spill = s.spill := by simp [State.p2Exit]

@[simp] theorem State.p2After_spill (s : State) : (State.p2After s).spill = s.spill := by simp [State.p2After]

@[simp] theorem State.p2Done_spill (s : State) : (State.p2Done s).spill = s.spill := by simp [State.p2Done]

@[simp] theorem State.d3hot_spill (s : State) : (State.d3hot s).spill = s.spill := by unfold State.d3hot; split <;> simp

@[simp] theorem State.d0_spill (s : State) : (State.d0 s).spill = s.spill := by unfold State.d0; split <;> simp

@[simp] theorem State.p3_spill (s : State) : (State.p3 s).spill = s.spill := by simp [State.p3]

@[simp] theorem State.warmAsk_spill (s : State) : (State.warmAsk s).spill = s.spill := by simp [State.warmAsk]

@[simp] theorem State.warmDirector_spill (s : State) : (State.warmDirector s).spill = s.spill := by simp [State.warmDirector]

@[simp] theorem State.warmReset_spill (s : State) : (State.warmReset s).spill = s.spill := by
  unfold State.warmReset
  repeat' (first
    | with_reducible rfl
    | with_reducible refine (State.spill_foldl _ (fun s a => ?_) _ _).trans ?_
    | split
    | simp
    | with_reducible refine State.spill_fst (by assumption) ?_
    | with_reducible refine State.spill_snd (by assumption) ?_)

/-! ### Machine/RegWrite.lean -/

@[simp] theorem State.acceptLoss_spill (s : State) : (State.acceptLoss s).spill = s.spill := by simp [State.acceptLoss]

@[simp] theorem State.egCtl_spill (s : State) (w : W32) : (State.egCtl s w).spill = s.spill := by simp [State.egCtl]

@[simp] theorem State.ldRot_spill (s : State) (w : W32) : (State.ldRot s w).spill = s.spill := by simp [State.ldRot]

@[simp] theorem State.ringReset_spill (s :
    State) (w : W32) : (State.ringReset s w).spill = s.spill := by simp [State.ringReset]

@[simp] theorem State.listCtl_wf (s :
    State) (w : W32) (hw : spillWf s.spill = true) : spillWf (State.listCtl s w).spill = true := by simp [State.listCtl, *]

@[simp] theorem State.preCmd_spill (s :
    State) (p : Nat) (w : W32) : (State.preCmd s p w).spill = s.spill := by unfold State.preCmd; split <;> simp

@[simp] theorem State.pmcClr_spill (s : State) (p : Nat) (w : W32) : (State.pmcClr s p w).spill = s.spill := rfl

@[simp] theorem State.regCommand_wf (s :
    State) (o : Nat) (w : W32) (hw : spillWf s.spill = true) : spillWf (State.regCommand s o w).spill = true := by
  unfold State.regCommand
  repeat' (first
    | assumption
    | with_reducible refine State.wf_branch ?_ ?_
    | split
    | simp (maxDischargeDepth := 20) [*]
    | with_reducible refine State.wf_fst (by assumption) ?_
    | with_reducible refine State.wf_snd (by assumption) ?_)

@[simp] theorem State.baseWrite_wf (s :
    State) (o : Nat) (w : RegAcc) (hw : spillWf s.spill = true) : spillWf (State.baseWrite s o w).spill = true := by
  unfold State.baseWrite; split <;> simp [*]

@[simp] theorem State.aliasWrite_spill (s :
    State) (o view : Nat) (w : RegAcc) : (State.aliasWrite s o view w).spill = s.spill := by
  unfold State.aliasWrite; split <;> simp

@[simp] theorem State.regWrite_wf (s :
    State) (off : BitVec 27) (w : RegAcc) (hw : spillWf s.spill = true) : spillWf (State.regWrite s off w).spill = true := by
  unfold State.regWrite
  repeat' (first
    | assumption
    | with_reducible refine State.wf_branch ?_ ?_
    | split
    | simp (maxDischargeDepth := 20) [*]
    | with_reducible refine State.wf_fst (by assumption) ?_
    | with_reducible refine State.wf_snd (by assumption) ?_)

@[simp] theorem State.romRead_spill (s : State) (off : BitVec 27) : (State.romRead s off).spill = s.spill := rfl

@[simp] theorem State.romWrite_spill (s : State) : (State.romWrite s).spill = s.spill := rfl

@[simp] theorem State.aperture_wf (s :
    State) (o : Nat) (a : AgentMsg) (data : Line) (hw : spillWf s.spill = true) : spillWf (State.aperture s o a data).spill = true := by
  unfold State.aperture; split <;> simp [*]

@[simp] theorem State.writeAt_wf (s :
    State) (o : Nat) (w : RegAcc) (hw : spillWf s.spill = true) : spillWf (State.writeAt s o w).spill = true := by
  simp [State.writeAt, *]

@[simp] theorem State.writeSl_wf (s :
    State) (p o : Nat) (w : RegAcc) (hw : spillWf s.spill = true) : spillWf (State.writeSl s p o w).spill = true := by
  simp [State.writeSl, *]

@[simp] theorem State.readAt_spill (s :
    State) (o : Nat) (r : RegRd) : (State.readAt s o r).spill = s.spill := by simp [State.readAt]

end Sys2Proof.Machine
end

