-- ==== Sys2Proof/Tests/Slice0.lean ====
section
/-! SUPPORT. Tests: for every statement with hypotheses, concrete states and operands that meet them, clause by clause; ill-formed
commands that WellFormed refuses; single steps on small states. -/

set_option maxRecDepth 100000
set_option linter.unreachableTactic false
set_option linter.unusedTactic false
set_option exponentiation.threshold 600

namespace Sys2Proof.Tests

open Sys2Proof.Machine

/-- An empty list of a type. -/
abbrev nilOf (α : Type) : List α := []
/-- A step answers a next state of which something holds. -/
def nextIs (o : Host.Outcome State Fault Refusal) (f : State → Bool) : Bool := match o with | .next t => f t | _ => false
/-- A slice that serves as logical number n. -/
def sl0 (n : Nat) : Slice := { Slice.blank 16 8 with ident := { (Slice.blank 16 8).ident with role := .active, logA := n } }

/-- A host identity on port 0. -/
def hid0 (st : HidSt) : Hid := ⟨true, 1, 0, 0, 100, st, 0⟩

/-- A block that serves: every link up, HID 0 Bound, one HDM-DB window of 32 GiB, sixteen active slices, agent 0 of port 0 caching. -/
def up : State := { State.reset with
  pins := { Pins.blank with egPor := true, blkPor := true }
  gl := { Gl.blank with phase := 5, serving := true }
  eg := { Endgame.blank with pstate := .normal, good := true }
  cfg := { Cfg.blank with windows := [⟨0, 256, 1, 1⟩] }
  hostPorts := List.replicate 8 { HostPort.blank with linkUp := true }
  hids := hid0 .bound :: List.replicate 63 Hid.blank
  slices := (List.range 16).map sl0 ++ [Slice.blank 16 8]
  cast := { Cast.blank with homes := (List.range 16).map fun k => ⟨true, false, false, k⟩ } }

/-- Change slice 0. -/
def State.at0 (s : State) (f : Slice → Slice) : State := s.modSlice 0 f
/-- A host port with its link up. -/
def hp0 : HostPort := { HostPort.blank with linkUp := true }
/-- A host message of port 0 at an address. -/
def hm (a : Addr) : HostMsg := ⟨0, 0, 0, 5, a, 0, 0, 0, false, .input⟩
/-- A request of agent 0 on port 0 that goes on to its home's input. -/
def am1 (opc : BitVec 6) : AgentMsg := ⟨0, opc, 3, 0, 1, 1, 0, 0, 0, false, .input⟩
/-- A request of agent 0 on port 0. -/
def am (opc : BitVec 6) : AgentMsg := ⟨0, opc, 3, 0, 1, 0, 0, 0, 0, false, .port⟩
/-- A BIRsp of port 0 for line 0. -/
def r0 : BiRsp := ⟨0, 0, 0, 0⟩
/-- A host request of class Q for line 0. -/
def q0 : Req := ownReq .memInv (.host 0 0) 5 0 .q
/-- An agent's request for line 0. -/
def qa (k : Inp) : Req := ownReq k (.agent 0 0 1) 3 0 .q
/-- A tracker that has just opened. -/
def t0 (q : Req) : Tracker := newTracker 0 .shared q false
/-- A request held by port 0. -/
def pr (k : Inp) (buf : Bool) (st : ReqStage) : PortReq := ⟨qa k, 0, 1, buf, false, st, [], none, none, false, false⟩
/-- The form that its port holds of it. -/
def pr1 (k : Inp) (opc : BitVec 6) : PortReq := ({ State.reset with cfg := { Cfg.blank with windows := [⟨0, 256, 1, 1⟩] } } : State).portReqOf k (am1 opc) 0 false
/-- An RdCur that waits behind a WbDirty of its line. -/
def prc : PortReq := { pr .rdCur false .buffered with req := { qa .rdCur with tag := 4 } }
/-- The same, in its place in the thread's order. -/
def prs (k : Inp) (st : ReqStage) : PortReq := { pr k false st with req := { qa k with seq := 1 } }
/-- The response of slice 0 to that request. -/
def rsp0 : ARsp := ⟨0, .cmp, 3, 0, 1, 0, none, false, false, false, false, false, false, false⟩
/-- Thread 1 of agent 0 on port 0. -/
def th : ThreadId := ⟨0, 0, 1⟩
/-- A snoop flit of slice 0 for line 0. -/
def sf0 : SnpFlit := ⟨0, 0, .inv, 0, false, 0, false, 0, 0, false, 0, [], false, 0, false⟩
/-- A queued snoop. -/
def se0 : SnpEnt := ⟨0, sf0, false, [], [], none⟩
/-- An agent port of the serving block: agent 0 may hold four requests. -/
def ap0 : AgentPort := { AgentPort.blank 17 with assigned := [4, 0, 0, 0] }
/-- The block with agent 0 of port 0 enabled and caching, and one agent port that differs. -/
def upA (a : AgentPort) : State := { up with
  regs := ⟨[], [(0x40000, 0xC0000000)]⟩
  agentPorts := a :: List.replicate 7 (AgentPort.blank 17) }
/-- A snoop to be answered anew, one that leaves copies, and one whose data may be forwarded. -/
def seR : SnpEnt := ⟨0, { sf0 with retry := true }, false, [], [], none⟩
def seS : SnpEnt := ⟨0, { sf0 with kind := .shr }, true, [0], [], none⟩
def seF : SnpEnt := ⟨0, { sf0 with fwdOk := true, fwdPort := 0, reqPort := 1, reqAgent := 2 }, true, [0], [], none⟩
/-- Port 0 holds an unanswered request of agent 0 for line 0. -/
def apF : AgentPort := { ap0 with held := [{ pr .rdOwn false .sent with req := { qa .rdOwn with tag := 5 } }] }
/-- A host port with one message to deliver. -/
def s2m0 : S2M := ⟨0, 0, none, .ndr .cmp 5, false, 0⟩
def hpM : HostPort := { hp0 with egress := [s2m0] }
def upM : State := { up with hostPorts := hpM :: List.replicate 7 hp0 }
/-- The same, sent by slice 0. -/
def hpM0 : HostPort := { hp0 with egress := [{ s2m0 with phys := some 0 }] }
def upM0 : State := { up with hostPorts := hpM0 :: List.replicate 7 hp0 }
/-- The same for HID 1, which port 1 reaches too. -/
def s2mE : S2M := ⟨1, 0, some 0, .ndr .cmpE 5, false, 3⟩
def hpM1 : HostPort := { hp0 with egress := [s2mE] }
def upM1 : State := { up with
  hostPorts := hpM1 :: List.replicate 7 hp0
  hids := hid0 .bound :: { hid0 .bound with portMask := 3, value := 1 } :: List.replicate 62 Hid.blank }
/-- A port that keeps a request for line 0. -/
def hpW : HostPort := { hp0 with waiting := [ownReq .memInv (.host 0 0) 4 0 .q] }
def upW2 : State := { up with hostPorts := hpW :: List.replicate 7 hp0 }
/-- The setup walk has failed. -/
def upFail : State := { up with gl := { up.gl with setupFail := true, phase := 6 } }
/-- No slice holds logical 0. -/
def upNoHome : State := { up with cast := { up.cast with homes := ⟨false, false, false, 0⟩ :: (List.range 15).map fun k => ⟨true, false, false, k + 1⟩ } }
/-- HID 0 in a given state. -/
def upH (st : HidSt) : State := { up with hids := hid0 st :: List.replicate 63 Hid.blank }
def upDown : State := { upH .absent with hostPorts := List.replicate 8 HostPort.blank }
/-- A slice with one tracker that awaits HID 0. -/
def slT (t : Tracker) : Slice := { sl0 0 with trk := [t] }
def upT (t : Tracker) : State := up.modSlice 0 fun x => { x with trk := [t] }
def tH : Tracker := { t0 q0 with hsnp := [⟨0, 0, .inv, false⟩] }



/-- Slice 0 of a state. -/
def sliceOf (s : State) : Slice := (s.slice 0).getD (sl0 0)
/-- A read command of a tracker at memory port 0. -/
def mc (o : MemOwner) (k : MemKind) : MemCmd := ⟨0, k, false, 0, 0, 0, 0, 0, false, o, false⟩
def mp0 (c : MemCmd) : MemPort := ⟨[c], [], 0, 0⟩
def upMem (c : MemCmd) : State := { up with memPorts := mp0 c :: List.replicate 15 ⟨[], [], 0, 0⟩ }
/-- The block with a command under way that a tracker of slice 0 waits for. -/
def upMT (c : MemCmd) (t : Tracker) : State := { upT t with memPorts := mp0 c :: List.replicate 15 ⟨[], [], 0, 0⟩ }
/-- A cache line, clean or dirty. -/
def cl (d : Bool) : CLine := ⟨0, d, 0, false, false, false, 7⟩
/-- A write-queue entry. -/
def wq (n : Nat) (i : Bool) : WpqEnt := ⟨n, 0, 7, 0, false, i, false⟩
/-- A page-map entry of a plain near page. -/
def peN : PEnt := { PEnt.fresh 0 0 with tier := 1, frame := 0 }
/-- A region of near memory of 1 GiB and an enabled director. -/
def upN : State := { up with cfg := { up.cfg with near := ⟨0, 1⟩ }, dir := { up.dir with loaded := [(0, 0)] } }
/-- A page's promotion in the given stage. -/
def mv (k : MoveKind) (st : MoveStage) : Move := ⟨0, k, st, [], 0, none, 0, 0, false, false, false, 0, false, false⟩

/-- Page 0 in near memory, with its frame. -/
def dNear : Director := { Director.blank with loaded := [(0, 0)], pages := [(0, peN)], frames := [(0, ⟨0, 0⟩)] }
/-- Page 0 in the persistent tier. -/
def dFar : Director := { Director.blank with loaded := [(0, 0)] }
/-- The block with a director and messages of the network. -/
def upDN (d : Director) (m : List NMsg) : State := { upN with dir := d, net := m }
/-- The same with a promotion or another move of page 0. -/
def upMv (d : Director) (k : MoveKind) (st : MoveStage) (m : List NMsg) : State := upDN { d with moves := [mv k st] } m
/-- A page map entry of a dirty near page. -/
def dDirty : Director := { dNear with pages := [(0, { peN with dirty := true })], dirtyFrames := [0], d := 1 }
/-- One tier-engine command with CTAG 5. -/
def te5 (o : TeOp) (u : PerUse) (d : Director) : State := { upN with dir := d, dctl := { DirCtl.blank with te := [⟨5, o, u⟩] } }
/-- A move whose engine command has CTAG 5. -/
def mv5 (k : MoveKind) (st : MoveStage) : Move := { mv k st with ctag := 5 }
/-- A register write with every byte enabled, privileged and secure. -/
def ra (d : W32) : RegAcc := ⟨d, 15, true, true⟩
/-- A register read, privileged and secure. -/
def rr : RegRd := ⟨15, true, true⟩

/-- The header of a usable image slot of YZH-16S, with SEQ 7 (R468, R475). -/
def hdr16 : List Byte := [199, 81, 138, 62, 3, 0, 16, 0, 0, 202, 0, 0, 7, 0, 0, 0, 10, 0, 0, 0, 0, 0, 0, 0, 0, 0, 0, 0, 0, 0, 0, 0, 0, 0, 0, 0, 0, 0, 0, 0, 0, 0, 0, 0, 0, 0, 0, 0, 0, 0, 0, 0, 0, 0, 0, 0, 0, 0, 0, 0, 36, 173, 53, 211]
/-- Every self-test passed, a slot accepted. -/
def upW (n : Nat) : State := { up with
  gl := Gl.blank
  ld := { Loader.blank with state := .loading, accepted := true }
  slices := (List.range 17).map fun p => { Slice.blank 16 8 with ident := { (Slice.blank 16 8).ident with selfTest := some (decide (p < n)) } } }
/-- The block with a loader in some state. -/
def upL (l : Loader) : State := { up with ld := l }
/-- SFDP tables of a 2 MiB device. -/
def sf3 : Sfdp := ⟨0x1000000, true, false, false, false, true, some 256, [4096]⟩
/-- A warm reset acknowledged, with a reload armed. -/
def upR : State := { up with
  pwr := { Power.blank with warm := true, warmAck := true }
  ld := { Loader.blank with state := .loaded, armed := true, sfdp := some sf3 } }
/-- A fetch at a step. -/
def upF (f : FetchStep) : State := upL { Loader.blank with state := .loaded, sfdp := some sf3, fetch := some ⟨f, true, [1], [0]⟩ }
/-- The fetch of that state. -/
def fe (f : FetchStep) : Fetch := ⟨f, true, [1], [0]⟩
/-- The Endgame unit in a state, with its power-on reset released. -/
def upE (f : PState) : State := { up with eg := { up.eg with pstate := f } }
/-- The block with a power state. -/
def upP (p : Power) : State := { up with pwr := p }

/-- A safe block with a doorbell waiting, as a command and as a message, for a ring that does not exist. -/
def upQ : State := { up with pending := [.doorbell 16000], net := [.doorbell 16000], regs := ⟨[], [(0x30028, 4)]⟩ }

/-- The header of a root copy with every field 0 but PIN_CRC, chosen so that HDR_CRC is all ones (R393, R394). -/
def rootLines : List PLine := ⟨0x179710C3E ||| (0xfea209f4 <<< 288), false⟩ :: List.replicate 62 ⟨0, false⟩ ++ [⟨0xFFFFFFFF <<< 480, false⟩]
/-- The bytes of that header. -/
def rootBytes : List Byte := linesBytes (rootLines.map PLine.data)

/-- Zero bytes leave the CRC register at zero. -/
theorem crc_zeros (n : Nat) : (List.replicate n (0 : Byte)).foldl crcByte 0 = 0 := by
  induction n with
  | zero => rfl
  | succ n ih => rw [List.replicate_succ, List.foldl_cons, show crcByte 0 0 = 0 by decide, ih]

/-- That header is valid (R394). -/
theorem rootBytes_valid : headerValid rootBytes = true := by
  have h : rootBytes.take 0xFFC = rootBytes.take 40 ++ List.replicate 4052 0 := by decide
  have c : (rootBytes.take 40).foldl crcByte 0xFFFFFFFF = 0 := by decide
  have v : crc32c (rootBytes.take 0xFFC) = 0xFFFFFFFF := by rw [h, crc32c, List.foldl_append, c, crc_zeros]; decide
  have f : fieldAt rootBytes 0 4 = 0x79710C3E ∧ fieldAt rootBytes 4 2 = 1 ∧ fieldAt rootBytes 6 1 = 0 ∧ fieldAt rootBytes 0xC 4 = 0 ∧
      fieldAt rootBytes 0xFFC 4 = 0xFFFFFFFF := by decide
  obtain ⟨f1, f2, f3, f4, f5⟩ := f
  simp only [headerValid, f1, f2, f3, f4, f5, v]
  decide

/-- A block in which no return queue holds a message and no tracker waits for HID 0. -/
theorem noReturns {s : State} (h : ∀ sl ∈ s.slices, sl.waitsFor 0 = [] ∧ sl.retq = []) :
    ∀ sl ∈ s.slices, sl.waitsFor 0 = [] ∧ ∀ m ∈ sl.retq, m.hid = 0 → ∀ t, m.body ≠ .ndr .cmpE t := by
  intro sl hs
  have ⟨a, b⟩ := h sl hs
  exact ⟨a, by rw [b]; intro m hm; cases hm⟩

/-! ### States and operands of the witnesses -/

/-- A State that meets the hypotheses of a clause. -/
def w0 : State := { up with pending := [.issueSlot 0] }
/-- A HostMsg that meets the hypotheses of a clause. -/
def w1 : HostMsg := { hm 0 with reach := .home }
/-- A Instr that meets the hypotheses of a clause. -/
def w2 : Instr := .memInv { hm 0 with reach := .home }
/-- A HostMsg that meets the hypotheses of a clause. -/
def w3 : HostMsg := { hm 0 with reach := .port }
/-- A Instr that meets the hypotheses of a clause. -/
def w4 : Instr := .memWr { hm 0 with reach := .port } 0 false
/-- A BiRsp that meets the hypotheses of a clause. -/
def w5 : BiRsp := { r0 with port := 1 }
/-- A Instr that meets the hypotheses of a clause. -/
def w6 : Instr := .biRspI { r0 with port := 1 }
/-- A List LineAddr that meets the hypotheses of a clause. -/
def w7 : List LineAddr := [({ r0 with port := 1 } : BiRsp).line]
/-- A S2M that meets the hypotheses of a clause. -/
def w8 : S2M := { s2m0 with phys := some 0 }
/-- A State that meets the hypotheses of a clause. -/
def w9 : State := upA { ap0 with held := [pr .wbDirty true .buffered] }
/-- A AgentPort that meets the hypotheses of a clause. -/
def w10 : AgentPort := { ap0 with held := [pr .wbDirty true .buffered] }
/-- A AgentPort that meets the hypotheses of a clause. -/
def w11 : AgentPort := { ap0 with held := [pr1 .rdOwn 0x11] }
/-- A AgentPort that meets the hypotheses of a clause. -/
def w12 : AgentPort := { apF with held := apF.held ++ [pr1 .rdShared 0x10] }
/-- A State that meets the hypotheses of a clause. -/
def w13 : State := upA { ap0 with held := [pr .wbDirty true .buffered, prc] }
/-- A AgentPort that meets the hypotheses of a clause. -/
def w14 : AgentPort := { ap0 with held := [pr .wbDirty true .buffered, prc] }
/-- A State that meets the hypotheses of a clause. -/
def w15 : State := upA { ap0 with held := [pr .fence false .buffered] }
/-- A AgentPort that meets the hypotheses of a clause. -/
def w16 : AgentPort := { ap0 with held := [pr .fence false .buffered] }
/-- A State that meets the hypotheses of a clause. -/
def w17 : State := upA { ap0 with held := [pr .wrCond true .buffered] }
/-- A AgentPort that meets the hypotheses of a clause. -/
def w18 : AgentPort := { ap0 with held := [pr .wrCond true .buffered] }
/-- A State that meets the hypotheses of a clause. -/
def w19 : State := upA { ap0 with held := [pr .wrCond true .buffered], resv := [(th, 0)] }
/-- A AgentPort that meets the hypotheses of a clause. -/
def w20 : AgentPort := { ap0 with held := [pr .wrCond true .buffered], resv := [(th, 0)] }
/-- A State that meets the hypotheses of a clause. -/
def w21 : State := upA { ap0 with held := [pr .rdRes false .buffered] }
/-- A AgentPort that meets the hypotheses of a clause. -/
def w22 : AgentPort := { ap0 with held := [pr .rdRes false .buffered] }
/-- A State that meets the hypotheses of a clause. -/
def w23 : State := upA { ap0 with held := [pr .rdOwn false .buffered] }
/-- A AgentPort that meets the hypotheses of a clause. -/
def w24 : AgentPort := { ap0 with held := [pr .rdOwn false .buffered] }
/-- A State that meets the hypotheses of a clause. -/
def w25 : State := upA { ap0 with held := [pr .rdOwn false .sent, pr .wbDirty true .buffered] }
/-- A AgentPort that meets the hypotheses of a clause. -/
def w26 : AgentPort := { ap0 with held := [pr .rdOwn false .sent, pr .wbDirty true .buffered] }
/-- A State that meets the hypotheses of a clause. -/
def w27 : State := upA { ap0 with held := [{ pr .fence false .sent with fenceWait := [0] }] }
/-- A AgentPort that meets the hypotheses of a clause. -/
def w28 : AgentPort := { ap0 with held := [{ pr .fence false .sent with fenceWait := [0] }] }
/-- A PortReq that meets the hypotheses of a clause. -/
def w29 : PortReq := { pr .fence false .sent with fenceWait := [0] }
/-- A State that meets the hypotheses of a clause. -/
def w30 : State := (upA { ap0 with held := [{ pr .fence false .sent with fenceWait := [0] }] }).modSlice 0 (fun x => { x with dir := { x.dir with fences := [th] } })
/-- A Slice that meets the hypotheses of a clause. -/
def w31 : Slice := { sl0 0 with dir := { (sl0 0).dir with fences := [th] } }
/-- A State that meets the hypotheses of a clause. -/
def w32 : State := (upA { ap0 with held := [{ pr .fence false .sent with fenceWait := [0] }] }).modSlice 0 (fun x => { x with trk := [t0 (qa .wbDirty)] })
/-- A State that meets the hypotheses of a clause. -/
def w33 : State := upA { ap0 with held := [pr .evictClean false .sent], inbound := [rsp0] }
/-- A AgentPort that meets the hypotheses of a clause. -/
def w34 : AgentPort := { ap0 with held := [pr .evictClean false .sent], inbound := [rsp0] }
/-- A State that meets the hypotheses of a clause. -/
def w35 : State := upA { ap0 with held := [{ prs .evictClean .received with rsp := some rsp0 }] }
/-- A AgentPort that meets the hypotheses of a clause. -/
def w36 : AgentPort := { ap0 with held := [{ prs .evictClean .received with rsp := some rsp0 }] }
/-- A PortReq that meets the hypotheses of a clause. -/
def w37 : PortReq := { prs .evictClean .received with rsp := some rsp0 }
/-- A State that meets the hypotheses of a clause. -/
def w38 : State := upA { ap0 with held := [prs .evictClean .sent] }
/-- A AgentPort that meets the hypotheses of a clause. -/
def w39 : AgentPort := { ap0 with held := [prs .evictClean .sent] }
/-- A State that meets the hypotheses of a clause. -/
def w40 : State := { upA { ap0 with held := [pr .rdOwn false .sent] } with ring := [.fwdData 1 0 0 0 0 true false 0 false] }
/-- A AgentPort that meets the hypotheses of a clause. -/
def w41 : AgentPort := { ap0 with held := [pr .rdOwn false .sent] }
/-- A State that meets the hypotheses of a clause. -/
def w42 : State := { upA ap0 with ring := [.fwdData 1 0 0 0 0 true false 3 true] }
/-- A State that meets the hypotheses of a clause. -/
def w43 : State := upA { ap0 with resv := [(th, 0)] }
/-- A AgentPort that meets the hypotheses of a clause. -/
def w44 : AgentPort := { ap0 with resv := [(th, 0)] }
/-- A State that meets the hypotheses of a clause. -/
def w45 : State := { upA ap0 with ringSnoops := [sf0] }
/-- A State that meets the hypotheses of a clause. -/
def w46 : State := { upA ap0 with ringSnoops := [{ sf0 with dmask := 0xFE }] }
/-- A SnpFlit that meets the hypotheses of a clause. -/
def w47 : SnpFlit := { sf0 with dmask := 0xFE }
/-- A State that meets the hypotheses of a clause. -/
def w48 : State := upA { ap0 with snq := [{ se0 with flit := { sf0 with counts := [1] } }] }
/-- A AgentPort that meets the hypotheses of a clause. -/
def w49 : AgentPort := { ap0 with snq := [{ se0 with flit := { sf0 with counts := [1] } }] }
/-- A SnpEnt that meets the hypotheses of a clause. -/
def w50 : SnpEnt := { se0 with flit := { sf0 with counts := [1] } }
/-- A State that meets the hypotheses of a clause. -/
def w51 : State := upA { ap0 with snq := [seR], kept := [⟨0, 0, 0, .rspS⟩] }
/-- A AgentPort that meets the hypotheses of a clause. -/
def w52 : AgentPort := { ap0 with snq := [seR], kept := [⟨0, 0, 0, .rspS⟩] }
/-- A State that meets the hypotheses of a clause. -/
def w53 : State := upA { ap0 with snq := [se0], held := [pr .wbDirty true .sent] }
/-- A AgentPort that meets the hypotheses of a clause. -/
def w54 : AgentPort := { ap0 with snq := [se0], held := [pr .wbDirty true .sent] }
/-- A State that meets the hypotheses of a clause. -/
def w55 : State := upA { ap0 with snq := [se0] }
/-- A AgentPort that meets the hypotheses of a clause. -/
def w56 : AgentPort := { ap0 with snq := [se0] }
/-- A State that meets the hypotheses of a clause. -/
def w57 : State := { upA { ap0 with snq := [se0] } with regs := ⟨[], []⟩ }
/-- A State that meets the hypotheses of a clause. -/
def w58 : State := upA { ap0 with flush := 1 }
/-- A AgentPort that meets the hypotheses of a clause. -/
def w59 : AgentPort := { ap0 with flush := 1 }
/-- A State that meets the hypotheses of a clause. -/
def w60 : State := upA { ap0 with snq := [{ se0 with taken := true, asked := [0, 1] }] }
/-- A AgentPort that meets the hypotheses of a clause. -/
def w61 : AgentPort := { ap0 with snq := [{ se0 with taken := true, asked := [0, 1] }] }
/-- A SnpEnt that meets the hypotheses of a clause. -/
def w62 : SnpEnt := { se0 with taken := true, asked := [0, 1] }
/-- A State that meets the hypotheses of a clause. -/
def w63 : State := upA { ap0 with snq := [{ se0 with taken := true, asked := [0] }] }
/-- A AgentPort that meets the hypotheses of a clause. -/
def w64 : AgentPort := { ap0 with snq := [{ se0 with taken := true, asked := [0] }] }
/-- A SnpEnt that meets the hypotheses of a clause. -/
def w65 : SnpEnt := { se0 with taken := true, asked := [0] }
/-- A State that meets the hypotheses of a clause. -/
def w66 : State := upA { ap0 with snq := [seS] }
/-- A AgentPort that meets the hypotheses of a clause. -/
def w67 : AgentPort := { ap0 with snq := [seS] }
/-- A State that meets the hypotheses of a clause. -/
def w68 : State := upA { ap0 with snq := [seF] }
/-- A AgentPort that meets the hypotheses of a clause. -/
def w69 : AgentPort := { ap0 with snq := [seF] }
/-- A State that meets the hypotheses of a clause. -/
def w70 : State := { (upT { t0 q0 with asnp := [⟨0, 0, .inv⟩], st := .sb }) with ring := [.answer ⟨0, 0, 0, .rspI⟩ 0 0 false 0 false] }
/-- A Slice that meets the hypotheses of a clause. -/
def w71 : Slice := slT { t0 q0 with asnp := [⟨0, 0, .inv⟩], st := .sb }
/-- A Tracker that meets the hypotheses of a clause. -/
def w72 : Tracker := { t0 q0 with asnp := [⟨0, 0, .inv⟩], st := .sb }
/-- A State that meets the hypotheses of a clause. -/
def w73 : State := { up with ring := [.answer ⟨0, 0, 0, .rspIW⟩ 0 0 false 0 false] }
/-- A State that meets the hypotheses of a clause. -/
def w74 : State := { up with ringSnoops := [sf0] }
/-- A State that meets the hypotheses of a clause. -/
def w75 : State := { up with ring := [.answer ⟨0, 0, 0, .rspI⟩ 0 0 false 0 false] }
/-- A State that meets the hypotheses of a clause. -/
def w76 : State := { up with ring := [.answer ⟨0, 0, 0, .rspWbData⟩ 0 9 false 0 false] }
/-- A State that meets the hypotheses of a clause. -/
def w77 : State := { up with ring := [.fwdData 1 0 0 0 9 true false 0 false] }
/-- A State that meets the hypotheses of a clause. -/
def w78 : State := { upT { t0 q0 with asnp := [⟨0, 0, .inv⟩], st := .sb } with fb := { up.fb with lossDue := [.slice 0] } }
/-- A State that meets the hypotheses of a clause. -/
def w79 : State := { up with fb := { up.fb with claims := [2] } }
/-- A State that meets the hypotheses of a clause. -/
def w80 : State := { up with fb := { up.fb with linkFaults := [0] } }
/-- A State that meets the hypotheses of a clause. -/
def w81 : State := { up with fb := { up.fb with meshFails := [((0, 7), 1)] } }
/-- A State that meets the hypotheses of a clause. -/
def w82 : State := { up with fb := { up.fb with meshFails := [((0, 7), 2)] } }
/-- A State that meets the hypotheses of a clause. -/
def w83 : State := { up with fb := { up.fb with meshFails := [((0x12, 7), 2)] } }
/-- A State that meets the hypotheses of a clause. -/
def w84 : State := { up with fb := { up.fb with meshFails := [((0x19, 7), 2)] } }
/-- A State that meets the hypotheses of a clause. -/
def w85 : State := { up with fb := { up.fb with meshFails := [((0x31, 7), 2)] } }
/-- The block with a ring-loss notice under way to a slice and to a port. -/
def upLoss : State := { up with fb := { up.fb with lossDue := [.slice 0, .port 1] } }
/-- A State that meets the hypotheses of a clause. -/
def w86 : State := upMT (mc (.lineRead 0 0 false) .read) { t0 q0 with st := .e, rdOut := true }
/-- A Slice that meets the hypotheses of a clause. -/
def w87 : Slice := slT { t0 q0 with st := .e, rdOut := true }
/-- A Tracker that meets the hypotheses of a clause. -/
def w88 : Tracker := { t0 q0 with st := .e, rdOut := true }
/-- A State that meets the hypotheses of a clause. -/
def w89 : State := upMT (mc (.bucketRead 0 0 .lookup) .read) { t0 q0 with bktOut := some .lookup }
/-- A Tracker that meets the hypotheses of a clause. -/
def w90 : Tracker := { t0 q0 with bktOut := some .lookup }
/-- A State that meets the hypotheses of a clause. -/
def w91 : State := (upMem (mc (.resend 0 0) .read)).modSlice 0 (fun x => { x with retq := [⟨0, 0, some 0, .data 5 0 false, false, 0⟩] })
/-- A State that meets the hypotheses of a clause. -/
def w92 : State := upMem { mc (.sweepRead 0) .read with givenUp := true }
/-- A MemPort that meets the hypotheses of a clause. -/
def w93 : MemPort := mp0 { mc (.sweepRead 0) .read with givenUp := true }
/-- A MemCmd that meets the hypotheses of a clause. -/
def w94 : MemCmd := { mc (.sweepRead 0) .read with givenUp := true }
/-- A State that meets the hypotheses of a clause. -/
def w95 : State := { (upMT (mc (.bucketRead 0 0 .lookup) .read) { t0 q0 with bktOut := some .lookup }) with spill := [(0, bktOf fun j => if j = 0 then spillBits 0 ⟨0, .s, [0], none, false, 0, false, false⟩ else 0)] }
/-- A State that meets the hypotheses of a clause. -/
def w96 : State := (upMem (mc (.wpq 0 3) .write)).modSlice 0 (fun x => { x with trk := [{ t0 q0 with acks := [⟨.metaWrite, false⟩, ⟨.bucket, false⟩] }] })
/-- A Slice that meets the hypotheses of a clause. -/
def w97 : Slice := slT { t0 q0 with acks := [⟨.metaWrite, false⟩, ⟨.bucket, false⟩] }
/-- A State that meets the hypotheses of a clause. -/
def w98 : State := (upMem (mc (.metaW 0 0 false) .metaWrite)).modSlice 0 (fun x => { x with trk := [{ t0 q0 with acks := [⟨.metaWrite, false⟩, ⟨.bucket, false⟩] }] })
/-- A State that meets the hypotheses of a clause. -/
def w99 : State := (upMem (mc (.bucketW 0 0 false) .write)).modSlice 0 (fun x => { x with trk := [{ t0 q0 with acks := [⟨.metaWrite, false⟩, ⟨.bucket, false⟩] }] })
/-- A State that meets the hypotheses of a clause. -/
def w100 : State := up.modSlice 0 (fun x => { x with mir := { x.mir with acked := [1] } })
/-- A Slice that meets the hypotheses of a clause. -/
def w101 : Slice := { (sl0 0) with mir := { (sl0 0).mir with acked := [1] } }
/-- A State that meets the hypotheses of a clause. -/
def w102 : State := up.modSlice 0 (fun x => { x with mir := { x.mir with link := [⟨1, []⟩] } })
/-- A Slice that meets the hypotheses of a clause. -/
def w103 : Slice := { (sl0 0) with mir := { (sl0 0).mir with link := [⟨1, []⟩] } }
/-- A State that meets the hypotheses of a clause. -/
def w104 : State := { upT { t0 q0 with acks := [⟨.stamp, false⟩, ⟨.dirtyMark, false⟩] } with net := [.stampAck 0 0] }
/-- A Slice that meets the hypotheses of a clause. -/
def w105 : Slice := slT { t0 q0 with acks := [⟨.stamp, false⟩, ⟨.dirtyMark, false⟩] }
/-- A State that meets the hypotheses of a clause. -/
def w106 : State := { up with net := [.stampAck 0 0] }
/-- A State that meets the hypotheses of a clause. -/
def w107 : State := { upT { t0 q0 with acks := [⟨.stamp, false⟩, ⟨.dirtyMark, false⟩] } with net := [.markAck 0 0] }
/-- A State that meets the hypotheses of a clause. -/
def w108 : State := { up with net := [.markAck 0 0] }
/-- A State that meets the hypotheses of a clause. -/
def w109 : State := { upN with net := [.migStart 0 0 .promotion] }
/-- A State that meets the hypotheses of a clause. -/
def w110 : State := { upN with net := [.migStart 0 0 .promotion] }.modSlice 0 (fun x => { x with trk := (List.range 32).map fun n => { t0 { q0 with line := 64000 } with num := n, pool := .maint } })
/-- A Slice that meets the hypotheses of a clause. -/
def w111 : Slice := { (sl0 0) with trk := (List.range 32).map fun n => { t0 { q0 with line := 64000 } with num := n, pool := .maint } }
/-- A State that meets the hypotheses of a clause. -/
def w112 : State := { upN with net := [.migStart 0 0 .promotion] }.modSlice 0 (fun x => { x with trk := [t0 q0] })
/-- A Slice that meets the hypotheses of a clause. -/
def w113 : Slice := { (sl0 0) with trk := [t0 q0] }
/-- A State that meets the hypotheses of a clause. -/
def w114 : State := { upN with net := [.migStart 0 0 .promotion] }.modSlice 0 (fun x => { x with hold := List.replicate 512 ⟨0, { q0 with line := 64000 }, 0, 0⟩ })
/-- A Slice that meets the hypotheses of a clause. -/
def w115 : Slice := { (sl0 0) with hold := List.replicate 512 ⟨0, { q0 with line := 64000 }, 0, 0⟩ }
/-- A State that meets the hypotheses of a clause. -/
def w116 : State := { upN with net := [.migStart 0 0 .demotion], dir := { dNear with moves := [mv .demotion .quiesce] } }.modSlice 0 (fun x => { x with pm := [(0, ⟨0, peN, 200⟩)] })
/-- A Slice that meets the hypotheses of a clause. -/
def w117 : Slice := { (sl0 0) with pm := [(0, ⟨0, peN, 200⟩)] }
/-- A State that meets the hypotheses of a clause. -/
def w118 : State := { upN with net := [.entry 0, .migDone 0 0] }
/-- A State that meets the hypotheses of a clause. -/
def w119 : State := { upN with net := [.migDone 0 0] }.modSlice 0 (fun x => { x with trk := [{ t0 q0 with st := .mg, req := { q0 with kind := .migStart } }] })
/-- A Slice that meets the hypotheses of a clause. -/
def w120 : Slice := { (sl0 0) with trk := [{ t0 q0 with st := .mg, req := { q0 with kind := .migStart } }] }
/-- A State that meets the hypotheses of a clause. -/
def w121 : State := { upN with net := [.migDone 0 0] }
/-- A State that meets the hypotheses of a clause. -/
def w121r : State := { w121 with cast := { w121.cast with redirect := [(1, 0)] } }
/-- A State that meets the hypotheses of a clause. -/
def w122 : State := upT { t0 q0 with armed := true, tickDue := true, st := .spW }
/-- A Slice that meets the hypotheses of a clause. -/
def w123 : Slice := slT { t0 q0 with armed := true, tickDue := true, st := .spW }
/-- A Tracker that meets the hypotheses of a clause. -/
def w124 : Tracker := { t0 q0 with armed := true, tickDue := true, st := .spW }
/-- A State that meets the hypotheses of a clause. -/
def w125 : State := up.modSlice 0 (fun x => { x with arb := { x.arb with selfSlot := true } })
/-- A Slice that meets the hypotheses of a clause. -/
def w126 : Slice := { (sl0 0) with arb := { (sl0 0).arb with selfSlot := true } }
/-- A State that meets the hypotheses of a clause. -/
def w127 : State := up.modSlice 0 (fun x => { x with arb := { x.arb with selfSlot := true, selfDone := true } })
/-- A Slice that meets the hypotheses of a clause. -/
def w128 : Slice := { (sl0 0) with arb := { (sl0 0).arb with selfSlot := true, selfDone := true } }
/-- A State that meets the hypotheses of a clause. -/
def w129 : State := upT { t0 q0 with reevalDue := true }
/-- A Slice that meets the hypotheses of a clause. -/
def w130 : Slice := slT { t0 q0 with reevalDue := true }
/-- A Tracker that meets the hypotheses of a clause. -/
def w131 : Tracker := { t0 q0 with reevalDue := true }
/-- A State that meets the hypotheses of a clause. -/
def w132 : State := { up with regs := ⟨[], [(0x010, 0x20000100)]⟩ }.modSlice 0 (fun x => { x with arb := { x.arb with selfDone := true }, ident := { x.ident with idleMoves := 5, beats := 1 } })
/-- A Slice that meets the hypotheses of a clause. -/
def w133 : Slice := { (sl0 0) with arb := { (sl0 0).arb with selfDone := true }, ident := { (sl0 0).ident with idleMoves := 5, beats := 1 } }
/-- A State that meets the hypotheses of a clause. -/
def w134 : State := { up with regs := ⟨[], [(0x010, 0)]⟩ }
/-- A State that meets the hypotheses of a clause. -/
def w135 : State := up.modSlice 0 (fun x => { x with ident := { x.ident with gated := true } })
/-- A Slice that meets the hypotheses of a clause. -/
def w136 : Slice := { (sl0 0) with ident := { (sl0 0).ident with gated := true } }
/-- A State that meets the hypotheses of a clause. -/
def w137 : State := up.modSlice 0 (fun x => { x with pm := [(0, ⟨0, { peN with classPin := 4 }, 0⟩)] }.modInput 0 fun i => { i with waiting := [{ q0 with ownCls := some .k, withK := true }], kcredit := some .shared })
/-- A Slice that meets the hypotheses of a clause. -/
def w138 : Slice := { (sl0 0) with pm := [(0, ⟨0, { peN with classPin := 4 }, 0⟩)] }.modInput 0 fun i => { i with waiting := [{ q0 with ownCls := some .k, withK := true }], kcredit := some .shared }
/-- A Req that meets the hypotheses of a clause. -/
def w139 : Req := { q0 with ownCls := some .k, withK := true }
/-- A State that meets the hypotheses of a clause. -/
def w140 : State := { up with variant := .yzh08 }.modSlice 0 (fun x => { x with arb := { x.arb with cyc := 2 } }.modInput 0 fun i => { i with waiting := [q0] })
/-- A Slice that meets the hypotheses of a clause. -/
def w141 : Slice := { (sl0 0) with arb := { (sl0 0).arb with cyc := 2 } }.modInput 0 fun i => { i with waiting := [q0] }
/-- A State that meets the hypotheses of a clause. -/
def w142 : State := up.modSlice 0 (fun x => { x with arb := { x.arb with cyc := 5 } })
/-- A Slice that meets the hypotheses of a clause. -/
def w143 : Slice := { (sl0 0) with arb := { (sl0 0).arb with cyc := 5 } }
/-- A State that meets the hypotheses of a clause. -/
def w144 : State := { up with variant := .yzh08 }
/-- A State that meets the hypotheses of a clause. -/
def w145 : State := up.modSlice 0 (fun x => x.modInput 0 fun i => { i with starve := 5000000 })
/-- A Slice that meets the hypotheses of a clause. -/
def w146 : Slice := (sl0 0).modInput 0 fun i => { i with starve := 5000000 }
/-- A State that meets the hypotheses of a clause. -/
def w147 : State := up.modSlice 0 (fun x => x.modInput 0 fun i => { i with kcredit := some .k })
/-- A Slice that meets the hypotheses of a clause. -/
def w148 : Slice := (sl0 0).modInput 0 fun i => { i with kcredit := some .k }
/-- A State that meets the hypotheses of a clause. -/
def w149 : State := up.modSlice 0 (fun x => { x with hold := [⟨0, q0, 0, 0⟩] })
/-- A Slice that meets the hypotheses of a clause. -/
def w150 : Slice := { (sl0 0) with hold := [⟨0, q0, 0, 0⟩] }
/-- A State that meets the hypotheses of a clause. -/
def w151 : State := up.modSlice 0 (fun x => { x with hold := [⟨0, q0, 0, 0⟩], trk := [t0 q0] })
/-- A Slice that meets the hypotheses of a clause. -/
def w152 : Slice := { (sl0 0) with hold := [⟨0, q0, 0, 0⟩], trk := [t0 q0] }
/-- A State that meets the hypotheses of a clause. -/
def w153 : State := { up with regs := ⟨[], [(0x800000 + 0x104, 0)]⟩ }.modSlice 0 (fun x => { x with msc := { x.msc with lines := [(0, cl true)], wpq := List.replicate 512 (wq 1 true) } })
/-- A Slice that meets the hypotheses of a clause. -/
def w154 : Slice := { (sl0 0) with msc := { (sl0 0).msc with lines := [(0, cl true)], wpq := List.replicate 512 (wq 1 true) } }
/-- A State that meets the hypotheses of a clause. -/
def w155 : State := { up with regs := ⟨[], [(0x800000 + 0x104, 0)]⟩ }.modSlice 0 (fun x => { x with msc := { x.msc with lines := [(0, cl true)] } })
/-- A Slice that meets the hypotheses of a clause. -/
def w156 : Slice := { (sl0 0) with msc := { (sl0 0).msc with lines := [(0, cl true)] } }
/-- A Slice that meets the hypotheses of a clause. -/
def w157 : Slice := sliceOf (({ up with regs := ⟨[], [(0x800000 + 0x104, 0)]⟩ }.modSlice 0 (fun x => { x with msc := { x.msc with lines := [(0, cl true)] } })).writeBack 0 0 (cl true))
/-- A State that meets the hypotheses of a clause. -/
def w158 : State := up.modSlice 0 (fun x => { x with msc := { x.msc with state := .draining, lines := [(0, cl true)] } })
/-- A Slice that meets the hypotheses of a clause. -/
def w159 : Slice := { (sl0 0) with msc := { (sl0 0).msc with state := .draining, lines := [(0, cl true)] } }
/-- A State that meets the hypotheses of a clause. -/
def w160 : State := up.modSlice 0 (fun x => { x with msc := { x.msc with state := .draining, lines := [(0, cl true)], wpq := List.replicate 512 (wq 1 true) } })
/-- A Slice that meets the hypotheses of a clause. -/
def w161 : Slice := { (sl0 0) with msc := { (sl0 0).msc with state := .draining, lines := [(0, cl true)], wpq := List.replicate 512 (wq 1 true) } }
/-- A State that meets the hypotheses of a clause. -/
def w162 : State := { up with eg := { up.eg with drainReq := true } }.modSlice 0 (fun x => { x with ident := { x.ident with draining := true }, msc := { x.msc with lines := [(0, cl true)] } })
/-- A Slice that meets the hypotheses of a clause. -/
def w163 : Slice := { (sl0 0) with ident := { (sl0 0).ident with draining := true }, msc := { (sl0 0).msc with lines := [(0, cl true)] } }
/-- A State that meets the hypotheses of a clause. -/
def w164 : State := { up with eg := { up.eg with drainReq := true } }.modSlice 0 (fun x => { x with ident := { x.ident with draining := true }, msc := { x.msc with lines := [(0, cl true)], wpq := List.replicate 512 (wq 1 true) } })
/-- A Slice that meets the hypotheses of a clause. -/
def w165 : Slice := { (sl0 0) with ident := { (sl0 0).ident with draining := true }, msc := { (sl0 0).msc with lines := [(0, cl true)], wpq := List.replicate 512 (wq 1 true) } }
/-- A State that meets the hypotheses of a clause. -/
def w166 : State := up.modSlice 0 (fun x => { x with msc := { x.msc with wpq := [wq 0 false] } })
/-- A Slice that meets the hypotheses of a clause. -/
def w167 : Slice := { (sl0 0) with msc := { (sl0 0).msc with wpq := [wq 0 false] } }
/-- A State that meets the hypotheses of a clause. -/
def w168 : State := { up with cast := { up.cast with channels := [some (0, 1)] } }.modSlice 0 (fun x => { x with mir := { x.mir with link := [⟨1, []⟩] }, trk := [t0 q0] })
/-- A Slice that meets the hypotheses of a clause. -/
def w169 : Slice := { (sl0 0) with mir := { (sl0 0).mir with link := [⟨1, []⟩] }, trk := [t0 q0] }
/-- A State that meets the hypotheses of a clause. -/
def w170 : State := up.modSlice 0 (fun x => { x with ident := { x.ident with unprot := true }, msc := { x.msc with vb := [⟨0, cl true, false, false, none⟩] } })
/-- A Slice that meets the hypotheses of a clause. -/
def w171 : Slice := { (sl0 0) with ident := { (sl0 0).ident with unprot := true }, msc := { (sl0 0).msc with vb := [⟨0, cl true, false, false, none⟩] } }
/-- A State that meets the hypotheses of a clause. -/
def w172 : State := { up with cast := { up.cast with channels := [some (0, 1)] } }.modSlice 0 (fun x => { x with msc := { x.msc with vb := [⟨0, cl true, false, false, none⟩] } })
/-- A Slice that meets the hypotheses of a clause. -/
def w173 : Slice := { (sl0 0) with msc := { (sl0 0).msc with vb := [⟨0, cl true, false, false, none⟩] } }
/-- A State that meets the hypotheses of a clause. -/
def w174 : State := up.modSlice 0 (fun x => { x with msc := { x.msc with vb := [⟨0, cl true, false, false, none⟩], wpq := List.replicate 512 (wq 1 true) } })
/-- A Slice that meets the hypotheses of a clause. -/
def w175 : Slice := { (sl0 0) with msc := { (sl0 0).msc with vb := [⟨0, cl true, false, false, none⟩], wpq := List.replicate 512 (wq 1 true) } }
/-- A State that meets the hypotheses of a clause. -/
def w176 : State := up.modSlice 0 (fun x => { x with pm := [(0, ⟨0, { peN with classPin := 4 }, 0⟩)], trk := [{ t0 q0 with acks := [⟨.kFill true, false⟩], buf := some 7, st := .wbx }], msc := { x.msc with auto := 0xFFFF } })
/-- A Slice that meets the hypotheses of a clause. -/
def w177 : Slice := { (sl0 0) with pm := [(0, ⟨0, { peN with classPin := 4 }, 0⟩)], trk := [{ t0 q0 with acks := [⟨.kFill true, false⟩], buf := some 7, st := .wbx }], msc := { (sl0 0).msc with auto := 0xFFFF } }
/-- A Tracker that meets the hypotheses of a clause. -/
def w178 : Tracker := { t0 q0 with acks := [⟨.kFill true, false⟩], buf := some 7, st := .wbx }
/-- A State that meets the hypotheses of a clause. -/
def w179 : State := { up with cast := { up.cast with channels := [some (0, 1)] } }.modSlice 0 (fun x => { x with trk := [{ t0 q0 with acks := [⟨.kFill true, false⟩], buf := some 7, st := .wbx }] })
/-- A Slice that meets the hypotheses of a clause. -/
def w180 : Slice := { (sl0 0) with trk := [{ t0 q0 with acks := [⟨.kFill true, false⟩], buf := some 7, st := .wbx }] }
/-- A State that meets the hypotheses of a clause. -/
def w181 : State := up.modSlice 0 (fun x => { x with msc := { x.msc with wayErr := [(0, 300)] } })
/-- A Slice that meets the hypotheses of a clause. -/
def w182 : Slice := { (sl0 0) with msc := { (sl0 0).msc with wayErr := [(0, 300)] } }
/-- A State that meets the hypotheses of a clause. -/
def w183 : State := { up with regs := ⟨[], [(0x800000 + 0x120, 0x10011000)]⟩ }.modSlice 0 (fun x => { x with msc := { x.msc with wayErr := [(0, 300)] } })
/-- A State that meets the hypotheses of a clause. -/
def w184 : State := up.modSlice 0 (fun x => { x with dir := { x.dir with wdSet := some 4 } })
/-- A Slice that meets the hypotheses of a clause. -/
def w185 : Slice := { (sl0 0) with dir := { (sl0 0).dir with wdSet := some 4 } }
/-- A State that meets the hypotheses of a clause. -/
def w186 : State := up.modSlice 0 (fun x => { x with dir := { x.dir with wdSet := some 32767 } })
/-- A Slice that meets the hypotheses of a clause. -/
def w187 : Slice := { (sl0 0) with dir := { (sl0 0).dir with wdSet := some 32767 } }
/-- A State that meets the hypotheses of a clause. -/
def w188 : State := { up with regs := ⟨[], [(0x800000 + 0x24, 1)]⟩ }.modSlice 0 (fun x => { x with dir := { x.dir with wdSet := some 4, sf := [(64, ⟨4, .s, [0], none, false, 0, false, false⟩)] } })
/-- A Slice that meets the hypotheses of a clause. -/
def w189 : Slice := { (sl0 0) with dir := { (sl0 0).dir with wdSet := some 4, sf := [(64, ⟨4, .s, [0], none, false, 0, false, false⟩)] } }
/-- A Slice that meets the hypotheses of a clause. -/
def w190 : Slice := sliceOf (({ up with regs := ⟨[], [(0x800000 + 0x24, 1)]⟩ }.modSlice 0 (fun x => { x with dir := { x.dir with wdSet := some 4, sf := [(64, ⟨4, .s, [0], none, false, 0, false, false⟩)] } })).evictEntry 0 64 ⟨4, .s, [0], none, false, 0, false, false⟩)
/-- A State that meets the hypotheses of a clause. -/
def w191 : State := up.modSlice 0 (fun x => { x with blind := [⟨0, [], 0, 0⟩] })
/-- A Slice that meets the hypotheses of a clause. -/
def w192 : Slice := { (sl0 0) with blind := [⟨0, [], 0, 0⟩] }
/-- A State that meets the hypotheses of a clause. -/
def w193 : State := { upN with dir := { upN.dir with pages := [(0, peN)], frames := [(0, ⟨0, 0⟩)] } }.modSlice 0 (fun x => { x with blind := [⟨0, [], 0, 0⟩], pm := [(0, ⟨0, peN, 0⟩)], dir := { x.dir with sf := (List.range 4).map fun i => (i * 16, ⟨BitVec.ofNat 42 i, .s, [0], none, false, 0, false, false⟩) } })
/-- A Slice that meets the hypotheses of a clause. -/
def w194 : Slice := { (sl0 0) with blind := [⟨0, [], 0, 0⟩], pm := [(0, ⟨0, peN, 0⟩)], dir := { (sl0 0).dir with sf := (List.range 4).map fun i => (i * 16, ⟨BitVec.ofNat 42 i, .s, [0], none, false, 0, false, false⟩) } }
/-- A State that meets the hypotheses of a clause. -/
def w195 : State := { upN with dir := { upN.dir with pages := [(0, peN)], frames := [(0, ⟨0, 0⟩)] } }.modSlice 0 (fun x => { x with blind := [⟨0, [], 0, 0⟩] })
/-- A State that meets the hypotheses of a clause. -/
def w196 : State := up.modSlice 0 (fun x => { x with msc := { x.msc with pfq := [(1, .q)] } })
/-- A Slice that meets the hypotheses of a clause. -/
def w197 : Slice := { (sl0 0) with msc := { (sl0 0).msc with pfq := [(1, .q)] } }
/-- A State that meets the hypotheses of a clause. -/
def w198 : State := up.modSlice 0 (fun x => { x with msc := { x.msc with pre := { x.msc.pre with busy := true, left := 2, page := 0, lineNo := 3 } } })
/-- A Slice that meets the hypotheses of a clause. -/
def w199 : Slice := { (sl0 0) with msc := { (sl0 0).msc with pre := { (sl0 0).msc.pre with busy := true, left := 2, page := 0, lineNo := 3 } } }
/-- A State that meets the hypotheses of a clause. -/
def w200 : State := up.modSlice 0 (fun x => { x with msc := { x.msc with pre := { x.msc.pre with busy := true } } })
/-- A Slice that meets the hypotheses of a clause. -/
def w201 : Slice := { (sl0 0) with msc := { (sl0 0).msc with pre := { (sl0 0).msc.pre with busy := true } } }
/-- A State that meets the hypotheses of a clause. -/
def w202 : State := upP { Power.blank with phase := .p2 }
/-- A State that meets the hypotheses of a clause. -/
def w203 : State := { up with gl := { up.gl with anyCommit := true, commit := [(0x30020, 5)] } }
/-- A State that meets the hypotheses of a clause. -/
def w204 : State := up.modSlice 0 (fun x => { x with ident := { x.ident with role := .reserve, failed := some .link } })
/-- A Slice that meets the hypotheses of a clause. -/
def w205 : Slice := { (sl0 0) with ident := { (sl0 0).ident with role := .reserve, failed := some .link } }
/-- A State that meets the hypotheses of a clause. -/
def w206 : State := up.modSlice 0 (fun x => { x with ident := { x.ident with failed := some .link } })
/-- A Slice that meets the hypotheses of a clause. -/
def w207 : Slice := { (sl0 0) with ident := { (sl0 0).ident with failed := some .link } }
/-- A State that meets the hypotheses of a clause. -/
def w208 : State := ({ up with cast := { up.cast with channels := [some (0, 1)] } }.modSlice 0 (fun x => { x with ident := { x.ident with failed := some .link } })).modSlice 16 (fun x => { x with ident := { x.ident with role := .reserve, selfTest := some true } })
/-- A State that meets the hypotheses of a clause. -/
def w209 : State := { up with cast := { up.cast with channels := [some (0, 1)] } }.modSlice 0 (fun x => { x with ident := { x.ident with failed := some .link } })
/-- A State that meets the hypotheses of a clause. -/
def w210 : State := { up with cast := { up.cast with replays := [(⟨5, 0, 1, 3, false, .link, [.wpq 3 ⟨0, 7, 0, false⟩], [.wpq 3 ⟨0, 7, 0, false⟩]⟩ : Replay)] } }
/-- A Replay that meets the hypotheses of a clause. -/
def w211 : Replay := (⟨5, 0, 1, 3, false, .link, [.wpq 3 ⟨0, 7, 0, false⟩], [.wpq 3 ⟨0, 7, 0, false⟩]⟩ : Replay)
/-- A State that meets the hypotheses of a clause. -/
def w212 : State := { up with cast := { up.cast with replays := [(⟨5, 0, 1, 3, false, .link, [.hold ⟨0, q0, 0, 0⟩], [.hold ⟨0, q0, 0, 0⟩]⟩ : Replay)] } }
/-- A Replay that meets the hypotheses of a clause. -/
def w213 : Replay := (⟨5, 0, 1, 3, false, .link, [.hold ⟨0, q0, 0, 0⟩], [.hold ⟨0, q0, 0, 0⟩]⟩ : Replay)
/-- A State that meets the hypotheses of a clause. -/
def w214 : State := { up with cast := { up.cast with replays := [(⟨5, 0, 1, 3, false, .link, [.replayEnd], [.replayEnd]⟩ : Replay)] } }
/-- A Replay that meets the hypotheses of a clause. -/
def w215 : Replay := (⟨5, 0, 1, 3, false, .link, [.replayEnd], [.replayEnd]⟩ : Replay)
/-- A State that meets the hypotheses of a clause. -/
def w216 : State := { up with cast := { up.cast with replays := [(⟨5, 0, 1, 3, true, .link, [.wpq 3 ⟨0, 7, 0, false⟩], [.wpq 3 ⟨0, 7, 0, false⟩]⟩ : Replay)] } }
/-- A Replay that meets the hypotheses of a clause. -/
def w217 : Replay := (⟨5, 0, 1, 3, true, .link, [.wpq 3 ⟨0, 7, 0, false⟩], [.wpq 3 ⟨0, 7, 0, false⟩]⟩ : Replay)
/-- A State that meets the hypotheses of a clause. -/
def w218 : State := { up with cast := { up.cast with replays := [(⟨5, 0, 1, 3, true, .link, [.wpq 3 ⟨0, 7, 0, false⟩], [.wpq 3 ⟨0, 7, 0, false⟩]⟩ : Replay)] } }.modSlice 0 (fun x => { x with msc := { x.msc with wpq := List.replicate 512 (wq 1 true) } })
/-- A Slice that meets the hypotheses of a clause. -/
def w219 : Slice := { (sl0 0) with msc := { (sl0 0).msc with wpq := List.replicate 512 (wq 1 true) } }
/-- A State that meets the hypotheses of a clause. -/
def w220 : State := { up with cast := { up.cast with channels := [some (0, 1)] } }.modSlice 0 (fun x => { x with ident := { x.ident with unprot := true }, msc := { x.msc with wpq := [wq 0 false], lines := [(0, cl true)] } })
/-- A Slice that meets the hypotheses of a clause. -/
def w221 : Slice := { (sl0 0) with ident := { (sl0 0).ident with unprot := true }, msc := { (sl0 0).msc with wpq := [wq 0 false], lines := [(0, cl true)] } }
/-- A ℕ that meets the hypotheses of a clause. -/
def w222 : ℕ := ((((upDN dFar [.promo 0 0]).takeMsg (.promo 0 0)).takeFrame 0 255).getD (0, up)).1
/-- A State that meets the hypotheses of a clause. -/
def w223 : State := ((((upDN dFar [.promo 0 0]).takeMsg (.promo 0 0)).takeFrame 0 255).getD (0, up)).2
/-- A Move that meets the hypotheses of a clause. -/
def w224 : Move := { mv .demandPromotion .copy with frame := ((((upDN dFar [.promo 0 0]).takeMsg (.promo 0 0)).takeFrame 0 255).getD (0, up)).1, askers := [0] }
/-- A State that meets the hypotheses of a clause. -/
def w225 : State := { upDN { Director.blank with loaded := [(0, 0)] } [.promo 0 0] with cfg := { up.cfg with near := ⟨0, 0⟩ } }
/-- A State that meets the hypotheses of a clause. -/
def w226 : State := { upDN dFar [.promo 0 0] with pwr := { Power.blank with warm := true } }
/-- A State that meets the hypotheses of a clause. -/
def w227 : State := upDN { dNear with moves := [{ mv .demotion .quiesce with aborted := true }] } [.dack 0 0]
/-- A Move that meets the hypotheses of a clause. -/
def w228 : Move := { mv .demotion .quiesce with aborted := true }
/-- A State that meets the hypotheses of a clause. -/
def w229 : State := { upDN dNear [.dack 0 0] with cfg := { upN.cfg with comp := ⟨8, 1⟩, pool1 := 25, pool2 := 25 }, regs := ⟨[], [(0x30018, 0x80000000)]⟩, dir := { dNear with moves := [mv .demotion .quiesce] } }
/-- A State that meets the hypotheses of a clause. -/
def w230 : State := { upMv dNear .demotion .quiesce [.dack 0 0] with regs := ⟨[], [(0x30018, 0)]⟩ }
/-- A State that meets the hypotheses of a clause. -/
def w231 : State := upDN { dNear with moves := [{ mv .demotion .persist with dacked := true }] } [.dnote 0 0]
/-- A Move that meets the hypotheses of a clause. -/
def w232 : Move := { mv .demotion .persist with dacked := true }
/-- A State that meets the hypotheses of a clause. -/
def w233 : State := upDN { dNear with moves := [{ mv .demotion .compress with dacked := true }] } [.dnote 0 0]
/-- A Move that meets the hypotheses of a clause. -/
def w234 : Move := { mv .demotion .compress with dacked := true }
/-- A State that meets the hypotheses of a clause. -/
def w235 : State := upDN { dNear with cleaning := [⟨0, 0, false, 5, false⟩] } [.mark 0 0]
/-- A State that meets the hypotheses of a clause. -/
def w236 : State := { upDN dNear [.mark 0 0] with eg := { upN.eg with allow := 1 } }
/-- A State that meets the hypotheses of a clause. -/
def w237 : State := upDN { dDirty with marks := [(0, 0)] } []
/-- A State that meets the hypotheses of a clause. -/
def w238 : State := { upDN { dNear with marks := [(0, 0)] } [] with eg := { upN.eg with allow := 1 } }
/-- A State that meets the hypotheses of a clause. -/
def w239 : State := upDN { dNear with marks := [(0, 0)] } []
/-- A State that meets the hypotheses of a clause. -/
def w240 : State := (upDN dNear [.clean 0 0]).modSlice 0 (fun x => { x with msc := { x.msc with lines := [(0, cl true)] } })
/-- A Slice that meets the hypotheses of a clause. -/
def w241 : Slice := { sl0 0 with msc := { (sl0 0).msc with lines := [(0, cl true)] } }
/-- A Slice that meets the hypotheses of a clause. -/
def w242 : Slice := sliceOf ((((upDN dNear [.clean 0 0]).modSlice 0 (fun x => { x with msc := { x.msc with lines := [(0, cl true)] } })).takeMsg (.clean 0 0)).writeBack 0 0 (cl true))
/-- A State that meets the hypotheses of a clause. -/
def w243 : State := (upDN dNear [.clean 0 0]).modSlice 0 (fun x => { x with msc := { x.msc with lines := [(0, cl true)], wpq := List.replicate 512 (wq 1 true) } })
/-- A Slice that meets the hypotheses of a clause. -/
def w244 : Slice := { sl0 0 with msc := { (sl0 0).msc with lines := [(0, cl true)], wpq := List.replicate 512 (wq 1 true) } }
/-- A State that meets the hypotheses of a clause. -/
def w245 : State := upDN { dNear with cleaning := [⟨0, 0, false, 5, false⟩] } [.cleanAck 0 0]
/-- A State that meets the hypotheses of a clause. -/
def w246 : State := te5 (.copyToPersist 0 0) .none { dNear with cleaning := [⟨0, 0, true, 5, false⟩] }
/-- A State that meets the hypotheses of a clause. -/
def w247 : State := te5 (.copyToPersist 0 0) .none { dNear with cleaning := [⟨0, 0, true, 5, true⟩] }
/-- A State that meets the hypotheses of a clause. -/
def w248 : State := (upDN dNear [.pmRead 0 0]).modSlice 0 (fun x => { x with pmOut := [(0, true)] })
/-- A Slice that meets the hypotheses of a clause. -/
def w249 : Slice := { sl0 0 with pmOut := [(0, true)] }
/-- A State that meets the hypotheses of a clause. -/
def w250 : State := (upDN dNear [.pmRead 0 0]).modSlice 0 (fun x => { x with pmOut := [(0, false)] })
/-- A Slice that meets the hypotheses of a clause. -/
def w251 : Slice := { sl0 0 with pmOut := [(0, false)] }
/-- A State that meets the hypotheses of a clause. -/
def w252 : State := { upDN dNear [] with regs := ⟨[], [(0x30010, 0x00020001)]⟩ }
/-- A State that meets the hypotheses of a clause. -/
def w253 : State := { { upDN { dFar with pages := [(0, { peN with tier := 2, frame := 8388608, cslot := 1 })], slots := [(0, ⟨0, 0⟩)] } [] with cfg := { upN.cfg with comp := ⟨8, 1⟩, pool1 := 25, pool2 := 25 } } with regs := ⟨[], [(0x30018, 0x00020001)]⟩ }
/-- A State that meets the hypotheses of a clause. -/
def w254 : State := { { upDN { dFar with pages := [(0, { peN with tier := 2, frame := 8388608, cslot := 1 })], slots := [(0, ⟨0, 0⟩)] } [] with cfg := { upN.cfg with comp := ⟨8, 1⟩, pool1 := 25, pool2 := 25 } } with regs := ⟨[], [(0x30018, 0x0FFF0FFF)]⟩ }
/-- A State that meets the hypotheses of a clause. -/
def w255 : State := { upDN { dNear with frames := [(0, ⟨0, 9⟩)] } [] with regs := ⟨[], [(0x30010, 0x10000FFF)]⟩, cfg := { upN.cfg with near := ⟨0, 1⟩ } }
/-- A State that meets the hypotheses of a clause. -/
def w255s : State := { w255 with dir := { w255.dir with moves := [mv .demotion .copy] } }
/-- A State that meets the hypotheses of a clause. -/
def w256 : State := { upDN { dNear with frames := [(0, ⟨0, 0⟩)] } [] with regs := ⟨[], [(0x30010, 0x10000FFF)]⟩, cfg := { upN.cfg with near := ⟨0, 1⟩ } }
/-- A State that meets the hypotheses of a clause. -/
def w257 : State := { upDN dNear [] with cfg := Cfg.blank }
/-- A State that meets the hypotheses of a clause. -/
def w258 : State := { upDN dNear [] with regs := ⟨[], [(0x30024, 1)]⟩ }
/-- A State that meets the hypotheses of a clause. -/
def w259 : State := upDN { Director.blank with loaded := [] } []
/-- A State that meets the hypotheses of a clause. -/
def w260 : State := te5 (.copyToFrame 0 0 0 0 false) .none { dFar with moves := [{ mv5 .demandPromotion .copy with aborted := true }] }
/-- A Move that meets the hypotheses of a clause. -/
def w261 : Move := { mv5 .demandPromotion .copy with aborted := true }
/-- A State that meets the hypotheses of a clause. -/
def w262 : State := te5 (.copyToFrame 0 0 0 0 false) .none { dFar with moves := [mv5 .demandPromotion .copy] }
/-- A State that meets the hypotheses of a clause. -/
def w263 : State := te5 (.compress 0 0 0) .none { dNear with moves := [{ mv5 .demotion .compress with aborted := true }] }
/-- A Move that meets the hypotheses of a clause. -/
def w264 : Move := { mv5 .demotion .compress with aborted := true }
/-- A State that meets the hypotheses of a clause. -/
def w265 : State := { te5 (.compress 0 0 0) .none { dNear with moves := [mv5 .demotion .compress] } with cfg := { upN.cfg with comp := ⟨8, 1⟩, pool1 := 25, pool2 := 25 } }
/-- A ℕ that meets the hypotheses of a clause. -/
def w266 : ℕ := ((({ (({ te5 (.compress 0 0 0) .none { dNear with moves := [mv5 .demotion .compress] } with cfg := { upN.cfg with comp := ⟨8, 1⟩, pool1 := 25, pool2 := 25 } }).teFree 5).teStatus 0 with dir := { ((({ te5 (.compress 0 0 0) .none { dNear with moves := [mv5 .demotion .compress] } with cfg := { upN.cfg with comp := ⟨8, 1⟩, pool1 := 25, pool2 := 25 } }).teFree 5).teStatus 0).dir with compSizes := (((({ te5 (.compress 0 0 0) .none { dNear with moves := [mv5 .demotion .compress] } with cfg := { upN.cfg with comp := ⟨8, 1⟩, pool1 := 25, pool2 := 25 } }).teFree 5).teStatus 0).dir.compSizes.filter fun (x : Page × Nat) => x.1 != 0) ++ [(0, 704)] } } : State).takeSlot 0 0).getD (0, up)).1
/-- A State that meets the hypotheses of a clause. -/
def w267 : State := ((({ (({ te5 (.compress 0 0 0) .none { dNear with moves := [mv5 .demotion .compress] } with cfg := { upN.cfg with comp := ⟨8, 1⟩, pool1 := 25, pool2 := 25 } }).teFree 5).teStatus 0 with dir := { ((({ te5 (.compress 0 0 0) .none { dNear with moves := [mv5 .demotion .compress] } with cfg := { upN.cfg with comp := ⟨8, 1⟩, pool1 := 25, pool2 := 25 } }).teFree 5).teStatus 0).dir with compSizes := (((({ te5 (.compress 0 0 0) .none { dNear with moves := [mv5 .demotion .compress] } with cfg := { upN.cfg with comp := ⟨8, 1⟩, pool1 := 25, pool2 := 25 } }).teFree 5).teStatus 0).dir.compSizes.filter fun (x : Page × Nat) => x.1 != 0) ++ [(0, 704)] } } : State).takeSlot 0 0).getD (0, up)).2
/-- A State that meets the hypotheses of a clause. -/
def w268 : State := te5 (.storeSlot 5 0 1) .none { dNear with moves := [{ mv5 .demotion .store with slot := some (1, 0) }] }
/-- A Move that meets the hypotheses of a clause. -/
def w269 : Move := { mv5 .demotion .store with slot := some (1, 0) }
/-- A State that meets the hypotheses of a clause. -/
def w270 : State := te5 (.copyToPersist 0 0) .none { dNear with moves := [mv5 .demotion .persist] }
/-- A State that meets the hypotheses of a clause. -/
def w271 : State := { te5 (.decompToPersist 0 1 0) .none { dFar with pages := [(0, { peN with tier := 2, frame := 8388608, cslot := 1 })], slots := [(0, ⟨0, 0⟩)], moves := [mv5 .slotEviction .persist] } with cfg := { upN.cfg with comp := ⟨8, 1⟩, pool1 := 25, pool2 := 25 } }
/-- A State that meets the hypotheses of a clause. -/
def w272 : State := te5 (.flush 3) .none { dNear with moves := [mv5 .demotion .persist] }
/-- A State that meets the hypotheses of a clause. -/
def w273 : State := te5 (.flush 3) .none { dNear with moves := [{ mv .demotion .flush with len := 5 }] }
/-- A Move that meets the hypotheses of a clause. -/
def w274 : Move := { mv .demotion .flush with len := 5 }
/-- A State that meets the hypotheses of a clause. -/
def w275 : State := te5 (.offerVictim 0 7) .none { dNear with moves := [mv5 .demotion .flush] }
/-- A State that meets the hypotheses of a clause. -/
def w276 : State := { te5 (.persistWrite 0 [7]) .rootWrite dNear with root := { Root.blank with stage := .writing, writes := 2 } }
/-- A State that meets the hypotheses of a clause. -/
def w277 : State := { te5 (.persistWrite 0 [7]) .rootWrite dNear with root := { Root.blank with stage := .writing, writes := 1 } }
/-- A State that meets the hypotheses of a clause. -/
def w278 : State := { te5 (.persistWrite 0 [7]) .rootWrite dNear with root := { Root.blank with stage := .ready, writes := 1, save := .last } }
/-- A State that meets the hypotheses of a clause. -/
def w279 : State := { te5 (.persistWrite 0 [7]) .rootWrite dNear with root := { Root.blank with stage := .ready, writes := 1, save := .manifest } }
/-- A State that meets the hypotheses of a clause. -/
def w280 : State := { te5 (.persistRead 0 64) (.rootHdr false) dNear with root := { Root.blank with stage := .reading } }
/-- A State that meets the hypotheses of a clause. -/
def w281 : State := { te5 (.persistRead 0 64) (.rootPins false) dNear with root := { Root.blank with stage := .reading, hdr := some ⟨0, 1, 0, 0, 0, 0, 0, 0, 0⟩ } }
/-- A State that meets the hypotheses of a clause. -/
def w282 : State := { te5 (.savePage 0 0 0 false) (.save 0) dNear with root := { Root.blank with save := .pages, manifest := [0], sent := 1 } }
/-- A State that meets the hypotheses of a clause. -/
def w283 : State := { te5 (.savePage 0 0 0 false) (.save 0) dNear with root := { Root.blank with save := .pages, manifest := [0, 1], sent := 1 } }
/-- A State that meets the hypotheses of a clause. -/
def w284 : State := { upDN dNear [.doorbell 1] with regs := ⟨[], [(0x30028, 4)]⟩ }
/-- A State that meets the hypotheses of a clause. -/
def w285 : State := { upDN dNear [] with regs := ⟨[], [(0x30028, 4), (0x3002C, 0x100)]⟩ }
/-- A State that meets the hypotheses of a clause. -/
def w286 : State := { upDN dNear [] with dctl := { DirCtl.blank with ctxs := [⟨1, 0, 0, 0, .readWait, 0, 0⟩], slotDone := [(4, some 0)] } }
/-- A State that meets the hypotheses of a clause. -/
def w287 : State := { upDN dNear [] with dctl := { DirCtl.blank with ctxs := [⟨1, 0, 0, 0, .readWait, 0, 0⟩], slotDone := [(4, some (1 <<< 504 ||| 1 <<< 32 ||| 2))] } }
/-- A State that meets the hypotheses of a clause. -/
def w288 : State := { upDN dNear [] with dctl := { DirCtl.blank with list := { DirCtl.blank.list with busy := true, op := 1, cur := some 0, stage := .pinWrite, count := 1 } } }
/-- A State that meets the hypotheses of a clause. -/
def w289 : State := { upDN dNear [] with dctl := { DirCtl.blank with list := { DirCtl.blank.list with busy := true, op := 1, cur := some 5, count := 8, reads := [(2, 0, true)] } }, ld := { Loader.blank with fetch := some ⟨.header, true, [1], [0]⟩ } }
/-- A State that meets the hypotheses of a clause. -/
def w290 : State := { State.reset with pins := { State.reset.pins with blkPor := true }, gl := { Gl.blank with phase := 1 } }
/-- A State that meets the hypotheses of a clause. -/
def w291 : State := { State.reset with pins := { State.reset.pins with blkPor := true }, gl := { Gl.blank with phase := 1 }, slices := (List.replicate 16 ({ Slice.blank 16 8 with ident := { (Slice.blank 16 8).ident with selfTest := some true } })) ++ [Slice.blank 16 8] }
/-- A Slice that meets the hypotheses of a clause. -/
def w292 : Slice := { Slice.blank 16 8 with ident := { (Slice.blank 16 8).ident with selfTest := some true } }
/-- A State that meets the hypotheses of a clause. -/
def w293 : State := upL { Loader.blank with state := .sfdp }
/-- A Sfdp that meets the hypotheses of a clause. -/
def w294 : Sfdp := { sf3 with density := 0x100000 }
/-- A Option Sfdp that meets the hypotheses of a clause. -/
def w295 : Option Sfdp := some { sf3 with density := 0x100000 }
/-- A State that meets the hypotheses of a clause. -/
def w296 : State := upL { Loader.blank with state := .loading, toTry := [(false, 7), (true, 6)] }
/-- A State that meets the hypotheses of a clause. -/
def w297 : State := upL { Loader.blank with state := .rot, toTry := [(false, 7), (true, 6)] }
/-- A Slice that meets the hypotheses of a clause. -/
def w298 : Slice := { Slice.blank 16 8 with ident := { (Slice.blank 16 8).ident with selfTest := some false } }
/-- A State that meets the hypotheses of a clause. -/
def w299 : State := { upW 0 with eg := { up.eg with pstate := .start } }
/-- A State that meets the hypotheses of a clause. -/
def w300 : State := { upW 17 with gl := { Gl.blank with phase := 4 }, eg := { up.eg with pstate := .start }, root := { Root.blank with stage := .ready } }
/-- A State that meets the hypotheses of a clause. -/
def w301 : State := { upF .eraseFirst with regs := ⟨[], [(0x10020, 0x10000)]⟩ }
/-- A State that meets the hypotheses of a clause. -/
def w302 : State := { upR with slices := [Slice.blank 16 8] }
/-- A State that meets the hypotheses of a clause. -/
def w303 : State := { upE .drain with slices := [Slice.blank 16 8] }
/-- A State that meets the hypotheses of a clause. -/
def w304 : State := { upR with ld := { Loader.blank with state := .loaded } }
/-- A State that meets the hypotheses of a clause. -/
def w305 : State := { up with eg := { up.eg with calLoaded := true } }
/-- A State that meets the hypotheses of a clause. -/
def w306 : State := { up with eg := { up.eg with allow := 9 } }
/-- A State that meets the hypotheses of a clause. -/
def w307 : State := upP { Power.blank with phase := .entering }
/-- A State that meets the hypotheses of a clause. -/
def w308 : State := upP { Power.blank with gpf1 := true }
/-- A State that meets the hypotheses of a clause. -/
def w309 : State := { up with agentPorts := { ap0 with flush := 1 } :: List.replicate 7 (AgentPort.blank 17) }
/-- A State that meets the hypotheses of a clause. -/
def w310 : State := { upP { Power.blank with phase := .entering } with slices := [Slice.blank 16 8] }
/-- A State that meets the hypotheses of a clause. -/
def w311 : State := upP { Power.blank with p3 := true }
/-- A State that meets the hypotheses of a clause. -/
def w312 : State := upL { Loader.blank with state := .loaded, sfdp := some sf3 }
/-- A State that meets the hypotheses of a clause. -/
def w313 : State := upL { Loader.blank with state := .noImage }
/-- A State that meets the hypotheses of a clause. -/
def w314 : State := { up with root := { Root.blank with held := true } }
/-- A State that meets the hypotheses of a clause. -/
def w315 : State := { up with root := { Root.blank with held := true, rootBad := true } }
/-- A State that meets the hypotheses of a clause. -/
def w316 : State := { up with dctl := { DirCtl.blank with list := { DirCtl.blank.list with busy := true } } }
/-- A State that meets the hypotheses of a clause. -/
def w317 : State := { up with regs := ⟨[], [(0x30028, 4)]⟩ }
/-- A State that meets the hypotheses of a clause. -/
def w318 : State := up.modSlice 0 (fun x => { x with msc := { x.msc with pre := { x.msc.pre with busy := true, left := 2 } } })
/-- A Slice that meets the hypotheses of a clause. -/
def w319 : Slice := { (sl0 0) with msc := { (sl0 0).msc with pre := { (sl0 0).msc.pre with busy := true, left := 2 } } }
/-- A State that meets the hypotheses of a clause. -/
def w320 : State := up.modSlice 0 (fun x => { x with msc := { x.msc with pre := { x.msc.pre with busy := true, left := 2 } }, trk := [t0 (ownReq .memRd .preload 1 0 .p)] })
/-- A Slice that meets the hypotheses of a clause. -/
def w321 : Slice := { (sl0 0) with msc := { (sl0 0).msc with pre := { (sl0 0).msc.pre with busy := true, left := 2 } }, trk := [t0 (ownReq .memRd .preload 1 0 .p)] }
/-- A RegRd that meets the hypotheses of a clause. -/
def w322 : RegRd := { rr with be := 0 }
/-- A Instr that meets the hypotheses of a clause. -/
def w323 : Instr := .counterLowRead 0 { rr with be := 0 }
/-- A Instr that meets the hypotheses of a clause. -/
def w324 : Instr := .registerAliasWrite (BitVec.ofNat 27 (0x1000000 * 1 + 16)) (ra 0x100)
/-- A State that meets the hypotheses of a clause. -/
def w325 : State := { up with fb := { Fabric.blank with trace := [.word 5] } }
/-- A State that meets the hypotheses of a clause. -/
def w326 : State := { up with ev := { up.ev with fifo := List.replicate 512 ⟨0x20, 1, 0x12, 3, 0, 9⟩ } }
/-- A State that meets the hypotheses of a clause. -/
def w327 : State := { up with ev := { up.ev with fifo := [⟨0x20, 1, 0x12, 3, 0, 9⟩], lost := 3 } }
/-- A State that meets the hypotheses of a clause. -/
def w328 : State := { up with regs := ⟨[], [(0x40080, 0x80000000), (0x40000, 0xC0000010)]⟩, pins := { up.pins with atomBir := 2 }, cfg := { Cfg.blank with windows := [⟨0, 256, 1, 0⟩, ⟨256, 1, 3, 0⟩] }, agentPorts := ap0 :: List.replicate 7 (AgentPort.blank 17) }
/-- A AgentMsg that meets the hypotheses of a clause. -/
def w329 : AgentMsg := { am 0x16 with size := 1 }
/-- A State that meets the hypotheses of a clause. -/
def w330 : State := { up with regs := ⟨[], [(0x50100, 0x80000000)]⟩ }
/-- A State that meets the hypotheses of a clause. -/
def w330t : State := { up with regs := ⟨[], [(0x50000, 0x80000000), (0x50100, 0x88000000)]⟩ }
/-- The director's work of the move is due. -/
def upDue : State := { upDN dNear [] with dctl := { DirCtl.blank with decayDue := true, sweepDue := true, pollDue := true } }
/-- The ADC's turn is at channel 4. -/
def upAdc : State := { upE .normal with eg := { (upE .normal).eg with adcNext := 4 } }
/-- A cleaning has taken frame 0 and read the entry of its page. -/
def cleaningRead (s : State) : State := ({ s with dir := { s.dir with cleaningOn := true, cleanPos := 1 } }).readEnt 0
/-- The demotion clock of a state has passed frame 0 and read the entry of its page. -/
def clockRead (s : State) : State := ({ s with dir := { s.dir with demOn := true, demClock := 1 } }).readEnt 0
/-- A page-map entry of page 0 is read with an uncorrectable error. -/
def badEnt (s : State) : State := { s with dir := { s.dir with entErrs := [0] } }
/-- A State that meets the hypotheses of a clause. -/
def w331 : State := { up with fb := { Fabric.blank with trace := [.slot 0], probes := [⟨Ctr48.zero, some ⟨0, 2⟩, 0, []⟩] } }
/-- A State that meets the hypotheses of a clause. -/
def w332 : State := { up with regs := ⟨[], [(0x50000, 0x40000000)]⟩, fb := { Fabric.blank with trace := [.word 5] } }
/-- A State that meets the hypotheses of a clause. -/
def w333 : State := { up with regs := ⟨[], [(0x50020, 0xFFC00)]⟩, ev := { up.ev with fifo := [⟨0x20, 1, 0x12, 3, 0, 9⟩] } }

/-! ### Witnesses -/

/-- The hypotheses of AStepRunsTheFrontCommand, one line of conditions for each clause. -/
theorem witness_AStepRunsTheFrontCommand :
    ((w0.pending = [Instr.issueSlot (0 : ℕ)])) ∧
    ((up.pending = [])) := by
  and_intros <;> first
    | exact .head _
    | rfl
    | exact ⟨_, _, rfl⟩
    | exact .inl rfl
    | exact ⟨1, _, by decide, by decide, by decide, rfl, rfl⟩
    | exact .inr (.inl (by decide))
    | exact noReturns (by decide)
    | decide
    | exact fun h => absurd h.1 (by decide)
    | simp
    | (intro _ h; cases h)

/-- The hypotheses of HostRequestJoinsItsHome, one line of conditions for each clause. -/
theorem witness_HostRequestJoinsItsHome :
    (((Instr.memRd (hm (0 : Addr)), Inp.memRd, (0 : Line), (0 : BitVec (64 : ℕ)), false) ∈ [(Instr.memRd (hm (0 : Addr)), Inp.memRd, (0 : Line), (0 : BitVec (64 : ℕ)), false), (Instr.memRdData (hm (0 : Addr)), Inp.memRdData, (0 : Line), (0 : BitVec (64 : ℕ)), false), (Instr.memSpecRd (hm (0 : Addr)), Inp.memSpecRd, (0 : Line), (0 : BitVec (64 : ℕ)), false), (Instr.memInv (hm (0 : Addr)), Inp.memInv, (0 : Line), (0 : BitVec (64 : ℕ)), false), (Instr.memInvNT (hm (0 : Addr)), Inp.memInvNT, (0 : Line), (0 : BitVec (64 : ℕ)), false), (Instr.memClnEvct (hm (0 : Addr)), Inp.memClnEvct, (0 : Line), (0 : BitVec (64 : ℕ)), false), (Instr.memWr (hm (0 : Addr)) (0 : Line) false, Inp.memWr, (0 : Line), BitVec.allOnes (64 : ℕ), false), (Instr.memWrPtl (hm (0 : Addr)) (0 : Line) (0 : BitVec (64 : ℕ)) false, Inp.memWrPtl, (0 : Line), (0 : BitVec (64 : ℕ)), false), (Instr.biConflict (hm (0 : Addr)), Inp.biConflict, (0 : Line), (0 : BitVec (64 : ℕ)), false)]) ∧
      (up.walkFailed = false) ∧
      (up.hostTakes (hm (0 : Addr)).port = true) ∧
      (up.hostRefusal Inp.memRd (hm (0 : Addr)) = none) ∧
      (up.hidOf (hm (0 : Addr)).port (hm (0 : Addr)).ldid (hm (0 : Addr)).spid = some (0 : ℕ)) ∧
      (up.hostPort (hm (0 : Addr)).port = some hp0) ∧
      ((hm (0 : Addr)).reach ≠ Reach.port) ∧
      ((hp0.waiting.any fun (x : Req) => x.line == lineOf (hm (0 : Addr)).addr) = false) ∧
      (up.targetOf (lineOf (hm (0 : Addr)).addr) = some (0 : ℕ)) ∧
      (up.slice (0 : ℕ) = some (sl0 (0 : ℕ))) ∧
      (Inp.memRd = Inp.biConflict ∨ up.portClass (up.hostReqOf Inp.memRd (hm (0 : Addr)) (0 : ℕ) (0 : Line) (0 : BitVec (64 : ℕ)) false) ≠ Cls.k ∨ (sl0 (0 : ℕ)).creditIdle (hm (0 : Addr)).port = true)) ∧
    (((Instr.biConflict (hm (0 : Addr)), Inp.biConflict, (0 : Line), (0 : BitVec (64 : ℕ)), false) ∈ [(Instr.memRd (hm (0 : Addr)), Inp.memRd, (0 : Line), (0 : BitVec (64 : ℕ)), false), (Instr.memRdData (hm (0 : Addr)), Inp.memRdData, (0 : Line), (0 : BitVec (64 : ℕ)), false), (Instr.memSpecRd (hm (0 : Addr)), Inp.memSpecRd, (0 : Line), (0 : BitVec (64 : ℕ)), false), (Instr.memInv (hm (0 : Addr)), Inp.memInv, (0 : Line), (0 : BitVec (64 : ℕ)), false), (Instr.memInvNT (hm (0 : Addr)), Inp.memInvNT, (0 : Line), (0 : BitVec (64 : ℕ)), false), (Instr.memClnEvct (hm (0 : Addr)), Inp.memClnEvct, (0 : Line), (0 : BitVec (64 : ℕ)), false), (Instr.memWr (hm (0 : Addr)) (0 : Line) false, Inp.memWr, (0 : Line), BitVec.allOnes (64 : ℕ), false), (Instr.memWrPtl (hm (0 : Addr)) (0 : Line) (0 : BitVec (64 : ℕ)) false, Inp.memWrPtl, (0 : Line), (0 : BitVec (64 : ℕ)), false), (Instr.biConflict (hm (0 : Addr)), Inp.biConflict, (0 : Line), (0 : BitVec (64 : ℕ)), false)]) ∧
      (up.walkFailed = false) ∧
      (up.hostTakes (hm (0 : Addr)).port = true) ∧
      (up.hostRefusal Inp.biConflict (hm (0 : Addr)) = none) ∧
      (up.hidOf (hm (0 : Addr)).port (hm (0 : Addr)).ldid (hm (0 : Addr)).spid = some (0 : ℕ)) ∧
      (up.hostPort (hm (0 : Addr)).port = some hp0) ∧
      ((hm (0 : Addr)).reach ≠ Reach.port) ∧
      ((hp0.waiting.any fun (x : Req) => x.line == lineOf (hm (0 : Addr)).addr) = false) ∧
      (up.targetOf (lineOf (hm (0 : Addr)).addr) = some (0 : ℕ)) ∧
      (up.slice (0 : ℕ) = some (sl0 (0 : ℕ))) ∧
      (Inp.biConflict = Inp.biConflict ∨ up.portClass (up.hostReqOf Inp.biConflict (hm (0 : Addr)) (0 : ℕ) (0 : Line) (0 : BitVec (64 : ℕ)) false) ≠ Cls.k ∨ (sl0 (0 : ℕ)).creditIdle (hm (0 : Addr)).port = true)) ∧
    (((w2, Inp.memInv, (0 : Line), (0 : BitVec (64 : ℕ)), false) ∈ [(Instr.memRd w1, Inp.memRd, (0 : Line), (0 : BitVec (64 : ℕ)), false), (Instr.memRdData w1, Inp.memRdData, (0 : Line), (0 : BitVec (64 : ℕ)), false), (Instr.memSpecRd w1, Inp.memSpecRd, (0 : Line), (0 : BitVec (64 : ℕ)), false), (Instr.memInv w1, Inp.memInv, (0 : Line), (0 : BitVec (64 : ℕ)), false), (Instr.memInvNT w1, Inp.memInvNT, (0 : Line), (0 : BitVec (64 : ℕ)), false), (Instr.memClnEvct w1, Inp.memClnEvct, (0 : Line), (0 : BitVec (64 : ℕ)), false), (Instr.memWr w1 (0 : Line) false, Inp.memWr, (0 : Line), BitVec.allOnes (64 : ℕ), false), (Instr.memWrPtl w1 (0 : Line) (0 : BitVec (64 : ℕ)) false, Inp.memWrPtl, (0 : Line), (0 : BitVec (64 : ℕ)), false), (Instr.biConflict w1, Inp.biConflict, (0 : Line), (0 : BitVec (64 : ℕ)), false)]) ∧
      (up.walkFailed = false) ∧
      (up.hostTakes w1.port = true) ∧
      (up.hostRefusal Inp.memInv w1 = none) ∧
      (up.hidOf w1.port w1.ldid w1.spid = some (0 : ℕ)) ∧
      (up.hostPort w1.port = some hp0) ∧
      (w1.reach ≠ Reach.port) ∧
      ((hp0.waiting.any fun (x : Req) => x.line == lineOf w1.addr) = false) ∧
      (up.targetOf (lineOf w1.addr) = some (0 : ℕ)) ∧
      (up.slice (0 : ℕ) = some (sl0 (0 : ℕ))) ∧
      (Inp.memInv = Inp.biConflict ∨ up.portClass (up.hostReqOf Inp.memInv w1 (0 : ℕ) (0 : Line) (0 : BitVec (64 : ℕ)) false) ≠ Cls.k ∨ (sl0 (0 : ℕ)).creditIdle w1.port = true)) ∧
    (((w4, Inp.memWr, (0 : Line), BitVec.allOnes (64 : ℕ), false) ∈ [(Instr.memRd w3, Inp.memRd, (0 : Line), (0 : BitVec (64 : ℕ)), false), (Instr.memRdData w3, Inp.memRdData, (0 : Line), (0 : BitVec (64 : ℕ)), false), (Instr.memSpecRd w3, Inp.memSpecRd, (0 : Line), (0 : BitVec (64 : ℕ)), false), (Instr.memInv w3, Inp.memInv, (0 : Line), (0 : BitVec (64 : ℕ)), false), (Instr.memInvNT w3, Inp.memInvNT, (0 : Line), (0 : BitVec (64 : ℕ)), false), (Instr.memClnEvct w3, Inp.memClnEvct, (0 : Line), (0 : BitVec (64 : ℕ)), false), (Instr.memWr w3 (0 : Line) false, Inp.memWr, (0 : Line), BitVec.allOnes (64 : ℕ), false), (Instr.memWrPtl w3 (0 : Line) (BitVec.allOnes (64 : ℕ)) false, Inp.memWrPtl, (0 : Line), BitVec.allOnes (64 : ℕ), false), (Instr.biConflict w3, Inp.biConflict, (0 : Line), (0 : BitVec (64 : ℕ)), false)]) ∧
      (up.walkFailed = false) ∧
      (up.hostTakes w3.port = true) ∧
      (up.hostRefusal Inp.memWr w3 = none) ∧
      (up.hidOf w3.port w3.ldid w3.spid = some (0 : ℕ)) ∧
      (up.hostPort w3.port = some hp0) ∧
      (w3.reach = Reach.port ∨ (hp0.waiting.any fun (x : Req) => x.line == lineOf w3.addr) = true ∨ up.targetOf (lineOf w3.addr) = none ∨ ∃ (p : ℕ) (sl : Slice), up.targetOf (lineOf w3.addr) = some p ∧ up.slice p = some sl ∧ Inp.memWr ≠ Inp.biConflict ∧ up.portClass (up.hostReqOf Inp.memWr w3 (0 : ℕ) (0 : Line) (BitVec.allOnes (64 : ℕ)) false) = Cls.k ∧ sl.creditIdle w3.port = false)) ∧
    (((Instr.memSpecRd (hm (0 : Addr)), Inp.memSpecRd, (0 : Line), (0 : BitVec (64 : ℕ)), false) ∈ [(Instr.memRd (hm (0 : Addr)), Inp.memRd, (0 : Line), (0 : BitVec (64 : ℕ)), false), (Instr.memRdData (hm (0 : Addr)), Inp.memRdData, (0 : Line), (0 : BitVec (64 : ℕ)), false), (Instr.memSpecRd (hm (0 : Addr)), Inp.memSpecRd, (0 : Line), (0 : BitVec (64 : ℕ)), false), (Instr.memInv (hm (0 : Addr)), Inp.memInv, (0 : Line), (0 : BitVec (64 : ℕ)), false), (Instr.memInvNT (hm (0 : Addr)), Inp.memInvNT, (0 : Line), (0 : BitVec (64 : ℕ)), false), (Instr.memClnEvct (hm (0 : Addr)), Inp.memClnEvct, (0 : Line), (0 : BitVec (64 : ℕ)), false), (Instr.memWr (hm (0 : Addr)) (0 : Line) false, Inp.memWr, (0 : Line), BitVec.allOnes (64 : ℕ), false), (Instr.memWrPtl (hm (0 : Addr)) (0 : Line) (0 : BitVec (64 : ℕ)) false, Inp.memWrPtl, (0 : Line), (0 : BitVec (64 : ℕ)), false), (Instr.biConflict (hm (0 : Addr)), Inp.biConflict, (0 : Line), (0 : BitVec (64 : ℕ)), false)]) ∧
      (upW2.walkFailed = false) ∧
      (upW2.hostTakes (hm (0 : Addr)).port = true) ∧
      (upW2.hostRefusal Inp.memSpecRd (hm (0 : Addr)) = none) ∧
      (upW2.hidOf (hm (0 : Addr)).port (hm (0 : Addr)).ldid (hm (0 : Addr)).spid = some (0 : ℕ)) ∧
      (upW2.hostPort (hm (0 : Addr)).port = some hpW) ∧
      ((hm (0 : Addr)).reach = Reach.port ∨ (hpW.waiting.any fun (x : Req) => x.line == lineOf (hm (0 : Addr)).addr) = true ∨ upW2.targetOf (lineOf (hm (0 : Addr)).addr) = none ∨ ∃ (p : ℕ) (sl : Slice), upW2.targetOf (lineOf (hm (0 : Addr)).addr) = some p ∧ upW2.slice p = some sl ∧ Inp.memSpecRd ≠ Inp.biConflict ∧ upW2.portClass (upW2.hostReqOf Inp.memSpecRd (hm (0 : Addr)) (0 : ℕ) (0 : Line) (0 : BitVec (64 : ℕ)) false) = Cls.k ∧ sl.creditIdle (hm (0 : Addr)).port = false)) := by
  and_intros <;> first
    | exact .head _
    | rfl
    | exact ⟨_, _, rfl⟩
    | exact .inl rfl
    | exact ⟨1, _, by decide, by decide, by decide, rfl, rfl⟩
    | exact .inr (.inl (by decide))
    | exact noReturns (by decide)
    | decide
    | exact fun h => absurd h.1 (by decide)
    | simp
    | (intro _ h; cases h)

/-- The hypotheses of HostErrorResponse, one line of conditions for each clause. -/
theorem witness_HostErrorResponse :
    ((up.hostPort (hm (140737488355328 : Addr)).port = some hp0) ∧
      (up.walkFailed = false) ∧
      (up.hostTakes (hm (140737488355328 : Addr)).port = true) ∧
      ((Instr.memRd (hm (140737488355328 : Addr)), Inp.memRd) ∈ [(Instr.memRd (hm (140737488355328 : Addr)), Inp.memRd), (Instr.memRdData (hm (140737488355328 : Addr)), Inp.memRdData), (Instr.memSpecRd (hm (140737488355328 : Addr)), Inp.memSpecRd), (Instr.memInv (hm (140737488355328 : Addr)), Inp.memInv), (Instr.memInvNT (hm (140737488355328 : Addr)), Inp.memInvNT), (Instr.memClnEvct (hm (140737488355328 : Addr)), Inp.memClnEvct), (Instr.memWr (hm (140737488355328 : Addr)) (0 : Line) false, Inp.memWr), (Instr.memWrPtl (hm (140737488355328 : Addr)) (0 : Line) (0 : BitVec (64 : ℕ)) false, Inp.memWrPtl), (Instr.biConflict (hm (140737488355328 : Addr)), Inp.biConflict)]) ∧
      (up.hostRefusal Inp.memRd (hm (140737488355328 : Addr)) = some (0 : ℕ))) ∧
    ((up.hostPort (hm (0 : Addr)).port = some hp0) ∧
      (up.walkFailed = false) ∧
      (up.hostTakes (hm (0 : Addr)).port = true) ∧
      ((Instr.hostUnsupported (hm (0 : Addr)) M2SChan.req, Inp.memInv) ∈ [(Instr.hostUnsupported (hm (0 : Addr)) M2SChan.req, Inp.memInv), (Instr.hostUnsupported (hm (0 : Addr)) M2SChan.rwd, Inp.memInv)])) ∧
    ((upFail.hostPort (hm (0 : Addr)).port = some hp0) ∧
      (upFail.walkFailed = true) ∧
      (upFail.hostUp (hm (0 : Addr)).port = true) ∧
      ((hm (0 : Addr)).port < upFail.variant.hosts) ∧
      ((Instr.memRd (hm (0 : Addr)), Inp.memRd) ∈ [(Instr.memRd (hm (0 : Addr)), Inp.memRd), (Instr.memRdData (hm (0 : Addr)), Inp.memRdData), (Instr.memSpecRd (hm (0 : Addr)), Inp.memSpecRd), (Instr.memInv (hm (0 : Addr)), Inp.memInv), (Instr.memInvNT (hm (0 : Addr)), Inp.memInvNT), (Instr.memClnEvct (hm (0 : Addr)), Inp.memClnEvct), (Instr.memWr (hm (0 : Addr)) (0 : Line) false, Inp.memWr), (Instr.memWrPtl (hm (0 : Addr)) (0 : Line) (0 : BitVec (64 : ℕ)) false, Inp.memWrPtl), (Instr.biConflict (hm (0 : Addr)), Inp.biConflict)] ∨ (Instr.memRd (hm (0 : Addr)), Inp.memRd) ∈ [(Instr.hostUnsupported (hm (0 : Addr)) M2SChan.req, Inp.memInv), (Instr.hostUnsupported (hm (0 : Addr)) M2SChan.rwd, Inp.memInv)])) := by
  and_intros <;> first
    | exact .head _
    | rfl
    | exact ⟨_, _, rfl⟩
    | exact .inl rfl
    | exact ⟨1, _, by decide, by decide, by decide, rfl, rfl⟩
    | exact .inr (.inl (by decide))
    | exact noReturns (by decide)
    | decide
    | exact fun h => absurd h.1 (by decide)
    | simp
    | (intro _ h; cases h)

/-- The hypotheses of PortsThatTakeNothing, one line of conditions for each clause. -/
theorem witness_PortsThatTakeNothing :
    ((State.reset.walkFailed = false) ∧
      (State.reset.hostTakes (hm (0 : Addr)).port = false) ∧
      (Instr.memRd (hm (0 : Addr)) ∈ [Instr.memRd (hm (0 : Addr)), Instr.memRdData (hm (0 : Addr)), Instr.memSpecRd (hm (0 : Addr)), Instr.memInv (hm (0 : Addr)), Instr.memInvNT (hm (0 : Addr)), Instr.memClnEvct (hm (0 : Addr)), Instr.memWr (hm (0 : Addr)) (0 : Line) false, Instr.memWrPtl (hm (0 : Addr)) (0 : Line) (0 : BitVec (64 : ℕ)) false, Instr.biConflict (hm (0 : Addr)), Instr.hostUnsupported (hm (0 : Addr)) M2SChan.req, Instr.hostUnsupported (hm (0 : Addr)) M2SChan.rwd])) ∧
    ((up.hostPort (hm (0 : Addr)).port = some hp0) ∧
      (up.hostUp (hm (0 : Addr)).port = true) ∧
      (up.eg.pstate ≠ PState.save) ∧
      (up.eg.pstate ≠ PState.saved)) := by
  and_intros <;> first
    | exact .head _
    | rfl
    | exact ⟨_, _, rfl⟩
    | exact .inl rfl
    | exact ⟨1, _, by decide, by decide, by decide, rfl, rfl⟩
    | exact .inr (.inl (by decide))
    | exact noReturns (by decide)
    | decide
    | exact fun h => absurd h.1 (by decide)
    | simp
    | (intro _ h; cases h)

/-- The hypotheses of BIRspAnswersItsLinesOrIsDiscarded, one line of conditions for each clause. -/
theorem witness_BIRspAnswersItsLinesOrIsDiscarded :
    (((Instr.biRspIBlk r0 false, Inp.biRspI, blockOf false r0.line) ∈ [(Instr.biRspI r0, Inp.biRspI, [r0.line]), (Instr.biRspS r0, Inp.biRspS, [r0.line]), (Instr.biRspE r0, Inp.biRspE, [r0.line]), (Instr.biRspIBlk r0 false, Inp.biRspI, blockOf false r0.line), (Instr.biRspSBlk r0 false, Inp.biRspS, blockOf false r0.line), (Instr.biRspEBlk r0 false, Inp.biRspE, blockOf false r0.line)]) ∧
      (up.hostUp r0.port = true) ∧
      (up.eg.pstate ≠ PState.save) ∧
      (up.eg.pstate ≠ PState.saved) ∧
      (up.hidOf r0.port r0.ldid r0.spid = some (0 : ℕ))) ∧
    (((w6, Inp.biRspI, w7) ∈ [(Instr.biRspI w5, Inp.biRspI, [w5.line]), (Instr.biRspS w5, Inp.biRspS, [w5.line]), (Instr.biRspE w5, Inp.biRspE, [w5.line]), (Instr.biRspIBlk w5 false, Inp.biRspI, blockOf false w5.line), (Instr.biRspSBlk w5 false, Inp.biRspS, blockOf false w5.line), (Instr.biRspEBlk w5 false, Inp.biRspE, blockOf false w5.line)]) ∧
      (up.hostUp w5.port = true) ∧
      (up.eg.pstate ≠ PState.save) ∧
      (up.eg.pstate ≠ PState.saved) ∧
      (up.hidOf w5.port w5.ldid w5.spid = none)) ∧
    (((Instr.biRspS r0, Inp.biRspS) ∈ [(Instr.biRspI r0, Inp.biRspI), (Instr.biRspS r0, Inp.biRspS), (Instr.biRspE r0, Inp.biRspE)]) ∧
      (upNoHome.hostUp r0.port = true) ∧
      (upNoHome.eg.pstate ≠ PState.save) ∧
      (upNoHome.eg.pstate ≠ PState.saved) ∧
      (upNoHome.hidOf r0.port r0.ldid r0.spid = some (0 : ℕ)) ∧
      (upNoHome.answerSlice r0.line = none)) ∧
    (((Instr.biRspI r0, Inp.biRspI) ∈ [(Instr.biRspI r0, Inp.biRspI), (Instr.biRspS r0, Inp.biRspS), (Instr.biRspE r0, Inp.biRspE)]) ∧
      ((upT tH).hostUp r0.port = true) ∧
      ((upT tH).eg.pstate ≠ PState.save) ∧
      ((upT tH).eg.pstate ≠ PState.saved) ∧
      ((upT tH).hidOf r0.port r0.ldid r0.spid = some (0 : ℕ)) ∧
      ((upT tH).answerSlice r0.line = some (0 : ℕ)) ∧
      ((upT tH).slice (0 : ℕ) = some (slT tH)) ∧
      ((slT tH).snooped (0 : ℕ) r0.line = some (tH, { hid := (0 : ℕ), line := (0 : LineAddr), kind := HSnp.inv, owner := false : HSnpOut })) ∧
      (Inp.biRspI = Inp.biRspI ∨ Inp.biRspI = Inp.biRspS ∧ { hid := (0 : ℕ), line := (0 : LineAddr), kind := HSnp.inv, owner := false : HSnpOut }.kind ≠ HSnp.inv ∨ Inp.biRspI = Inp.biRspE ∧ { hid := (0 : ℕ), line := (0 : LineAddr), kind := HSnp.inv, owner := false : HSnpOut }.kind = HSnp.cur)) ∧
    (((Instr.biRspE r0, Inp.biRspE) ∈ [(Instr.biRspI r0, Inp.biRspI), (Instr.biRspS r0, Inp.biRspS), (Instr.biRspE r0, Inp.biRspE)]) ∧
      ((upT tH).hostUp r0.port = true) ∧
      ((upT tH).eg.pstate ≠ PState.save) ∧
      ((upT tH).eg.pstate ≠ PState.saved) ∧
      ((upT tH).hidOf r0.port r0.ldid r0.spid = some (0 : ℕ)) ∧
      ((upT tH).answerSlice r0.line = some (0 : ℕ)) ∧
      ((upT tH).slice (0 : ℕ) = some (slT tH)) ∧
      ((slT tH).snooped (0 : ℕ) r0.line = some (tH, { hid := (0 : ℕ), line := (0 : LineAddr), kind := HSnp.inv, owner := false : HSnpOut })) ∧
      (Inp.biRspE = Inp.biRspS ∧ { hid := (0 : ℕ), line := (0 : LineAddr), kind := HSnp.inv, owner := false : HSnpOut }.kind = HSnp.inv ∨ Inp.biRspE = Inp.biRspE ∧ { hid := (0 : ℕ), line := (0 : LineAddr), kind := HSnp.inv, owner := false : HSnpOut }.kind ≠ HSnp.cur)) ∧
    (((Instr.biRspE r0, Inp.biRspE) ∈ [(Instr.biRspI r0, Inp.biRspI), (Instr.biRspS r0, Inp.biRspS), (Instr.biRspE r0, Inp.biRspE)]) ∧
      (up.hostUp r0.port = true) ∧
      (up.eg.pstate ≠ PState.save) ∧
      (up.eg.pstate ≠ PState.saved) ∧
      (up.hidOf r0.port r0.ldid r0.spid = some (0 : ℕ)) ∧
      (up.answerSlice r0.line = some (0 : ℕ)) ∧
      (up.slice (0 : ℕ) = some (sl0 (0 : ℕ))) ∧
      ((sl0 (0 : ℕ)).snooped (0 : ℕ) r0.line = none) ∧
      (up.cast.replays = [])) := by
  and_intros <;> first
    | exact .head _
    | rfl
    | exact ⟨_, _, rfl⟩
    | exact .inl rfl
    | exact ⟨1, _, by decide, by decide, by decide, rfl, rfl⟩
    | exact .inr (.inl (by decide))
    | exact noReturns (by decide)
    | decide
    | exact fun h => absurd h.1 (by decide)
    | simp
    | (intro _ h; cases h)

/-- The hypotheses of HostPortsBindResetAndDeliver, one line of conditions for each clause. -/
theorem witness_HostPortsBindResetAndDeliver :
    (((0 : ℕ) < upDown.variant.hosts) ∧
      (upDown.hostPort (0 : ℕ) = some HostPort.blank)) ∧
    (((0 : ℕ) < upDown.variant.hosts) ∧
      (upDown.hostPort (0 : ℕ) = some HostPort.blank) ∧
      (∀ sl ∈ upDown.slices, sl.retq = [])) ∧
    (((0 : ℕ) < up.variant.hosts) ∧
      (up.hostPort (0 : ℕ) = some hp0) ∧
      (∀ x ∈ up.hids, x.st.leaving = false) ∧
      (hp0.egress = [])) ∧
    (((0 : ℕ) < upM0.variant.hosts) ∧
      (upM0.hostPort (0 : ℕ) = some hpM0) ∧
      (∀ x ∈ upM0.hids, x.st.leaving = false) ∧
      (hpM0.egress = [w8]) ∧
      (w8.phys = some (0 : ℕ)) ∧
      ({ variant := upM0.variant, pending := upM0.pending, free := upM0.free, pins := upM0.pins, gl := upM0.gl, regs := upM0.regs, cfg := upM0.cfg, hostPorts := upM0.hostPorts.modify (0 : ℕ) fun (h : HostPort) => { linkUp := false, inReset := true, linkDowns := satInc h.linkDowns, egress := [], waiting := h.waiting, errs := h.errs, logged := h.logged, biUnmatched := h.biUnmatched : HostPort }, hids := List.map (fun (x : Hid) => if (x.st == HidSt.bound && !(List.range upM0.hostPorts.length).any fun (q : ℕ) => q != (0 : ℕ) && bitAt x.portMask q && upM0.hostUp q) = true then { valid := x.valid, portMask := x.portMask, kind := x.kind, value := x.value, window := x.window, st := HidSt.absent, windowLeft := BitVec.ofNat (15 : ℕ) x.windowMs : Hid } else x) upM0.hids, agentPorts := upM0.agentPorts, slices := List.map (fun (sl : Slice) => sl.modInput (0 : ℕ) fun (i : InputQ) => { waiting := i.waiting, starve := i.starve, forced := i.forced, kcredit := if (i.waiting.any fun (q : Req) => q.withK) = true then i.kcredit else none, wasReset := true : InputQ }) upM0.slices, memPorts := upM0.memPorts, spill := upM0.spill, cast := upM0.cast, dir := upM0.dir, dctl := upM0.dctl, root := upM0.root, eg := upM0.eg, pwr := upM0.pwr, ld := upM0.ld, fb := upM0.fb, net := upM0.net, ring := upM0.ring, ringSnoops := upM0.ringSnoops, ev := upM0.ev : State }.snoopPort w8.hid = none)) ∧
    (((0 : ℕ) < upM1.variant.hosts) ∧
      (upM1.hostPort (0 : ℕ) = some hpM1) ∧
      (∀ x ∈ upM1.hids, x.st.leaving = false) ∧
      (hpM1.egress = [s2mE]) ∧
      (s2mE.phys = some (0 : ℕ)) ∧
      ({ variant := upM1.variant, pending := upM1.pending, free := upM1.free, pins := upM1.pins, gl := upM1.gl, regs := upM1.regs, cfg := upM1.cfg, hostPorts := upM1.hostPorts.modify (0 : ℕ) fun (h : HostPort) => { linkUp := false, inReset := true, linkDowns := satInc h.linkDowns, egress := [], waiting := h.waiting, errs := h.errs, logged := h.logged, biUnmatched := h.biUnmatched : HostPort }, hids := List.map (fun (x : Hid) => if (x.st == HidSt.bound && !(List.range upM1.hostPorts.length).any fun (q : ℕ) => q != (0 : ℕ) && bitAt x.portMask q && upM1.hostUp q) = true then { valid := x.valid, portMask := x.portMask, kind := x.kind, value := x.value, window := x.window, st := HidSt.absent, windowLeft := BitVec.ofNat (15 : ℕ) x.windowMs : Hid } else x) upM1.hids, agentPorts := upM1.agentPorts, slices := List.map (fun (sl : Slice) => sl.modInput (0 : ℕ) fun (i : InputQ) => { waiting := i.waiting, starve := i.starve, forced := i.forced, kcredit := if (i.waiting.any fun (q : Req) => q.withK) = true then i.kcredit else none, wasReset := true : InputQ }) upM1.slices, memPorts := upM1.memPorts, spill := upM1.spill, cast := upM1.cast, dir := upM1.dir, dctl := upM1.dctl, root := upM1.root, eg := upM1.eg, pwr := upM1.pwr, ld := upM1.ld, fb := upM1.fb, net := upM1.net, ring := upM1.ring, ringSnoops := upM1.ringSnoops, ev := upM1.ev : State }.snoopPort s2mE.hid = some (1 : ℕ))) ∧
    ((upM.hostPort (0 : ℕ) = some hpM) ∧
      (hpM.egress = [] ++ [s2m0]) ∧
      (∀ x ∈ nilOf S2M, x.body.chan ≠ S2MChan.ndr) ∧
      (s2m0.body.chan = S2MChan.ndr)) := by
  and_intros <;> first
    | exact .head _
    | rfl
    | exact ⟨_, _, rfl⟩
    | exact .inl rfl
    | exact ⟨1, _, by decide, by decide, by decide, rfl, rfl⟩
    | exact .inr (.inl (by decide))
    | exact noReturns (by decide)
    | decide
    | exact fun h => absurd h.1 (by decide)
    | simp
    | (intro _ h; cases h)

/-- The hypotheses of HidsExpireAndAreFenced, one line of conditions for each clause. -/
theorem witness_HidsExpireAndAreFenced :
    (((upH HidSt.absent).hid (0 : ℕ) = some (hid0 HidSt.absent)) ∧
      ((hid0 HidSt.absent).st = HidSt.absent) ∧
      ((upH HidSt.absent).pwr.phase ≠ PwrPhase.p2)) ∧
    (((upH HidSt.absent).hid (0 : ℕ) = some (hid0 HidSt.absent)) ∧
      ((hid0 HidSt.absent).st = HidSt.absent) ∧
      ((upH HidSt.absent).pwr.phase ≠ PwrPhase.p2) ∧
      (∀ sl ∈ (upH HidSt.absent).slices, sl.waitsFor (0 : ℕ) = [] ∧ ∀ m ∈ sl.retq, m.hid = (0 : ℕ) → ∀ (t : ℕ), m.body ≠ S2MBody.ndr Ndr.cmpE t)) ∧
    (((upH HidSt.expiring).hid (0 : ℕ) = some (hid0 HidSt.expiring)) ∧
      ((hid0 HidSt.expiring).st.leaving = true)) ∧
    (((upH HidSt.expiring).hid (0 : ℕ) = some (hid0 HidSt.expiring)) ∧
      ((hid0 HidSt.expiring).st.leaving = true) ∧
      (∀ sl ∈ (upH HidSt.expiring).slices, (∀ m ∈ sl.retq, m.hid ≠ (0 : ℕ)) ∧ sl.waitsFor (0 : ℕ) = [] ∧ sl.hidLines (0 : ℕ) = []) ∧
      ((upH HidSt.expiring).spill = [])) ∧
    (((upT tH).hid (0 : ℕ) = some (hid0 HidSt.bound)) ∧
      ((hid0 HidSt.bound).st = HidSt.bound) ∧
      ((upT tH).pwr.phase ≠ PwrPhase.p2) ∧
      (slT tH ∈ (upT tH).slices) ∧
      ((slT tH).waitsFor (0 : ℕ) ≠ [])) := by
  and_intros <;> first
    | exact .head _
    | rfl
    | exact ⟨_, _, rfl⟩
    | exact .inl rfl
    | exact ⟨1, _, by decide, by decide, by decide, rfl, rfl⟩
    | exact .inr (.inl (by decide))
    | exact noReturns (by decide)
    | decide
    | exact fun h => absurd h.1 (by decide)
    | simp
    | (intro _ h; cases h)

/-- The hypotheses of AgentRequestIsHeldByItsPort, one line of conditions for each clause. -/
theorem witness_AgentRequestIsHeldByItsPort :
    (((Instr.rdOwn (am (63 : BitVec (6 : ℕ))), Inp.rdOwn, (0 : Line), false) ∈ [(Instr.rdShared (am (63 : BitVec (6 : ℕ))), Inp.rdShared, (0 : Line), false), (Instr.rdOwn (am (63 : BitVec (6 : ℕ))), Inp.rdOwn, (0 : Line), false), (Instr.rdCur (am (63 : BitVec (6 : ℕ))), Inp.rdCur, (0 : Line), false), (Instr.upgrade (am (63 : BitVec (6 : ℕ))), Inp.upgrade, (0 : Line), false), (Instr.wbDirty (am (63 : BitVec (6 : ℕ))) (0 : Line) false, Inp.wbDirty, (0 : Line), false), (Instr.evictClean (am (63 : BitVec (6 : ℕ))), Inp.evictClean, (0 : Line), false), (Instr.atomicOp (am (63 : BitVec (6 : ℕ))) (0 : Line), Inp.atomicOp, (0 : Line), false), (Instr.rdRes (am (63 : BitVec (6 : ℕ))), Inp.rdRes, (0 : Line), false), (Instr.wrCond (am (63 : BitVec (6 : ℕ))) (0 : Line), Inp.wrCond, (0 : Line), false), (Instr.fence (am (63 : BitVec (6 : ℕ))), Inp.fence, (0 : Line), false)]) ∧
      ((upA ap0).walkFailed = false) ∧
      ((upA ap0).agentPort (am (63 : BitVec (6 : ℕ))).port = some ap0) ∧
      ((upA ap0).agentTakes (am (63 : BitVec (6 : ℕ))).port ap0 (opcOf (am (63 : BitVec (6 : ℕ))).opc) = true) ∧
      (bitAt ap0.silent (am (63 : BitVec (6 : ℕ))).agent.toNat = true ∨ (upA ap0).agentOn (am (63 : BitVec (6 : ℕ))).port (am (63 : BitVec (6 : ℕ))).agent.toNat = true) ∧
      (ap0.credits (am (63 : BitVec (6 : ℕ))).agent.toNat ≠ (0 : ℕ)) ∧
      ((upA ap0).agentRefusal (am (63 : BitVec (6 : ℕ))) (bitAt ap0.silent (am (63 : BitVec (6 : ℕ))).agent.toNat) = some (1 : BitVec (3 : ℕ)))) ∧
    (((Instr.rdCur (am (18 : BitVec (6 : ℕ))), Inp.rdCur, (0 : Line), false) ∈ [(Instr.rdShared (am (18 : BitVec (6 : ℕ))), Inp.rdShared, (0 : Line), false), (Instr.rdOwn (am (18 : BitVec (6 : ℕ))), Inp.rdOwn, (0 : Line), false), (Instr.rdCur (am (18 : BitVec (6 : ℕ))), Inp.rdCur, (0 : Line), false), (Instr.upgrade (am (18 : BitVec (6 : ℕ))), Inp.upgrade, (0 : Line), false), (Instr.wbDirty (am (18 : BitVec (6 : ℕ))) (0 : Line) false, Inp.wbDirty, (0 : Line), false), (Instr.evictClean (am (18 : BitVec (6 : ℕ))), Inp.evictClean, (0 : Line), false), (Instr.atomicOp (am (18 : BitVec (6 : ℕ))) (0 : Line), Inp.atomicOp, (0 : Line), false), (Instr.rdRes (am (18 : BitVec (6 : ℕ))), Inp.rdRes, (0 : Line), false), (Instr.wrCond (am (18 : BitVec (6 : ℕ))) (0 : Line), Inp.wrCond, (0 : Line), false), (Instr.fence (am (18 : BitVec (6 : ℕ))), Inp.fence, (0 : Line), false)]) ∧
      (w9.walkFailed = false) ∧
      (w9.agentPort (am (18 : BitVec (6 : ℕ))).port = some w10) ∧
      (w9.agentTakes (am (18 : BitVec (6 : ℕ))).port w10 (opcOf (am (18 : BitVec (6 : ℕ))).opc) = true) ∧
      (bitAt w10.silent (am (18 : BitVec (6 : ℕ))).agent.toNat = true ∨ w9.agentOn (am (18 : BitVec (6 : ℕ))).port (am (18 : BitVec (6 : ℕ))).agent.toNat = true) ∧
      (w10.credits (am (18 : BitVec (6 : ℕ))).agent.toNat ≠ (0 : ℕ)) ∧
      (w9.agentRefusal (am (18 : BitVec (6 : ℕ))) (bitAt w10.silent (am (18 : BitVec (6 : ℕ))).agent.toNat) = none) ∧
      ((w9.portReqOf ((opcOf (am (18 : BitVec (6 : ℕ))).opc).getD Inp.rdCur) (am (18 : BitVec (6 : ℕ))) (0 : Line) false).inBuf = false ∨ (List.filter PortReq.buffers w10.held).length < (32 : ℕ)) ∧
      (∀ z ∈ w10.held, z.blocks (w9.portReqOf ((opcOf (am (18 : BitVec (6 : ℕ))).opc).getD Inp.rdCur) (am (18 : BitVec (6 : ℕ))) (0 : Line) false) = false) ∧
      (w10.selfData (w9.portReqOf ((opcOf (am (18 : BitVec (6 : ℕ))).opc).getD Inp.rdCur) (am (18 : BitVec (6 : ℕ))) (0 : Line) false) = some (pr Inp.wbDirty true ReqStage.buffered))) ∧
    (((Instr.rdOwn (am (17 : BitVec (6 : ℕ))), Inp.rdOwn, (0 : Line), false) ∈ [(Instr.rdShared (am (17 : BitVec (6 : ℕ))), Inp.rdShared, (0 : Line), false), (Instr.rdOwn (am (17 : BitVec (6 : ℕ))), Inp.rdOwn, (0 : Line), false), (Instr.rdCur (am (17 : BitVec (6 : ℕ))), Inp.rdCur, (0 : Line), false), (Instr.upgrade (am (17 : BitVec (6 : ℕ))), Inp.upgrade, (0 : Line), false), (Instr.wbDirty (am (17 : BitVec (6 : ℕ))) (0 : Line) false, Inp.wbDirty, (0 : Line), false), (Instr.evictClean (am (17 : BitVec (6 : ℕ))), Inp.evictClean, (0 : Line), false), (Instr.atomicOp (am (17 : BitVec (6 : ℕ))) (0 : Line), Inp.atomicOp, (0 : Line), false), (Instr.rdRes (am (17 : BitVec (6 : ℕ))), Inp.rdRes, (0 : Line), false), (Instr.wrCond (am (17 : BitVec (6 : ℕ))) (0 : Line), Inp.wrCond, (0 : Line), false), (Instr.fence (am (17 : BitVec (6 : ℕ))), Inp.fence, (0 : Line), false)]) ∧
      ((upA ap0).walkFailed = false) ∧
      ((upA ap0).agentPort (am (17 : BitVec (6 : ℕ))).port = some ap0) ∧
      ((upA ap0).agentTakes (am (17 : BitVec (6 : ℕ))).port ap0 (opcOf (am (17 : BitVec (6 : ℕ))).opc) = true) ∧
      (bitAt ap0.silent (am (17 : BitVec (6 : ℕ))).agent.toNat = true ∨ (upA ap0).agentOn (am (17 : BitVec (6 : ℕ))).port (am (17 : BitVec (6 : ℕ))).agent.toNat = true) ∧
      (ap0.credits (am (17 : BitVec (6 : ℕ))).agent.toNat ≠ (0 : ℕ)) ∧
      ((upA ap0).agentRefusal (am (17 : BitVec (6 : ℕ))) (bitAt ap0.silent (am (17 : BitVec (6 : ℕ))).agent.toNat) = none) ∧
      (((upA ap0).portReqOf ((opcOf (am (17 : BitVec (6 : ℕ))).opc).getD Inp.rdOwn) (am (17 : BitVec (6 : ℕ))) (0 : Line) false).inBuf = false ∨ (List.filter PortReq.buffers ap0.held).length < (32 : ℕ)) ∧
      ((∃ z ∈ ap0.held, z.blocks ((upA ap0).portReqOf ((opcOf (am (17 : BitVec (6 : ℕ))).opc).getD Inp.rdOwn) (am (17 : BitVec (6 : ℕ))) (0 : Line) false) = true) ∨ ap0.selfData ((upA ap0).portReqOf ((opcOf (am (17 : BitVec (6 : ℕ))).opc).getD Inp.rdOwn) (am (17 : BitVec (6 : ℕ))) (0 : Line) false) = none) ∧
      ((am (17 : BitVec (6 : ℕ))).reach = Reach.port)) ∧
    (((Instr.rdOwn (am1 (17 : BitVec (6 : ℕ))), Inp.rdOwn, (0 : Line), false) ∈ [(Instr.rdShared (am1 (17 : BitVec (6 : ℕ))), Inp.rdShared, (0 : Line), false), (Instr.rdOwn (am1 (17 : BitVec (6 : ℕ))), Inp.rdOwn, (0 : Line), false), (Instr.rdCur (am1 (17 : BitVec (6 : ℕ))), Inp.rdCur, (0 : Line), false), (Instr.upgrade (am1 (17 : BitVec (6 : ℕ))), Inp.upgrade, (0 : Line), false), (Instr.wbDirty (am1 (17 : BitVec (6 : ℕ))) (0 : Line) false, Inp.wbDirty, (0 : Line), false), (Instr.evictClean (am1 (17 : BitVec (6 : ℕ))), Inp.evictClean, (0 : Line), false), (Instr.atomicOp (am1 (17 : BitVec (6 : ℕ))) (0 : Line), Inp.atomicOp, (0 : Line), false), (Instr.rdRes (am1 (17 : BitVec (6 : ℕ))), Inp.rdRes, (0 : Line), false), (Instr.wrCond (am1 (17 : BitVec (6 : ℕ))) (0 : Line), Inp.wrCond, (0 : Line), false), (Instr.fence (am1 (17 : BitVec (6 : ℕ))), Inp.fence, (0 : Line), false)]) ∧
      ((upA ap0).walkFailed = false) ∧
      ((upA ap0).agentPort (am1 (17 : BitVec (6 : ℕ))).port = some ap0) ∧
      ((upA ap0).agentTakes (am1 (17 : BitVec (6 : ℕ))).port ap0 (opcOf (am1 (17 : BitVec (6 : ℕ))).opc) = true) ∧
      (bitAt ap0.silent (am1 (17 : BitVec (6 : ℕ))).agent.toNat = true ∨ (upA ap0).agentOn (am1 (17 : BitVec (6 : ℕ))).port (am1 (17 : BitVec (6 : ℕ))).agent.toNat = true) ∧
      (ap0.credits (am1 (17 : BitVec (6 : ℕ))).agent.toNat ≠ (0 : ℕ)) ∧
      ((upA ap0).agentRefusal (am1 (17 : BitVec (6 : ℕ))) (bitAt ap0.silent (am1 (17 : BitVec (6 : ℕ))).agent.toNat) = none) ∧
      (((upA ap0).portReqOf ((opcOf (am1 (17 : BitVec (6 : ℕ))).opc).getD Inp.rdOwn) (am1 (17 : BitVec (6 : ℕ))) (0 : Line) false).inBuf = false ∨ (List.filter PortReq.buffers ap0.held).length < (32 : ℕ)) ∧
      ((∃ z ∈ ap0.held, z.blocks ((upA ap0).portReqOf ((opcOf (am1 (17 : BitVec (6 : ℕ))).opc).getD Inp.rdOwn) (am1 (17 : BitVec (6 : ℕ))) (0 : Line) false) = true) ∨ ap0.selfData ((upA ap0).portReqOf ((opcOf (am1 (17 : BitVec (6 : ℕ))).opc).getD Inp.rdOwn) (am1 (17 : BitVec (6 : ℕ))) (0 : Line) false) = none) ∧
      (((upA ap0).modAgentPort (am1 (17 : BitVec (6 : ℕ))).port fun (a : AgentPort) => have __src := (fun (a : AgentPort) => if (5 : ℕ) ≤ (am1 (17 : BitVec (6 : ℕ))).cls.toNat then a.err (0 : ℕ) else a) a; { held := a.held ++ [(upA ap0).portReqOf ((opcOf (am1 (17 : BitVec (6 : ℕ))).opc).getD Inp.rdOwn) (am1 (17 : BitVec (6 : ℕ))) (0 : Line) false], assigned := __src.assigned, creditShort := __src.creditShort, headAge := __src.headAge, snq := __src.snq, recv := __src.recv, resv := __src.resv, silent := __src.silent, stopped := __src.stopped, flush := __src.flush, kept := __src.kept, errs := __src.errs, fwdDrop := __src.fwdDrop, lastRsp := __src.lastRsp, inbound := __src.inbound : AgentPort }).agentPort (am1 (17 : BitVec (6 : ℕ))).port = some w11) ∧
      ((am1 (17 : BitVec (6 : ℕ))).reach ≠ Reach.port) ∧
      (((upA ap0).modAgentPort (am1 (17 : BitVec (6 : ℕ))).port fun (a : AgentPort) => have __src := (fun (a : AgentPort) => if (5 : ℕ) ≤ (am1 (17 : BitVec (6 : ℕ))).cls.toNat then a.err (0 : ℕ) else a) a; { held := a.held ++ [(upA ap0).portReqOf ((opcOf (am1 (17 : BitVec (6 : ℕ))).opc).getD Inp.rdOwn) (am1 (17 : BitVec (6 : ℕ))) (0 : Line) false], assigned := __src.assigned, creditShort := __src.creditShort, headAge := __src.headAge, snq := __src.snq, recv := __src.recv, resv := __src.resv, silent := __src.silent, stopped := __src.stopped, flush := __src.flush, kept := __src.kept, errs := __src.errs, fwdDrop := __src.fwdDrop, lastRsp := __src.lastRsp, inbound := __src.inbound : AgentPort }).nextSend (am1 (17 : BitVec (6 : ℕ))).port w11 = some (pr1 Inp.rdOwn (17 : BitVec (6 : ℕ)))) ∧
      ((pr1 Inp.rdOwn (17 : BitVec (6 : ℕ))).same ((upA ap0).portReqOf ((opcOf (am1 (17 : BitVec (6 : ℕ))).opc).getD Inp.rdOwn) (am1 (17 : BitVec (6 : ℕ))) (0 : Line) false) = true)) ∧
    (((Instr.rdShared (am1 (16 : BitVec (6 : ℕ))), Inp.rdShared, (0 : Line), false) ∈ [(Instr.rdShared (am1 (16 : BitVec (6 : ℕ))), Inp.rdShared, (0 : Line), false), (Instr.rdOwn (am1 (16 : BitVec (6 : ℕ))), Inp.rdOwn, (0 : Line), false), (Instr.rdCur (am1 (16 : BitVec (6 : ℕ))), Inp.rdCur, (0 : Line), false), (Instr.upgrade (am1 (16 : BitVec (6 : ℕ))), Inp.upgrade, (0 : Line), false), (Instr.wbDirty (am1 (16 : BitVec (6 : ℕ))) (0 : Line) false, Inp.wbDirty, (0 : Line), false), (Instr.evictClean (am1 (16 : BitVec (6 : ℕ))), Inp.evictClean, (0 : Line), false), (Instr.atomicOp (am1 (16 : BitVec (6 : ℕ))) (0 : Line), Inp.atomicOp, (0 : Line), false), (Instr.rdRes (am1 (16 : BitVec (6 : ℕ))), Inp.rdRes, (0 : Line), false), (Instr.wrCond (am1 (16 : BitVec (6 : ℕ))) (0 : Line), Inp.wrCond, (0 : Line), false), (Instr.fence (am1 (16 : BitVec (6 : ℕ))), Inp.fence, (0 : Line), false)]) ∧
      ((upA apF).walkFailed = false) ∧
      ((upA apF).agentPort (am1 (16 : BitVec (6 : ℕ))).port = some apF) ∧
      ((upA apF).agentTakes (am1 (16 : BitVec (6 : ℕ))).port apF (opcOf (am1 (16 : BitVec (6 : ℕ))).opc) = true) ∧
      (bitAt apF.silent (am1 (16 : BitVec (6 : ℕ))).agent.toNat = true ∨ (upA apF).agentOn (am1 (16 : BitVec (6 : ℕ))).port (am1 (16 : BitVec (6 : ℕ))).agent.toNat = true) ∧
      (apF.credits (am1 (16 : BitVec (6 : ℕ))).agent.toNat ≠ (0 : ℕ)) ∧
      ((upA apF).agentRefusal (am1 (16 : BitVec (6 : ℕ))) (bitAt apF.silent (am1 (16 : BitVec (6 : ℕ))).agent.toNat) = none) ∧
      (((upA apF).portReqOf ((opcOf (am1 (16 : BitVec (6 : ℕ))).opc).getD Inp.rdShared) (am1 (16 : BitVec (6 : ℕ))) (0 : Line) false).inBuf = false ∨ (List.filter PortReq.buffers apF.held).length < (32 : ℕ)) ∧
      ((∃ z ∈ apF.held, z.blocks ((upA apF).portReqOf ((opcOf (am1 (16 : BitVec (6 : ℕ))).opc).getD Inp.rdShared) (am1 (16 : BitVec (6 : ℕ))) (0 : Line) false) = true) ∨ apF.selfData ((upA apF).portReqOf ((opcOf (am1 (16 : BitVec (6 : ℕ))).opc).getD Inp.rdShared) (am1 (16 : BitVec (6 : ℕ))) (0 : Line) false) = none) ∧
      (((upA apF).modAgentPort (am1 (16 : BitVec (6 : ℕ))).port fun (a : AgentPort) => have __src := (fun (a : AgentPort) => if (5 : ℕ) ≤ (am1 (16 : BitVec (6 : ℕ))).cls.toNat then a.err (0 : ℕ) else a) a; { held := a.held ++ [(upA apF).portReqOf ((opcOf (am1 (16 : BitVec (6 : ℕ))).opc).getD Inp.rdShared) (am1 (16 : BitVec (6 : ℕ))) (0 : Line) false], assigned := __src.assigned, creditShort := __src.creditShort, headAge := __src.headAge, snq := __src.snq, recv := __src.recv, resv := __src.resv, silent := __src.silent, stopped := __src.stopped, flush := __src.flush, kept := __src.kept, errs := __src.errs, fwdDrop := __src.fwdDrop, lastRsp := __src.lastRsp, inbound := __src.inbound : AgentPort }).agentPort (am1 (16 : BitVec (6 : ℕ))).port = some w12) ∧
      (∀ (n : PortReq), ((upA apF).modAgentPort (am1 (16 : BitVec (6 : ℕ))).port fun (a : AgentPort) => have __src := (fun (a : AgentPort) => if (5 : ℕ) ≤ (am1 (16 : BitVec (6 : ℕ))).cls.toNat then a.err (0 : ℕ) else a) a; { held := a.held ++ [(upA apF).portReqOf ((opcOf (am1 (16 : BitVec (6 : ℕ))).opc).getD Inp.rdShared) (am1 (16 : BitVec (6 : ℕ))) (0 : Line) false], assigned := __src.assigned, creditShort := __src.creditShort, headAge := __src.headAge, snq := __src.snq, recv := __src.recv, resv := __src.resv, silent := __src.silent, stopped := __src.stopped, flush := __src.flush, kept := __src.kept, errs := __src.errs, fwdDrop := __src.fwdDrop, lastRsp := __src.lastRsp, inbound := __src.inbound : AgentPort }).nextSend (am1 (16 : BitVec (6 : ℕ))).port w12 = some n → n.same ((upA apF).portReqOf ((opcOf (am1 (16 : BitVec (6 : ℕ))).opc).getD Inp.rdShared) (am1 (16 : BitVec (6 : ℕ))) (0 : Line) false) = false)) := by
  and_intros <;> first
    | exact .head _
    | rfl
    | exact ⟨_, _, rfl⟩
    | exact .inl rfl
    | exact ⟨1, _, by decide, by decide, by decide, rfl, rfl⟩
    | exact .inr (.inl (by decide))
    | exact noReturns (by decide)
    | decide
    | exact fun h => absurd h.1 (by decide)
    | simp
    | (intro _ h; cases h)

/-- The hypotheses of AgentPortSendsItsNextRequest, one line of conditions for each clause. -/
theorem witness_AgentPortSendsItsNextRequest :
    ((w13.agentPort (0 : ℕ) = some w14) ∧
      ((0 : ℕ) < w13.variant.agents) ∧
      (w13.pwr.phase ≠ PwrPhase.p2) ∧
      (w14.selfReady = some (prc, pr Inp.wbDirty true ReqStage.buffered))) ∧
    (((upA ap0).agentPort (0 : ℕ) = some ap0) ∧
      ((0 : ℕ) < (upA ap0).variant.agents) ∧
      ((upA ap0).pwr.phase ≠ PwrPhase.p2) ∧
      (ap0.selfReady = none) ∧
      ((upA ap0).nextSend (0 : ℕ) ap0 = none)) ∧
    ((w15.agentPort (0 : ℕ) = some w16) ∧
      ((0 : ℕ) < w15.variant.agents) ∧
      (w15.pwr.phase ≠ PwrPhase.p2) ∧
      (w16.selfReady = none) ∧
      (w15.nextSend (0 : ℕ) w16 = some (pr Inp.fence false ReqStage.buffered)) ∧
      ((pr Inp.fence false ReqStage.buffered).req.kind = Inp.fence)) ∧
    ((w17.agentPort (0 : ℕ) = some w18) ∧
      ((0 : ℕ) < w17.variant.agents) ∧
      (w17.pwr.phase ≠ PwrPhase.p2) ∧
      (w18.selfReady = none) ∧
      (w17.nextSend (0 : ℕ) w18 = some (pr Inp.wrCond true ReqStage.buffered)) ∧
      ((pr Inp.wrCond true ReqStage.buffered).req.kind = Inp.wrCond) ∧
      (w18.resOf ((pr Inp.wrCond true ReqStage.buffered).thr (0 : ℕ)) ≠ some (pr Inp.wrCond true ReqStage.buffered).req.line)) ∧
    ((w19.agentPort (0 : ℕ) = some w20) ∧
      ((0 : ℕ) < w19.variant.agents) ∧
      (w19.pwr.phase ≠ PwrPhase.p2) ∧
      (w20.selfReady = none) ∧
      (w19.nextSend (0 : ℕ) w20 = some (pr Inp.wrCond true ReqStage.buffered)) ∧
      ((pr Inp.wrCond true ReqStage.buffered).req.kind ≠ Inp.fence) ∧
      ((pr Inp.wrCond true ReqStage.buffered).req.kind = Inp.wrCond) ∧
      (w20.resOf ((pr Inp.wrCond true ReqStage.buffered).thr (0 : ℕ)) = some (pr Inp.wrCond true ReqStage.buffered).req.line) ∧
      (w19.lineLost (pr Inp.wrCond true ReqStage.buffered).req.line = false) ∧
      (w19.sendTo (pr Inp.wrCond true ReqStage.buffered).req = some (0 : ℕ)) ∧
      (w19.slice (0 : ℕ) = some (sl0 (0 : ℕ))) ∧
      ((pr Inp.wrCond true ReqStage.buffered).req.src = Src.agent (0 : ℕ) (pr Inp.wrCond true ReqStage.buffered).agent (pr Inp.wrCond true ReqStage.buffered).thread) ∧
      ((sl0 (0 : ℕ)).noSlot (pr Inp.wrCond true ReqStage.buffered).req = false) ∧
      (Reach.input ≠ Reach.home)) ∧
    ((w21.agentPort (0 : ℕ) = some w22) ∧
      ((0 : ℕ) < w21.variant.agents) ∧
      (w21.pwr.phase ≠ PwrPhase.p2) ∧
      (w22.selfReady = none) ∧
      (w21.nextSend (0 : ℕ) w22 = some (pr Inp.rdRes false ReqStage.buffered)) ∧
      ((pr Inp.rdRes false ReqStage.buffered).req.kind ≠ Inp.fence) ∧
      ((pr Inp.rdRes false ReqStage.buffered).req.kind ≠ Inp.wrCond) ∧
      ((pr Inp.rdRes false ReqStage.buffered).req.kind ≠ Inp.biConflict) ∧
      (w21.lineLost (pr Inp.rdRes false ReqStage.buffered).req.line = false) ∧
      (w21.sendTo (pr Inp.rdRes false ReqStage.buffered).req = some (0 : ℕ)) ∧
      (w21.slice (0 : ℕ) = some (sl0 (0 : ℕ))) ∧
      ((pr Inp.rdRes false ReqStage.buffered).req.src = Src.agent (0 : ℕ) (pr Inp.rdRes false ReqStage.buffered).agent (pr Inp.rdRes false ReqStage.buffered).thread) ∧
      ((sl0 (0 : ℕ)).noSlot (pr Inp.rdRes false ReqStage.buffered).req = false)) ∧
    ((w23.agentPort (0 : ℕ) = some w24) ∧
      ((0 : ℕ) < w23.variant.agents) ∧
      (w23.pwr.phase ≠ PwrPhase.p2) ∧
      (w24.selfReady = none) ∧
      (w23.nextSend (0 : ℕ) w24 = some (pr Inp.rdOwn false ReqStage.buffered)) ∧
      ((pr Inp.rdOwn false ReqStage.buffered).req.kind ≠ Inp.fence) ∧
      ((pr Inp.rdOwn false ReqStage.buffered).req.kind ≠ Inp.wrCond) ∧
      ((pr Inp.rdOwn false ReqStage.buffered).req.kind ≠ Inp.biConflict) ∧
      (w23.lineLost (pr Inp.rdOwn false ReqStage.buffered).req.line = false) ∧
      (w23.sendTo (pr Inp.rdOwn false ReqStage.buffered).req = some (0 : ℕ)) ∧
      (w23.slice (0 : ℕ) = some (sl0 (0 : ℕ))) ∧
      ((pr Inp.rdOwn false ReqStage.buffered).req.src = Src.agent (0 : ℕ) (pr Inp.rdOwn false ReqStage.buffered).agent (pr Inp.rdOwn false ReqStage.buffered).thread) ∧
      ((sl0 (0 : ℕ)).noSlot (pr Inp.rdOwn false ReqStage.buffered).req = false)) ∧
    ((w25.agentPort (0 : ℕ) = some w26) ∧
      ((0 : ℕ) < w25.variant.agents) ∧
      (w25.pwr.phase ≠ PwrPhase.p2) ∧
      (w26.selfReady = none) ∧
      (w25.nextSend (0 : ℕ) w26 = some (pr Inp.wbDirty true ReqStage.buffered)) ∧
      ((pr Inp.wbDirty true ReqStage.buffered).req.kind ≠ Inp.fence) ∧
      ((pr Inp.wbDirty true ReqStage.buffered).req.kind ≠ Inp.wrCond) ∧
      ((pr Inp.wbDirty true ReqStage.buffered).req.kind ≠ Inp.biConflict) ∧
      (w25.lineLost (pr Inp.wbDirty true ReqStage.buffered).req.line = false) ∧
      (w25.sendTo (pr Inp.wbDirty true ReqStage.buffered).req = some (0 : ℕ)) ∧
      (w25.slice (0 : ℕ) = some (sl0 (0 : ℕ))) ∧
      ((pr Inp.wbDirty true ReqStage.buffered).req.src = Src.agent (0 : ℕ) (pr Inp.wbDirty true ReqStage.buffered).agent (pr Inp.wbDirty true ReqStage.buffered).thread) ∧
      ((sl0 (0 : ℕ)).noSlot (pr Inp.wbDirty true ReqStage.buffered).req = false)) := by
  and_intros <;> first
    | exact .head _
    | rfl
    | exact ⟨_, _, rfl⟩
    | exact .inl rfl
    | exact ⟨1, _, by decide, by decide, by decide, rfl, rfl⟩
    | exact .inr (.inl (by decide))
    | exact noReturns (by decide)
    | decide
    | exact fun h => absurd h.1 (by decide)
    | simp
    | (intro _ h; cases h)

/-- The hypotheses of AnswersComeBackToTheThread, one line of conditions for each clause. -/
theorem witness_AnswersComeBackToTheThread :
    ((w27.slice (0 : ℕ) = some (sl0 (0 : ℕ))) ∧
      (w27.agentPort th.port = some w28) ∧
      ((sl0 (0 : ℕ)).live = true) ∧
      (w28.fenceOf (0 : ℕ) th = some w29) ∧
      ((sl0 (0 : ℕ)).dir.fences.contains th = false)) ∧
    ((w30.slice (0 : ℕ) = some w31) ∧
      (w30.agentPort th.port = some w28) ∧
      (w31.live = true) ∧
      (w28.fenceOf (0 : ℕ) th = some w29) ∧
      (w31.dir.fences.contains th = true) ∧
      (w31.ident.adoptStall = false) ∧
      (w31.threadWrites th = false)) ∧
    ((w32.slice (0 : ℕ) = some (slT (t0 (qa Inp.wbDirty)))) ∧
      (w32.agentPort th.port = some w28) ∧
      ((slT (t0 (qa Inp.wbDirty))).live = true) ∧
      (w28.fenceOf (0 : ℕ) th = some w29) ∧
      ((slT (t0 (qa Inp.wbDirty))).threadWrites th = true)) ∧
    ((w33.agentPort (0 : ℕ) = some w34) ∧
      (w34.inbound = [] ++ [rsp0]) ∧
      (∀ x ∈ nilOf ARsp, x.phys ≠ (0 : ℕ)) ∧
      (rsp0.phys = (0 : ℕ))) ∧
    ((w35.agentPort (0 : ℕ) = some w36) ∧
      (th.port = (0 : ℕ)) ∧
      (w36.turn th = some w37) ∧
      (w37.final = some rsp0)) ∧
    ((w38.agentPort (0 : ℕ) = some w39) ∧
      (th.port = (0 : ℕ)) ∧
      (w39.turn th = some (prs Inp.evictClean ReqStage.sent)) ∧
      ((prs Inp.evictClean ReqStage.sent).final = none)) ∧
    ((w40.agentPort (0 : ℕ) = some w41) ∧
      (w40.ring = [RingFlit.fwdData (1 : ℕ) (0 : ℕ) (0 : ℕ) (0 : LineAddr) (0 : Line) true false (0 : ℕ) false]) ∧
      (w41.held = [] ++ [pr Inp.rdOwn false ReqStage.sent]) ∧
      (∀ x ∈ nilOf PortReq, x.agent ≠ (0 : ℕ) ∨ x.req.line ≠ (0 : LineAddr)) ∧
      ((pr Inp.rdOwn false ReqStage.sent).agent = (0 : ℕ)) ∧
      ((pr Inp.rdOwn false ReqStage.sent).req.line = (0 : LineAddr)) ∧
      ((pr Inp.rdOwn false ReqStage.sent).fwdData = none) ∧
      ((pr Inp.rdOwn false ReqStage.sent).stage = ReqStage.sent) ∧
      ((pr Inp.rdOwn false ReqStage.sent).req.kind ∈ [Inp.rdShared, Inp.rdOwn, Inp.rdCur, Inp.rdRes, Inp.atomicOp, Inp.upgrade])) ∧
    ((w42.agentPort (0 : ℕ) = some ap0) ∧
      (w42.ring = [RingFlit.fwdData (1 : ℕ) (0 : ℕ) (0 : ℕ) (0 : LineAddr) (0 : Line) true false (3 : ℕ) true]) ∧
      (∀ x ∈ ap0.held, x.agent ≠ (0 : ℕ) ∨ x.req.line ≠ (0 : LineAddr))) ∧
    ((w43.agentPort (0 : ℕ) = some w44) ∧
      (th.port = (0 : ℕ))) := by
  and_intros <;> first
    | exact .head _
    | rfl
    | exact ⟨_, _, rfl⟩
    | exact .inl rfl
    | exact ⟨1, _, by decide, by decide, by decide, rfl, rfl⟩
    | exact .inr (.inl (by decide))
    | exact noReturns (by decide)
    | decide
    | exact fun h => absurd h.1 (by decide)
    | simp
    | (intro _ h; cases h)

/-- The hypotheses of PortsCarrySnoopsToTheirAgents, one line of conditions for each clause. -/
theorem witness_PortsCarrySnoopsToTheirAgents :
    ((w45.agentPort (0 : ℕ) = some ap0) ∧
      ((0 : ℕ) < w45.variant.agents) ∧
      (w45.ringSnoops = [] ++ [sf0]) ∧
      (bitAt sf0.dmask (0 : ℕ) = false) ∧
      (∀ x ∈ nilOf SnpFlit, x.phys ≠ sf0.phys ∨ x.trk ≠ sf0.trk ∨ x.line ≠ sf0.line ∨ bitAt x.dmask (0 : ℕ) = true) ∧
      (lowestFree (List.map (fun (x : SnpEnt) => x.sq) ap0.snq) (32 : ℕ) = some (0 : ℕ)) ∧
      (setBit sf0.dmask (0 : ℕ) true ≠ (255 : BitVec (8 : ℕ)))) ∧
    ((w46.agentPort (0 : ℕ) = some ap0) ∧
      ((0 : ℕ) < w46.variant.agents) ∧
      (w46.ringSnoops = [] ++ [w47]) ∧
      (bitAt w47.dmask (0 : ℕ) = false) ∧
      (∀ x ∈ nilOf SnpFlit, x.phys ≠ w47.phys ∨ x.trk ≠ w47.trk ∨ x.line ≠ w47.line ∨ bitAt x.dmask (0 : ℕ) = true) ∧
      (lowestFree (List.map (fun (x : SnpEnt) => x.sq) ap0.snq) (32 : ℕ) = some (0 : ℕ)) ∧
      (setBit w47.dmask (0 : ℕ) true = (255 : BitVec (8 : ℕ)))) ∧
    ((w48.agentPort (0 : ℕ) = some w49) ∧
      (List.find? (fun (x : SnpEnt) => x.sq == (0 : ℕ) && !x.taken) w49.snq = some w50) ∧
      (w49.snoopDue (0 : ℕ) w50.flit = false)) ∧
    ((w51.agentPort (0 : ℕ) = some w52) ∧
      (List.find? (fun (x : SnpEnt) => x.sq == (0 : ℕ) && !x.taken) w52.snq = some seR) ∧
      (w52.snoopDue (0 : ℕ) seR.flit = true) ∧
      (seR.flit.retry = true) ∧
      (List.find? (fun (h : AnsHdr) => h.phys == seR.flit.phys && h.trk == seR.flit.trk) w52.kept = some { phys := (0 : ℕ), trk := (0 : ℕ), line := (0 : LineAddr), kind := AnsKind.rspS : AnsHdr })) ∧
    ((w53.agentPort (0 : ℕ) = some w54) ∧
      (List.find? (fun (x : SnpEnt) => x.sq == (0 : ℕ) && !x.taken) w54.snq = some se0) ∧
      (w54.snoopDue (0 : ℕ) se0.flit = true) ∧
      (se0.flit.retry = false) ∧
      ((w54.held.any fun (r : PortReq) => r.wbFor se0.flit.line) = true) ∧
      (∀ r ∈ w54.held, r.wbFor se0.flit.line = true → r.stage = ReqStage.sent)) ∧
    ((w55.agentPort (0 : ℕ) = some w56) ∧
      (List.find? (fun (x : SnpEnt) => x.sq == (0 : ℕ) && !x.taken) w56.snq = some se0) ∧
      (w56.snoopDue (0 : ℕ) se0.flit = true) ∧
      (se0.flit.retry = false) ∧
      (∀ r ∈ w56.held, r.wbFor se0.flit.line = false ∧ r.grantFor se0.flit.line = false) ∧
      (List.filter (fun (g : ℕ) => w55.agentOn (0 : ℕ) g && w55.agentCaching (0 : ℕ) g && !(se0.flit.reqag && se0.flit.reqPort == (0 : ℕ) && se0.flit.reqAgent == g) && !w56.held.any fun (r : PortReq) => r.agent == g && r.req.kind == Inp.evictClean && r.req.line == se0.flit.line && r.stage == ReqStage.sent) (List.range (4 : ℕ)) ≠ [])) ∧
    ((w57.agentPort (0 : ℕ) = some w56) ∧
      (List.find? (fun (x : SnpEnt) => x.sq == (0 : ℕ) && !x.taken) w56.snq = some se0) ∧
      (w56.snoopDue (0 : ℕ) se0.flit = true) ∧
      (se0.flit.retry = false) ∧
      (∀ r ∈ w56.held, r.wbFor se0.flit.line = false ∧ r.grantFor se0.flit.line = false) ∧
      (List.filter (fun (g : ℕ) => w57.agentOn (0 : ℕ) g && w57.agentCaching (0 : ℕ) g && !(se0.flit.reqag && se0.flit.reqPort == (0 : ℕ) && se0.flit.reqAgent == g) && !w56.held.any fun (r : PortReq) => r.agent == g && r.req.kind == Inp.evictClean && r.req.line == se0.flit.line && r.stage == ReqStage.sent) (List.range (4 : ℕ)) = []) ∧
      (se0.answers = []) ∧
      (w56.snq = [se0])) ∧
    ((w58.agentPort (0 : ℕ) = some w59) ∧
      ((0 : ℕ) < (4 : ℕ)) ∧
      (bitAt (2251799813685248 : BitVec (64 : ℕ)) (51 : ℕ) = true) ∧
      (fieldN (2251799813685248 : BitVec (64 : ℕ)) (57 : ℕ) (2 : ℕ) = (0 : ℕ))) ∧
    ((w60.agentPort (0 : ℕ) = some w61) ∧
      ((0 : ℕ) < (4 : ℕ)) ∧
      (bitAt (0 : BitVec (64 : ℕ)) (51 : ℕ) = false) ∧
      (fieldN (0 : BitVec (64 : ℕ)) (57 : ℕ) (2 : ℕ) = (0 : ℕ)) ∧
      (w61.snq = [w62]) ∧
      (w62.taken = true) ∧
      (w62.answers = []) ∧
      (w62.own = none) ∧
      (fieldN (0 : BitVec (64 : ℕ)) (52 : ℕ) (5 : ℕ) = w62.sq) ∧
      (fieldN (0 : BitVec (64 : ℕ)) (62 : ℕ) (2 : ℕ) < (2 : ℕ)) ∧
      (fieldN (0 : BitVec (64 : ℕ)) (62 : ℕ) (2 : ℕ) = (1 : ℕ) → w62.flit.kind ≠ ASnp.inv) ∧
      (w62.asked.contains (0 : ℕ) = true) ∧
      (List.filter (fun (z : ℕ) => z != (0 : ℕ)) w62.asked ≠ [])) ∧
    ((w63.agentPort (0 : ℕ) = some w64) ∧
      ((0 : ℕ) < (4 : ℕ)) ∧
      (bitAt (0 : BitVec (64 : ℕ)) (51 : ℕ) = false) ∧
      (fieldN (0 : BitVec (64 : ℕ)) (57 : ℕ) (2 : ℕ) = (0 : ℕ)) ∧
      (w64.snq = [w65]) ∧
      (w65.taken = true) ∧
      (w65.answers = []) ∧
      (w65.own = none) ∧
      (fieldN (0 : BitVec (64 : ℕ)) (52 : ℕ) (5 : ℕ) = w65.sq) ∧
      (fieldN (0 : BitVec (64 : ℕ)) (62 : ℕ) (2 : ℕ) < (2 : ℕ)) ∧
      (fieldN (0 : BitVec (64 : ℕ)) (62 : ℕ) (2 : ℕ) = (1 : ℕ) → w65.flit.kind ≠ ASnp.inv) ∧
      (w65.asked = [(0 : ℕ)]) ∧
      (bitAt (0 : BitVec (64 : ℕ)) (61 : ℕ) = false) ∧
      (fieldN (0 : BitVec (64 : ℕ)) (62 : ℕ) (2 : ℕ) = (0 : ℕ))) ∧
    ((w66.agentPort (0 : ℕ) = some w67) ∧
      ((0 : ℕ) < (4 : ℕ)) ∧
      (bitAt (4611686018427387904 : BitVec (64 : ℕ)) (51 : ℕ) = false) ∧
      (fieldN (4611686018427387904 : BitVec (64 : ℕ)) (57 : ℕ) (2 : ℕ) = (0 : ℕ)) ∧
      (w67.snq = [seS]) ∧
      (seS.taken = true) ∧
      (seS.answers = []) ∧
      (seS.own = none) ∧
      (fieldN (4611686018427387904 : BitVec (64 : ℕ)) (52 : ℕ) (5 : ℕ) = seS.sq) ∧
      (fieldN (4611686018427387904 : BitVec (64 : ℕ)) (62 : ℕ) (2 : ℕ) < (2 : ℕ)) ∧
      (fieldN (4611686018427387904 : BitVec (64 : ℕ)) (62 : ℕ) (2 : ℕ) = (1 : ℕ) → seS.flit.kind ≠ ASnp.inv) ∧
      (seS.asked = [(0 : ℕ)]) ∧
      (bitAt (4611686018427387904 : BitVec (64 : ℕ)) (61 : ℕ) = false) ∧
      (fieldN (4611686018427387904 : BitVec (64 : ℕ)) (62 : ℕ) (2 : ℕ) = (1 : ℕ))) ∧
    ((w66.agentPort (0 : ℕ) = some w67) ∧
      ((0 : ℕ) < (4 : ℕ)) ∧
      (bitAt (3458764513820540928 : BitVec (64 : ℕ)) (51 : ℕ) = false) ∧
      (fieldN (3458764513820540928 : BitVec (64 : ℕ)) (57 : ℕ) (2 : ℕ) = (0 : ℕ)) ∧
      (w67.snq = [seS]) ∧
      (seS.taken = true) ∧
      (seS.answers = []) ∧
      (seS.own = none) ∧
      (fieldN (3458764513820540928 : BitVec (64 : ℕ)) (52 : ℕ) (5 : ℕ) = seS.sq) ∧
      (fieldN (3458764513820540928 : BitVec (64 : ℕ)) (62 : ℕ) (2 : ℕ) < (2 : ℕ)) ∧
      (fieldN (3458764513820540928 : BitVec (64 : ℕ)) (62 : ℕ) (2 : ℕ) = (1 : ℕ) → seS.flit.kind ≠ ASnp.inv) ∧
      (seS.asked = [(0 : ℕ)]) ∧
      ((bitAt (3458764513820540928 : BitVec (64 : ℕ)) (61 : ℕ) && bitAt (3458764513820540928 : BitVec (64 : ℕ)) (60 : ℕ)) = true) ∧
      ((seS.flit.fwdOk && seS.flit.fwdPort == (0 : ℕ)) = false ∨ seS.flit.kind ≠ ASnp.inv)) ∧
    ((w68.agentPort (0 : ℕ) = some w69) ∧
      ((0 : ℕ) < (4 : ℕ)) ∧
      (bitAt (3458764513820540928 : BitVec (64 : ℕ)) (51 : ℕ) = false) ∧
      (fieldN (3458764513820540928 : BitVec (64 : ℕ)) (57 : ℕ) (2 : ℕ) = (0 : ℕ)) ∧
      (w69.snq = [seF]) ∧
      (seF.taken = true) ∧
      (seF.answers = []) ∧
      (seF.own = none) ∧
      (fieldN (3458764513820540928 : BitVec (64 : ℕ)) (52 : ℕ) (5 : ℕ) = seF.sq) ∧
      (fieldN (3458764513820540928 : BitVec (64 : ℕ)) (62 : ℕ) (2 : ℕ) < (2 : ℕ)) ∧
      (fieldN (3458764513820540928 : BitVec (64 : ℕ)) (62 : ℕ) (2 : ℕ) = (1 : ℕ) → seF.flit.kind ≠ ASnp.inv) ∧
      (seF.asked = [(0 : ℕ)]) ∧
      (bitAt (3458764513820540928 : BitVec (64 : ℕ)) (61 : ℕ) = true) ∧
      ((seF.flit.fwdOk && seF.flit.fwdPort == (0 : ℕ)) = true) ∧
      ((bitAt (3458764513820540928 : BitVec (64 : ℕ)) (61 : ℕ) && bitAt (3458764513820540928 : BitVec (64 : ℕ)) (60 : ℕ)) = false ∨ seF.flit.kind = ASnp.inv)) ∧
    ((w58.agentPort (0 : ℕ) = some w59) ∧
      ((0 : ℕ) < (4 : ℕ)) ∧
      (∀ x ∈ w59.snq, x.asked.contains (0 : ℕ) = false) ∧
      (bitAt w59.flush (0 : ℕ) = true)) ∧
    (((upA ap0).agentPort (0 : ℕ) = some ap0) ∧
      ((0 : ℕ) < (4 : ℕ)) ∧
      (∀ x ∈ ap0.snq, x.asked.contains (0 : ℕ) = false) ∧
      (bitAt ap0.flush (0 : ℕ) = false)) ∧
    ((w63.agentPort (0 : ℕ) = some w64) ∧
      ((0 : ℕ) < (4 : ℕ)) ∧
      (w64.snq = [w65]) ∧
      (w65.asked.contains (0 : ℕ) = true)) := by
  and_intros <;> first
    | exact .head _
    | rfl
    | exact ⟨_, _, rfl⟩
    | exact .inl rfl
    | exact ⟨1, _, by decide, by decide, by decide, rfl, rfl⟩
    | exact .inr (.inl (by decide))
    | exact noReturns (by decide)
    | decide
    | exact fun h => absurd h.1 (by decide)
    | simp
    | (intro _ h; cases h)

/-- The hypotheses of AgentAnswersReachTheirTracker, one line of conditions for each clause. -/
theorem witness_AgentAnswersReachTheirTracker :
    (((Instr.rspI { phys := (0 : ℕ), port := (0 : ℕ), trk := (0 : ℕ), line := (0 : LineAddr) : AgRsp }, AnsKind.rspI, Inp.rspI) ∈ [(Instr.rspI { phys := (0 : ℕ), port := (0 : ℕ), trk := (0 : ℕ), line := (0 : LineAddr) : AgRsp }, AnsKind.rspI, Inp.rspI), (Instr.rspS { phys := (0 : ℕ), port := (0 : ℕ), trk := (0 : ℕ), line := (0 : LineAddr) : AgRsp }, AnsKind.rspS, Inp.rspS), (Instr.rspFwd { phys := (0 : ℕ), port := (0 : ℕ), trk := (0 : ℕ), line := (0 : LineAddr) : AgRsp }, AnsKind.rspFwd, Inp.rspFwd), (Instr.rspWbData { phys := (0 : ℕ), port := (0 : ℕ), trk := (0 : ℕ), line := (0 : LineAddr) : AgRsp } (0 : Line) false, AnsKind.rspWbData, Inp.rspWbData), (Instr.rspIW { phys := (0 : ℕ), port := (0 : ℕ), trk := (0 : ℕ), line := (0 : LineAddr) : AgRsp }, AnsKind.rspIW, Inp.rspIW)]) ∧
      (w70.ring = [RingFlit.answer { phys := { phys := (0 : ℕ), port := (0 : ℕ), trk := (0 : ℕ), line := (0 : LineAddr) : AgRsp }.phys, trk := { phys := (0 : ℕ), port := (0 : ℕ), trk := (0 : ℕ), line := (0 : LineAddr) : AgRsp }.trk, line := { phys := (0 : ℕ), port := (0 : ℕ), trk := (0 : ℕ), line := (0 : LineAddr) : AgRsp }.line, kind := AnsKind.rspI : AnsHdr } { phys := (0 : ℕ), port := (0 : ℕ), trk := (0 : ℕ), line := (0 : LineAddr) : AgRsp }.port (0 : Line) false (0 : ℕ) false]) ∧
      (∀ x ∈ w70.cast.redirect, x.1 ≠ { phys := (0 : ℕ), port := (0 : ℕ), trk := (0 : ℕ), line := (0 : LineAddr) : AgRsp }.phys) ∧
      (w70.slice { phys := (0 : ℕ), port := (0 : ℕ), trk := (0 : ℕ), line := (0 : LineAddr) : AgRsp }.phys = some w71) ∧
      (w71.live = true) ∧
      (w71.awaits (some { phys := (0 : ℕ), port := (0 : ℕ), trk := (0 : ℕ), line := (0 : LineAddr) : AgRsp }.trk) { phys := (0 : ℕ), port := (0 : ℕ), trk := (0 : ℕ), line := (0 : LineAddr) : AgRsp }.port { phys := (0 : ℕ), port := (0 : ℕ), trk := (0 : ℕ), line := (0 : LineAddr) : AgRsp }.line = some (w72, { port := (0 : ℕ), line := (0 : LineAddr), kind := ASnp.inv : ASnpOut }))) ∧
    (((Instr.rspIW { phys := (0 : ℕ), port := (0 : ℕ), trk := (0 : ℕ), line := (0 : LineAddr) : AgRsp }, AnsKind.rspIW, Inp.rspIW) ∈ [(Instr.rspI { phys := (0 : ℕ), port := (0 : ℕ), trk := (0 : ℕ), line := (0 : LineAddr) : AgRsp }, AnsKind.rspI, Inp.rspI), (Instr.rspS { phys := (0 : ℕ), port := (0 : ℕ), trk := (0 : ℕ), line := (0 : LineAddr) : AgRsp }, AnsKind.rspS, Inp.rspS), (Instr.rspFwd { phys := (0 : ℕ), port := (0 : ℕ), trk := (0 : ℕ), line := (0 : LineAddr) : AgRsp }, AnsKind.rspFwd, Inp.rspFwd), (Instr.rspWbData { phys := (0 : ℕ), port := (0 : ℕ), trk := (0 : ℕ), line := (0 : LineAddr) : AgRsp } (0 : Line) false, AnsKind.rspWbData, Inp.rspWbData), (Instr.rspIW { phys := (0 : ℕ), port := (0 : ℕ), trk := (0 : ℕ), line := (0 : LineAddr) : AgRsp }, AnsKind.rspIW, Inp.rspIW)]) ∧
      (w73.ring = [RingFlit.answer { phys := { phys := (0 : ℕ), port := (0 : ℕ), trk := (0 : ℕ), line := (0 : LineAddr) : AgRsp }.phys, trk := { phys := (0 : ℕ), port := (0 : ℕ), trk := (0 : ℕ), line := (0 : LineAddr) : AgRsp }.trk, line := { phys := (0 : ℕ), port := (0 : ℕ), trk := (0 : ℕ), line := (0 : LineAddr) : AgRsp }.line, kind := AnsKind.rspIW : AnsHdr } { phys := (0 : ℕ), port := (0 : ℕ), trk := (0 : ℕ), line := (0 : LineAddr) : AgRsp }.port (0 : Line) false (0 : ℕ) false]) ∧
      (∀ x ∈ w73.cast.redirect, x.1 ≠ { phys := (0 : ℕ), port := (0 : ℕ), trk := (0 : ℕ), line := (0 : LineAddr) : AgRsp }.phys) ∧
      (w73.slice { phys := (0 : ℕ), port := (0 : ℕ), trk := (0 : ℕ), line := (0 : LineAddr) : AgRsp }.phys = some (sl0 (0 : ℕ))) ∧
      ((sl0 (0 : ℕ)).live = true) ∧
      ((sl0 (0 : ℕ)).awaits (some { phys := (0 : ℕ), port := (0 : ℕ), trk := (0 : ℕ), line := (0 : LineAddr) : AgRsp }.trk) { phys := (0 : ℕ), port := (0 : ℕ), trk := (0 : ℕ), line := (0 : LineAddr) : AgRsp }.port { phys := (0 : ℕ), port := (0 : ℕ), trk := (0 : ℕ), line := (0 : LineAddr) : AgRsp }.line = none)) := by
  and_intros <;> first
    | exact .head _
    | rfl
    | exact ⟨_, _, rfl⟩
    | exact .inl rfl
    | exact ⟨1, _, by decide, by decide, by decide, rfl, rfl⟩
    | exact .inr (.inl (by decide))
    | exact noReturns (by decide)
    | decide
    | exact fun h => absurd h.1 (by decide)
    | simp
    | (intro _ h; cases h)

/-- The hypotheses of RingAndMeshFaults, one line of conditions for each clause. -/
theorem witness_RingAndMeshFaults :
    ((w74.ringSnoops[(0 : ℕ)]? = some sf0)) ∧
    ((w75.ring[(0 : ℕ)]? = some (RingFlit.answer { phys := (0 : ℕ), trk := (0 : ℕ), line := (0 : LineAddr), kind := AnsKind.rspI : AnsHdr } (0 : ℕ) (0 : Line) false (0 : ℕ) false))) ∧
    ((w76.ring[(0 : ℕ)]? = some (RingFlit.answer { phys := (0 : ℕ), trk := (0 : ℕ), line := (0 : LineAddr), kind := AnsKind.rspWbData : AnsHdr } (0 : ℕ) (9 : Line) false (0 : ℕ) false))) ∧
    ((w77.ring[(0 : ℕ)]? = some (RingFlit.fwdData (1 : ℕ) (0 : ℕ) (0 : ℕ) (0 : LineAddr) (9 : Line) true false (0 : ℕ) false))) ∧
    ((up.slice (0 : ℕ) = some (sl0 (0 : ℕ))) ∧
      ((sl0 (0 : ℕ)).live = true) ∧
      (LossTarget.slice (0 : ℕ) ∉ up.fb.lossDue)) ∧
    ((upLoss.slice (0 : ℕ) = some (sl0 (0 : ℕ))) ∧
      ((sl0 (0 : ℕ)).live = true) ∧
      (LossTarget.port (1 : ℕ) ∈ upLoss.fb.lossDue)) ∧
    ((upLoss.slice (0 : ℕ) = some (sl0 (0 : ℕ))) ∧
      ((sl0 (0 : ℕ)).live = true) ∧
      (LossTarget.slice (0 : ℕ) ∈ upLoss.fb.lossDue) ∧
      (∀ t ∈ (sl0 (0 : ℕ)).trk, t.asnp = [])) ∧
    ((w78.slice (0 : ℕ) = some w71) ∧
      (w71.live = true) ∧
      (LossTarget.slice (0 : ℕ) ∈ w78.fb.lossDue) ∧
      (w71.trk = [] ++ [w72]) ∧
      (∀ y ∈ nilOf Tracker ++ [], y.asnp = []) ∧
      (w72.asnp = [{ port := (0 : ℕ), line := (0 : LineAddr), kind := ASnp.inv : ASnpOut }]) ∧
      (w72.isVic { port := (0 : ℕ), line := (0 : LineAddr), kind := ASnp.inv : ASnpOut }.line = false)) ∧
    (((2 : ℕ) < (ringStops up.variant).length) ∧
      (up.fb.claims.contains (2 : ℕ) = false)) ∧
    ((w79.fb.claims.contains (2 : ℕ) = true)) ∧
    ((w74.ringSnoops[(0 : ℕ)]? = some sf0)) ∧
    ((w75.ring[(0 : ℕ)]? = some (RingFlit.answer { phys := (0 : ℕ), trk := (0 : ℕ), line := (0 : LineAddr), kind := AnsKind.rspI : AnsHdr } (0 : ℕ) (0 : Line) false (0 : ℕ) false))) ∧
    ((w77.ring[(0 : ℕ)]? = some (RingFlit.fwdData (1 : ℕ) (0 : ℕ) (0 : ℕ) (0 : LineAddr) (9 : Line) true false (0 : ℕ) false))) ∧
    ((linkIn up.variant (200 : ℕ) = false ∨ (200 : ℕ) ∈ up.fb.linkFaults)) ∧
    ((linkIn w80.variant (0 : ℕ) = false ∨ (0 : ℕ) ∈ w80.fb.linkFaults)) ∧
    ((linkIn up.variant (0 : ℕ) = true) ∧
      ((0 : ℕ) ∉ up.fb.linkFaults) ∧
      (∀ x ∈ nilOf ((ℕ × BitVec (128 : ℕ)) × ℕ) ++ [], x.1 ≠ ((0 : ℕ), (7 : BitVec (128 : ℕ)))) ∧
      (up.fb.meshFails = [] ++ [])) ∧
    ((linkIn w81.variant (0 : ℕ) = true) ∧
      ((0 : ℕ) ∉ w81.fb.linkFaults) ∧
      (∀ x ∈ nilOf ((ℕ × BitVec (128 : ℕ)) × ℕ) ++ [], x.1 ≠ ((0 : ℕ), (7 : BitVec (128 : ℕ)))) ∧
      (w81.fb.meshFails = [] ++ [(((0 : ℕ), (7 : BitVec (128 : ℕ))), 1)])) ∧
    ((linkIn w82.variant (0 : ℕ) = true) ∧
      ((0 : ℕ) ∉ w82.fb.linkFaults) ∧
      (∀ x ∈ nilOf ((ℕ × BitVec (128 : ℕ)) × ℕ) ++ [], x.1 ≠ ((0 : ℕ), (7 : BitVec (128 : ℕ)))) ∧
      (w82.fb.meshFails = [] ++ [(((0 : ℕ), (7 : BitVec (128 : ℕ))), 2)]) ∧
      ((0 : ℕ) < 128) ∧
      (endpointOf w82.variant ((0 : ℕ) % 64) = some (.slice 0))) ∧
    ((linkIn w83.variant (0x12 : ℕ) = true) ∧
      ((0x12 : ℕ) ∉ w83.fb.linkFaults) ∧
      (∀ x ∈ nilOf ((ℕ × BitVec (128 : ℕ)) × ℕ) ++ [], x.1 ≠ ((0x12 : ℕ), (7 : BitVec (128 : ℕ)))) ∧
      (w83.fb.meshFails = [] ++ [(((0x12 : ℕ), (7 : BitVec (128 : ℕ))), 2)]) ∧
      ((0x12 : ℕ) < 128) ∧
      (endpointOf w83.variant ((0x12 : ℕ) % 64) = some (.host 1))) ∧
    ((linkIn w84.variant (0x19 : ℕ) = true) ∧
      ((0x19 : ℕ) ∉ w84.fb.linkFaults) ∧
      (∀ x ∈ nilOf ((ℕ × BitVec (128 : ℕ)) × ℕ) ++ [], x.1 ≠ ((0x19 : ℕ), (7 : BitVec (128 : ℕ)))) ∧
      (w84.fb.meshFails = [] ++ [(((0x19 : ℕ), (7 : BitVec (128 : ℕ))), 2)]) ∧
      ((0x19 : ℕ) < 128) ∧
      (endpointOf w84.variant ((0x19 : ℕ) % 64) = some (.agent 0))) ∧
    ((linkIn w85.variant (0x31 : ℕ) = true) ∧
      ((0x31 : ℕ) ∉ w85.fb.linkFaults) ∧
      (∀ x ∈ nilOf ((ℕ × BitVec (128 : ℕ)) × ℕ) ++ [], x.1 ≠ ((0x31 : ℕ), (7 : BitVec (128 : ℕ)))) ∧
      (w85.fb.meshFails = [] ++ [(((0x31 : ℕ), (7 : BitVec (128 : ℕ))), 2)]) ∧
      (128 ≤ (0x31 : ℕ) ∨ 0x21 ≤ (0x31 : ℕ) % 64)) := by
  and_intros <;> first
    | exact .head _
    | rfl
    | exact ⟨_, _, rfl⟩
    | exact .inl rfl
    | exact ⟨1, _, by decide, by decide, by decide, rfl, rfl⟩
    | exact .inr (.inl (by decide))
    | exact noReturns (by decide)
    | decide
    | exact fun h => absurd h.1 (by decide)
    | simp
    | (intro _ h; cases h)

/-- The hypotheses of ReadResponsesReturnToTheirOwner, one line of conditions for each clause. -/
theorem witness_ReadResponsesReturnToTheirOwner :
    ((w86.memPort (0 : ℕ) = some (mp0 (mc (MemOwner.lineRead (0 : ℕ) (0 : ℕ) false) MemKind.read))) ∧
      ((0 : ℕ) < w86.variant.mems) ∧
      ((mp0 (mc (MemOwner.lineRead (0 : ℕ) (0 : ℕ) false) MemKind.read)).cmd (0 : ℕ) = some (mc (MemOwner.lineRead (0 : ℕ) (0 : ℕ) false) MemKind.read)) ∧
      ((mc (MemOwner.lineRead (0 : ℕ) (0 : ℕ) false) MemKind.read).givenUp = false) ∧
      ((mc (MemOwner.lineRead (0 : ℕ) (0 : ℕ) false) MemKind.read).kind = MemKind.read) ∧
      ((mc (MemOwner.lineRead (0 : ℕ) (0 : ℕ) false) MemKind.read).owner = MemOwner.lineRead (0 : ℕ) (0 : ℕ) false) ∧
      (((w86.memFree (0 : ℕ) (0 : ℕ)).memBack (0 : ℕ) (mc (MemOwner.lineRead (0 : ℕ) (0 : ℕ) false) MemKind.read) true false).slice (0 : ℕ) = some w87) ∧
      (w87.live = true) ∧
      (((w86.memFree (0 : ℕ) (0 : ℕ)).memBack (0 : ℕ) (mc (MemOwner.lineRead (0 : ℕ) (0 : ℕ) false) MemKind.read) true false).tracker (0 : ℕ) (0 : ℕ) = some w88) ∧
      (w88.req.line = (mc (MemOwner.lineRead (0 : ℕ) (0 : ℕ) false) MemKind.read).line) ∧
      (w88.req.kind ≠ Inp.migStart) ∧
      (w88.late = [])) ∧
    ((w89.memPort (0 : ℕ) = some (mp0 (mc (MemOwner.bucketRead (0 : ℕ) (0 : ℕ) BktUse.lookup) MemKind.read))) ∧
      ((0 : ℕ) < w89.variant.mems) ∧
      ((mp0 (mc (MemOwner.bucketRead (0 : ℕ) (0 : ℕ) BktUse.lookup) MemKind.read)).cmd (0 : ℕ) = some (mc (MemOwner.bucketRead (0 : ℕ) (0 : ℕ) BktUse.lookup) MemKind.read)) ∧
      ((mc (MemOwner.bucketRead (0 : ℕ) (0 : ℕ) BktUse.lookup) MemKind.read).givenUp = false) ∧
      ((mc (MemOwner.bucketRead (0 : ℕ) (0 : ℕ) BktUse.lookup) MemKind.read).kind = MemKind.read) ∧
      ((mc (MemOwner.bucketRead (0 : ℕ) (0 : ℕ) BktUse.lookup) MemKind.read).owner = MemOwner.bucketRead (0 : ℕ) (0 : ℕ) BktUse.lookup) ∧
      (((w89.memFree (0 : ℕ) (0 : ℕ)).memBack (0 : ℕ) (mc (MemOwner.bucketRead (0 : ℕ) (0 : ℕ) BktUse.lookup) MemKind.read) true false).tracker (0 : ℕ) (0 : ℕ) = some w90)) ∧
    ((w91.memPort (0 : ℕ) = some (mp0 (mc (MemOwner.resend (0 : ℕ) (0 : ℕ)) MemKind.read))) ∧
      ((0 : ℕ) < w91.variant.mems) ∧
      ((mp0 (mc (MemOwner.resend (0 : ℕ) (0 : ℕ)) MemKind.read)).cmd (0 : ℕ) = some (mc (MemOwner.resend (0 : ℕ) (0 : ℕ)) MemKind.read)) ∧
      ((mc (MemOwner.resend (0 : ℕ) (0 : ℕ)) MemKind.read).givenUp = false) ∧
      ((mc (MemOwner.resend (0 : ℕ) (0 : ℕ)) MemKind.read).kind = MemKind.read) ∧
      ((mc (MemOwner.resend (0 : ℕ) (0 : ℕ)) MemKind.read).owner = MemOwner.resend (0 : ℕ) (0 : ℕ))) ∧
    (((upMem (mc (MemOwner.wpq (0 : ℕ) (0 : ℕ)) MemKind.write)).memPort (0 : ℕ) = some (mp0 (mc (MemOwner.wpq (0 : ℕ) (0 : ℕ)) MemKind.write))) ∧
      ((0 : ℕ) < (upMem (mc (MemOwner.wpq (0 : ℕ) (0 : ℕ)) MemKind.write)).variant.mems) ∧
      ((mp0 (mc (MemOwner.wpq (0 : ℕ) (0 : ℕ)) MemKind.write)).cmd (0 : ℕ) = some (mc (MemOwner.wpq (0 : ℕ) (0 : ℕ)) MemKind.write)) ∧
      ((mc (MemOwner.wpq (0 : ℕ) (0 : ℕ)) MemKind.write).givenUp = false) ∧
      ((mc (MemOwner.wpq (0 : ℕ) (0 : ℕ)) MemKind.write).kind ≠ MemKind.read)) ∧
    ((w92.memPort (0 : ℕ) = some w93) ∧
      ((0 : ℕ) < w92.variant.mems) ∧
      (w93.cmd (0 : ℕ) = some w94) ∧
      (w94.givenUp = true)) ∧
    ((up.memPort (0 : ℕ) = some { out := [], waiting := [], faults := (0 : ℕ), late := (0 : ℕ) : MemPort }) ∧
      ((0 : ℕ) < up.variant.mems) ∧
      ({ out := [], waiting := [], faults := (0 : ℕ), late := (0 : ℕ) : MemPort }.cmd (0 : ℕ) = none)) ∧
    ((w95.memPort (0 : ℕ) = some (mp0 (mc (MemOwner.bucketRead (0 : ℕ) (0 : ℕ) BktUse.lookup) MemKind.read))) ∧
      ((mp0 (mc (MemOwner.bucketRead (0 : ℕ) (0 : ℕ) BktUse.lookup) MemKind.read)).cmd (0 : ℕ) = some (mc (MemOwner.bucketRead (0 : ℕ) (0 : ℕ) BktUse.lookup) MemKind.read)) ∧
      ((mc (MemOwner.bucketRead (0 : ℕ) (0 : ℕ) BktUse.lookup) MemKind.read).givenUp = false) ∧
      ((mc (MemOwner.bucketRead (0 : ℕ) (0 : ℕ) BktUse.lookup) MemKind.read).owner = MemOwner.bucketRead (0 : ℕ) (0 : ℕ) BktUse.lookup) ∧
      (w95.tracker (0 : ℕ) (0 : ℕ) = some w90) ∧
      ((bktFind w95.gl.game (w95.bucket (w95.bucketNo (w90.bktLine BktUse.lookup))) (w90.bktLine BktUse.lookup)).isSome = true)) ∧
    ((w89.memPort (0 : ℕ) = some (mp0 (mc (MemOwner.bucketRead (0 : ℕ) (0 : ℕ) BktUse.lookup) MemKind.read))) ∧
      ((mp0 (mc (MemOwner.bucketRead (0 : ℕ) (0 : ℕ) BktUse.lookup) MemKind.read)).cmd (0 : ℕ) = some (mc (MemOwner.bucketRead (0 : ℕ) (0 : ℕ) BktUse.lookup) MemKind.read)) ∧
      ((mc (MemOwner.bucketRead (0 : ℕ) (0 : ℕ) BktUse.lookup) MemKind.read).givenUp = false) ∧
      ((mc (MemOwner.bucketRead (0 : ℕ) (0 : ℕ) BktUse.lookup) MemKind.read).owner = MemOwner.bucketRead (0 : ℕ) (0 : ℕ) BktUse.lookup) ∧
      (w89.tracker (0 : ℕ) (0 : ℕ) = some w90) ∧
      (bktFind w89.gl.game (w89.bucket (w89.bucketNo (w90.bktLine BktUse.lookup))) (w90.bktLine BktUse.lookup) = none)) ∧
    (((upMem (mc (MemOwner.wpq (0 : ℕ) (0 : ℕ)) MemKind.write)).memPort (0 : ℕ) = some (mp0 (mc (MemOwner.wpq (0 : ℕ) (0 : ℕ)) MemKind.write))) ∧
      ((mp0 (mc (MemOwner.wpq (0 : ℕ) (0 : ℕ)) MemKind.write)).cmd (0 : ℕ) = some (mc (MemOwner.wpq (0 : ℕ) (0 : ℕ)) MemKind.write)) ∧
      ((mc (MemOwner.wpq (0 : ℕ) (0 : ℕ)) MemKind.write).givenUp = false) ∧
      ((mc (MemOwner.wpq (0 : ℕ) (0 : ℕ)) MemKind.write).owner.phys = some (0 : ℕ)) ∧
      ((mc (MemOwner.wpq (0 : ℕ) (0 : ℕ)) MemKind.write).kind ≠ MemKind.read)) ∧
    ((w86.memPort (0 : ℕ) = some (mp0 (mc (MemOwner.lineRead (0 : ℕ) (0 : ℕ) false) MemKind.read))) ∧
      ((mp0 (mc (MemOwner.lineRead (0 : ℕ) (0 : ℕ) false) MemKind.read)).cmd (0 : ℕ) = some (mc (MemOwner.lineRead (0 : ℕ) (0 : ℕ) false) MemKind.read)) ∧
      ((mc (MemOwner.lineRead (0 : ℕ) (0 : ℕ) false) MemKind.read).givenUp = false) ∧
      ((mc (MemOwner.lineRead (0 : ℕ) (0 : ℕ) false) MemKind.read).owner.phys = some (0 : ℕ)) ∧
      ((mc (MemOwner.lineRead (0 : ℕ) (0 : ℕ) false) MemKind.read).kind = MemKind.read)) := by
  and_intros <;> first
    | exact .head _
    | rfl
    | exact ⟨_, _, rfl⟩
    | exact .inl rfl
    | exact ⟨1, _, by decide, by decide, by decide, rfl, rfl⟩
    | exact .inr (.inl (by decide))
    | exact noReturns (by decide)
    | decide
    | exact fun h => absurd h.1 (by decide)
    | simp
    | (intro _ h; cases h)

/-- The hypotheses of AcknowledgementsEndWhatTheyAnswer, one line of conditions for each clause. -/
theorem witness_AcknowledgementsEndWhatTheyAnswer :
    ((w96.slice (0 : ℕ) = some w97) ∧
      (w96.memPort (0 : ℕ) = some (mp0 (mc (MemOwner.wpq (0 : ℕ) (3 : ℕ)) MemKind.write))) ∧
      ((mp0 (mc (MemOwner.wpq (0 : ℕ) (3 : ℕ)) MemKind.write)).cmd (0 : ℕ) = some (mc (MemOwner.wpq (0 : ℕ) (3 : ℕ)) MemKind.write)) ∧
      ((mc (MemOwner.wpq (0 : ℕ) (3 : ℕ)) MemKind.write).givenUp = false) ∧
      ((mc (MemOwner.wpq (0 : ℕ) (3 : ℕ)) MemKind.write).kind ≠ MemKind.read) ∧
      ((mc (MemOwner.wpq (0 : ℕ) (3 : ℕ)) MemKind.write).owner = MemOwner.wpq (0 : ℕ) (3 : ℕ))) ∧
    ((w98.slice (0 : ℕ) = some w97) ∧
      (w98.memPort (0 : ℕ) = some (mp0 (mc (MemOwner.metaW (0 : ℕ) (0 : ℕ) false) MemKind.metaWrite))) ∧
      ((mp0 (mc (MemOwner.metaW (0 : ℕ) (0 : ℕ) false) MemKind.metaWrite)).cmd (0 : ℕ) = some (mc (MemOwner.metaW (0 : ℕ) (0 : ℕ) false) MemKind.metaWrite)) ∧
      ((mc (MemOwner.metaW (0 : ℕ) (0 : ℕ) false) MemKind.metaWrite).givenUp = false) ∧
      ((mc (MemOwner.metaW (0 : ℕ) (0 : ℕ) false) MemKind.metaWrite).kind ≠ MemKind.read) ∧
      ((mc (MemOwner.metaW (0 : ℕ) (0 : ℕ) false) MemKind.metaWrite).owner = MemOwner.metaW (0 : ℕ) (0 : ℕ) false)) ∧
    ((w99.slice (0 : ℕ) = some w97) ∧
      (w99.memPort (0 : ℕ) = some (mp0 (mc (MemOwner.bucketW (0 : ℕ) (0 : ℕ) false) MemKind.write))) ∧
      ((mp0 (mc (MemOwner.bucketW (0 : ℕ) (0 : ℕ) false) MemKind.write)).cmd (0 : ℕ) = some (mc (MemOwner.bucketW (0 : ℕ) (0 : ℕ) false) MemKind.write)) ∧
      ((mc (MemOwner.bucketW (0 : ℕ) (0 : ℕ) false) MemKind.write).givenUp = false) ∧
      ((mc (MemOwner.bucketW (0 : ℕ) (0 : ℕ) false) MemKind.write).kind ≠ MemKind.read) ∧
      ((mc (MemOwner.bucketW (0 : ℕ) (0 : ℕ) false) MemKind.write).owner = MemOwner.bucketW (0 : ℕ) (0 : ℕ) false)) ∧
    ((w100.slice (0 : ℕ) = some w101) ∧
      (w101.mir.acked = [(1 : ℕ)])) ∧
    ((w102.slice (0 : ℕ) = some w103) ∧
      (w103.mir.acked = []) ∧
      (w103.mir.link ≠ [])) ∧
    ((up.slice (0 : ℕ) = some (sl0 (0 : ℕ))) ∧
      ((sl0 (0 : ℕ)).mir.acked = []) ∧
      ((sl0 (0 : ℕ)).mir.link = []) ∧
      ((sl0 (0 : ℕ)).live = true)) ∧
    ((w104.slice (0 : ℕ) = some w105) ∧
      (w104.net.contains (NMsg.stampAck (0 : ℕ) (0 : Page)) = true) ∧
      ((w104.awaitsAck (0 : ℕ) fun (t : Tracker) (k : Ack) => k.kind == AckKind.stamp && pageOf (t.ackLine k) == (0 : Page)) = true)) ∧
    ((w106.slice (0 : ℕ) = some (sl0 (0 : ℕ))) ∧
      (w106.net.contains (NMsg.stampAck (0 : ℕ) (0 : Page)) = true) ∧
      ((w106.awaitsAck (0 : ℕ) fun (t : Tracker) (k : Ack) => k.kind == AckKind.stamp && pageOf (t.ackLine k) == (0 : Page)) = false) ∧
      ((sl0 (0 : ℕ)).live = true)) ∧
    ((w107.slice (0 : ℕ) = some w105) ∧
      (w107.net.contains (NMsg.markAck (0 : ℕ) (0 : Page)) = true) ∧
      ((w107.awaitsAck (0 : ℕ) fun (t : Tracker) (k : Ack) => k.kind == AckKind.dirtyMark && pageOf (t.ackLine k) == (0 : Page)) = true)) ∧
    ((w108.slice (0 : ℕ) = some (sl0 (0 : ℕ))) ∧
      (w108.net.contains (NMsg.markAck (0 : ℕ) (0 : Page)) = true) ∧
      ((w108.awaitsAck (0 : ℕ) fun (t : Tracker) (k : Ack) => k.kind == AckKind.dirtyMark && pageOf (t.ackLine k) == (0 : Page)) = false) ∧
      ((sl0 (0 : ℕ)).live = true)) := by
  and_intros <;> first
    | exact .head _
    | rfl
    | exact ⟨_, _, rfl⟩
    | exact .inl rfl
    | exact ⟨1, _, by decide, by decide, by decide, rfl, rfl⟩
    | exact .inr (.inl (by decide))
    | exact noReturns (by decide)
    | decide
    | exact fun h => absurd h.1 (by decide)
    | simp
    | (intro _ h; cases h)

/-- The hypotheses of PageMovesTakeTrackersAndEnd, one line of conditions for each clause. -/
theorem witness_PageMovesTakeTrackersAndEnd :
    ((w109.slice (0 : ℕ) = some (sl0 (0 : ℕ))) ∧
      ((sl0 (0 : ℕ)).live = true) ∧
      ((sl0 (0 : ℕ)).ident.adoptStall = false) ∧
      (w109.eg.drainReq = false) ∧
      (w109.net.contains (NMsg.migStart (0 : ℕ) (0 : Page) MigKind.promotion) = true) ∧
      ((sl0 (0 : ℕ)).holdFree = true) ∧
      (¬(MigKind.promotion = MigKind.demotion ∧ (∃ (m : Move), w109.moveOf (0 : Page) = some m ∧ m.forced = false) ∧ ∃ (n : ℕ) (w : PmWay), (sl0 (0 : ℕ)).pmFind (0 : Page) = some (n, w) ∧ w109.pdCold < w.heat.toNat)) ∧
      ((sl0 (0 : ℕ)).pageIdle (0 : Page) = true) ∧
      ((sl0 (0 : ℕ)).poolFree Pool.maint = true)) ∧
    ((w110.slice (0 : ℕ) = some w111) ∧
      (w111.live = true) ∧
      (w111.ident.adoptStall = false) ∧
      (w110.eg.drainReq = false) ∧
      (w110.net.contains (NMsg.migStart (0 : ℕ) (0 : Page) MigKind.promotion) = true) ∧
      (w111.holdFree = true) ∧
      (¬(MigKind.promotion = MigKind.demotion ∧ (∃ (m : Move), w110.moveOf (0 : Page) = some m ∧ m.forced = false) ∧ ∃ (n : ℕ) (w : PmWay), w111.pmFind (0 : Page) = some (n, w) ∧ w110.pdCold < w.heat.toNat)) ∧
      (w111.pageIdle (0 : Page) = true) ∧
      (w111.poolFree Pool.maint = false) ∧
      (w111.poolFree Pool.shared = true)) ∧
    ((w112.slice (0 : ℕ) = some w113) ∧
      (w113.live = true) ∧
      (w113.ident.adoptStall = false) ∧
      (w112.eg.drainReq = false) ∧
      (w112.net.contains (NMsg.migStart (0 : ℕ) (0 : Page) MigKind.promotion) = true) ∧
      (w113.holdFree = true) ∧
      (¬(MigKind.promotion = MigKind.demotion ∧ (∃ (m : Move), w112.moveOf (0 : Page) = some m ∧ m.forced = false) ∧ ∃ (n : ℕ) (w : PmWay), w113.pmFind (0 : Page) = some (n, w) ∧ w112.pdCold < w.heat.toNat)) ∧
      (w113.pageIdle (0 : Page) = false) ∧
      (w113.poolFree Pool.maint = true ∨ w113.poolFree Pool.shared = true)) ∧
    ((w114.slice (0 : ℕ) = some w115) ∧
      (w115.live = true) ∧
      (w115.ident.adoptStall = false) ∧
      (w114.eg.drainReq = false) ∧
      (w114.net.contains (NMsg.migStart (0 : ℕ) (0 : Page) MigKind.promotion) = true) ∧
      (w115.holdFree = false ∨ w115.poolFree Pool.maint = false ∧ w115.poolFree Pool.shared = false)) ∧
    ((w116.slice (0 : ℕ) = some w117) ∧
      (w117.live = true) ∧
      (w117.ident.adoptStall = false) ∧
      (w116.eg.drainReq = false) ∧
      (w116.net.contains (NMsg.migStart (0 : ℕ) (0 : Page) MigKind.demotion) = true) ∧
      (w117.holdFree = true) ∧
      (w117.poolFree Pool.maint = true ∨ w117.poolFree Pool.shared = true) ∧
      (MigKind.demotion = MigKind.demotion) ∧
      (w116.moveOf (0 : Page) = some (mv MoveKind.demotion MoveStage.quiesce)) ∧
      ((mv MoveKind.demotion MoveStage.quiesce).forced = false) ∧
      (w117.pmFind (0 : Page) = some ((0 : ℕ), { page := (0 : Page), ent := peN, heat := (200 : BitVec (8 : ℕ)) : PmWay })) ∧
      (w116.pdCold < { page := (0 : Page), ent := peN, heat := (200 : BitVec (8 : ℕ)) : PmWay }.heat.toNat)) ∧
    ((w118.slice (0 : ℕ) = some (sl0 (0 : ℕ))) ∧
      ((sl0 (0 : ℕ)).live = true) ∧
      (w118.net = [NMsg.entry (0 : Page)] ++ [NMsg.migDone (0 : ℕ) (0 : Page)]) ∧
      (NMsg.migDone (0 : ℕ) (0 : Page) ∉ [NMsg.entry (0 : Page)]) ∧
      (NMsg.entry (0 : Page) ∈ [NMsg.entry (0 : Page)])) ∧
    ((w119.slice (0 : ℕ) = some w120) ∧
      (w120.live = true) ∧
      (w119.net = [] ++ [NMsg.migDone (0 : ℕ) (0 : Page)]) ∧
      (NMsg.migDone (0 : ℕ) (0 : Page) ∉ nilOf NMsg) ∧
      (NMsg.entry (0 : Page) ∉ nilOf NMsg) ∧
      (List.filter (fun (t : Tracker) => t.st == TSt.mg && pageOf t.req.line == (0 : Page)) w120.trk ≠ [])) ∧
    ((w121.slice (0 : ℕ) = some (sl0 (0 : ℕ))) ∧
      ((sl0 (0 : ℕ)).live = true) ∧
      (w121.net = [] ++ [NMsg.migDone (0 : ℕ) (0 : Page)]) ∧
      (NMsg.migDone (0 : ℕ) (0 : Page) ∉ nilOf NMsg) ∧
      (NMsg.entry (0 : Page) ∉ nilOf NMsg) ∧
      (List.filter (fun (t : Tracker) => t.st == TSt.mg && pageOf t.req.line == (0 : Page)) (sl0 (0 : ℕ)).trk = []) ∧
      (∀ r ∈ w121.cast.redirect, r.2 ≠ (0 : ℕ))) ∧
    ((w121r.slice (0 : ℕ) = some (sl0 (0 : ℕ))) ∧
      ((sl0 (0 : ℕ)).live = true) ∧
      (w121r.net = [] ++ [NMsg.migDone (0 : ℕ) (0 : Page)]) ∧
      (NMsg.migDone (0 : ℕ) (0 : Page) ∉ nilOf NMsg) ∧
      ((1, 0) ∈ w121r.cast.redirect) ∧
      (NMsg.entry (0 : Page) ∉ nilOf NMsg) ∧
      (List.filter (fun (t : Tracker) => t.st == TSt.mg && pageOf t.req.line == (0 : Page)) (sl0 (0 : ℕ)).trk = [])) := by
  and_intros <;> first
    | exact .head _
    | rfl
    | exact ⟨_, _, rfl⟩
    | exact .inl rfl
    | exact ⟨1, _, by decide, by decide, by decide, rfl, rfl⟩
    | exact .inr (.inl (by decide))
    | exact noReturns (by decide)
    | decide
    | exact fun h => absurd h.1 (by decide)
    | simp
    | (intro _ h; cases h)

/-- The hypotheses of TicksChecksReevaluationsAndGating, one line of conditions for each clause. -/
theorem witness_TicksChecksReevaluationsAndGating :
    ((w122.slice (0 : ℕ) = some w123) ∧
      (w123.live = true) ∧
      (w123.trk = [] ++ [w124]) ∧
      (∀ x ∈ nilOf Tracker, x.armed = false ∨ x.tickDue = false) ∧
      (w124.armed = true) ∧
      (w124.tickDue = true)) ∧
    ((w122.slice (0 : ℕ) = some w123) ∧
      (w123.live = true) ∧
      (w123.trk = [] ++ [w124]) ∧
      (∀ x ∈ nilOf Tracker, x.armed = false ∨ x.tickDue = false) ∧
      (w124.armed = true) ∧
      (w124.tickDue = true) ∧
      ((5 : ℕ) ≠ w124.num)) ∧
    (((upT (t0 q0)).slice (0 : ℕ) = some (slT (t0 q0))) ∧
      ((slT (t0 q0)).live = true) ∧
      (∀ x ∈ (slT (t0 q0)).trk, x.armed = false ∨ x.tickDue = false)) ∧
    ((w125.slice (0 : ℕ) = some w126) ∧
      (w126.live = true) ∧
      (w126.arb.selfSlot = true) ∧
      (w126.arb.selfDone = false)) ∧
    ((w125.slice (0 : ℕ) = some w126) ∧
      (w126.live = true) ∧
      (w126.arb.selfSlot = true) ∧
      (w126.arb.selfDone = false)) ∧
    ((w127.slice (0 : ℕ) = some w128) ∧
      (w128.live = true) ∧
      (w128.arb.selfSlot = true) ∧
      (w128.arb.selfDone = true)) ∧
    ((w129.slice (0 : ℕ) = some w130) ∧
      (w130.live = true) ∧
      (w129.tracker (0 : ℕ) (0 : ℕ) = some w131) ∧
      (w131.reevalDue = true) ∧
      (w131.stall = none)) ∧
    (((upT (t0 q0)).slice (0 : ℕ) = some (slT (t0 q0))) ∧
      ((slT (t0 q0)).live = true) ∧
      ((upT (t0 q0)).tracker (0 : ℕ) (0 : ℕ) = some (t0 q0)) ∧
      ((t0 q0).reevalDue = false)) ∧
    ((w132.slice (0 : ℕ) = some w133) ∧
      (bitAt (w132.actReg (16 : ℕ)) (29 : ℕ) = true) ∧
      (w132.pwr.phase = PwrPhase.p0) ∧
      (w133.live = true) ∧
      (w133.beating = true) ∧
      (w133.idle = true) ∧
      (w133.arb.selfDone = true) ∧
      (w133.ident.busyMove = false) ∧
      (max (1 : ℕ) (fieldN (w132.actReg (16 : ℕ)) (8 : ℕ) (12 : ℕ)) ≤ w133.ident.idleMoves)) ∧
    ((w134.slice (0 : ℕ) = some (sl0 (0 : ℕ))) ∧
      (bitAt (w134.actReg (16 : ℕ)) (29 : ℕ) = false ∨ (sl0 (0 : ℕ)).idle = false)) := by
  and_intros <;> first
    | exact .head _
    | rfl
    | exact ⟨_, _, rfl⟩
    | exact .inl rfl
    | exact ⟨1, _, by decide, by decide, by decide, rfl, rfl⟩
    | exact .inr (.inl (by decide))
    | exact noReturns (by decide)
    | decide
    | exact fun h => absurd h.1 (by decide)
    | simp
    | (intro _ h; cases h)

/-- The hypotheses of EveryCycleHasOneSlotKind, one line of conditions for each clause. -/
theorem witness_EveryCycleHasOneSlotKind :
    (((0 : ℕ) < (1024 : ℕ))) := by
  and_intros <;> first
    | exact .head _
    | rfl
    | exact ⟨_, _, rfl⟩
    | exact .inl rfl
    | exact ⟨1, _, by decide, by decide, by decide, rfl, rfl⟩
    | exact .inr (.inl (by decide))
    | exact noReturns (by decide)
    | decide
    | exact fun h => absurd h.1 (by decide)
    | simp
    | (intro _ h; cases h)

/-- The hypotheses of SlotsCreditsAndHold, one line of conditions for each clause. -/
theorem witness_SlotsCreditsAndHold :
    ((w135.slice (0 : ℕ) = some w136) ∧
      (w136.live = false ∨ w136.ident.gated = true)) ∧
    ((w137.slice (0 : ℕ) = some w138) ∧
      (w138.live = true) ∧
      (w138.ident.gated = false) ∧
      (slotKind (w138.arb.cyc % (1024 : ℕ)) = SlotKind.k ∨ slotKind (w138.arb.cyc % (1024 : ℕ)) = SlotKind.lottery) ∧
      ((w137.cycleCounts (0 : ℕ) w138).kPick w138 = some ((0 : ℕ), w139))) ∧
    ((w140.slice (0 : ℕ) = some w141) ∧
      (w141.live = true) ∧
      (w141.ident.gated = false) ∧
      (slotKind (w141.arb.cyc % (1024 : ℕ)) = SlotKind.q) ∧
      ((if w140.variant = Variant.yzh16 then w141.arb.pipeQ else w140.drawQ (0 : ℕ) w141) = some { input := (0 : ℕ), cls := Cls.q : Cand }) ∧
      ((w140.cycleCounts (0 : ℕ) w141).resetSince w141 { input := (0 : ℕ), cls := Cls.q : Cand }.input = false) ∧
      ((w140.cycleCounts (0 : ℕ) w141).candReq w141 { input := (0 : ℕ), cls := Cls.q : Cand } (fun (q : Req) => (w140.cycleCounts (0 : ℕ) w141).slotClass w141 q == Cls.q) ((w140.cycleCounts (0 : ℕ) w141).onTurn w141) = some q0) ∧
      ((w140.cycleCounts (0 : ℕ) w141).tickets (0 : ℕ) { input := (0 : ℕ), cls := Cls.q : Cand } ≠ (0 : ℕ))) ∧
    ((w142.slice (0 : ℕ) = some w143) ∧
      (w143.live = true) ∧
      (w143.ident.gated = false) ∧
      (slotKind (w143.arb.cyc % (1024 : ℕ)) = SlotKind.maint) ∧
      (w143.arb.selfSlot = false)) ∧
    ((w144.slice (0 : ℕ) = some (sl0 (0 : ℕ))) ∧
      ((sl0 (0 : ℕ)).live = true) ∧
      ((sl0 (0 : ℕ)).ident.gated = false) ∧
      (slotKind ((sl0 (0 : ℕ)).arb.cyc % (1024 : ℕ)) ≠ SlotKind.maint) ∧
      ((w144.cycleCounts (0 : ℕ) (sl0 (0 : ℕ))).kPick (sl0 (0 : ℕ)) = none) ∧
      ((w144.cycleCounts (0 : ℕ) (sl0 (0 : ℕ))).forcedPick (sl0 (0 : ℕ)) = none) ∧
      ((if w144.variant = Variant.yzh16 then (sl0 (0 : ℕ)).arb.pipeQ else w144.drawQ (0 : ℕ) (sl0 (0 : ℕ))) = none ∨ slotKind ((sl0 (0 : ℕ)).arb.cyc % (1024 : ℕ)) ≠ SlotKind.q) ∧
      ((if w144.variant = Variant.yzh16 then (sl0 (0 : ℕ)).arb.pipeL else w144.drawLottery (0 : ℕ) (sl0 (0 : ℕ))) = none) ∧
      ((w144.cycleCounts (0 : ℕ) (sl0 (0 : ℕ))).maintWaits (0 : ℕ) (sl0 (0 : ℕ)) = false)) ∧
    ((w145.slice (0 : ℕ) = some w146) ∧
      (w146.arb.inputs[(0 : ℕ)]? = some { waiting := [], starve := (5000000 : ℕ), forced := false, kcredit := none, wasReset := false : InputQ }) ∧
      (w145.starveLimit (0 : ℕ) (0 : ℕ) ≠ (0 : ℕ)) ∧
      (w145.starveLimit (0 : ℕ) (0 : ℕ) ≤ { waiting := [], starve := (5000000 : ℕ), forced := false, kcredit := none, wasReset := false : InputQ }.starve) ∧
      ({ waiting := [], starve := (5000000 : ℕ), forced := false, kcredit := none, wasReset := false : InputQ }.forced = false)) ∧
    ((up.slice (0 : ℕ) = some (sl0 (0 : ℕ))) ∧
      ((sl0 (0 : ℕ)).arb.inputs[(0 : ℕ)]? = some { waiting := [], starve := (0 : ℕ), forced := false, kcredit := none, wasReset := false : InputQ }) ∧
      ({ waiting := [], starve := (0 : ℕ), forced := false, kcredit := none, wasReset := false : InputQ }.starve < up.starveLimit (0 : ℕ) (0 : ℕ))) ∧
    ((up.slice (0 : ℕ) = some (sl0 (0 : ℕ))) ∧
      ((sl0 (0 : ℕ)).arb.inputs[(0 : ℕ)]? = some { waiting := [], starve := (0 : ℕ), forced := false, kcredit := none, wasReset := false : InputQ }) ∧
      ((sl0 (0 : ℕ)).creditPool = some Pool.k) ∧
      (up.variant.hasInput (0 : ℕ) = true) ∧
      ((sl0 (0 : ℕ)).live = true) ∧
      ((sl0 (0 : ℕ)).ident.role.serves = true) ∧
      ({ waiting := [], starve := (0 : ℕ), forced := false, kcredit := none, wasReset := false : InputQ }.kcredit = none)) ∧
    ((w147.slice (0 : ℕ) = some w148) ∧
      (w148.arb.inputs[(0 : ℕ)]? = some { waiting := [], starve := (0 : ℕ), forced := false, kcredit := some Pool.k, wasReset := false : InputQ }) ∧
      (w148.creditPool = none ∨ { waiting := [], starve := (0 : ℕ), forced := false, kcredit := some Pool.k, wasReset := false : InputQ }.kcredit.isSome = true)) ∧
    ((w149.slice (0 : ℕ) = some w150) ∧
      (w150.live = true) ∧
      (w150.obs.errs = []) ∧
      ({ num := (0 : ℕ), req := q0, order := (0 : ℕ), behind := (0 : ℕ) : HoldEnt } ∈ w150.hold) ∧
      ({ num := (0 : ℕ), req := q0, order := (0 : ℕ), behind := (0 : ℕ) : HoldEnt }.req.line = (0 : LineAddr)) ∧
      ({ num := (0 : ℕ), req := q0, order := (0 : ℕ), behind := (0 : ℕ) : HoldEnt }.req.kind ≠ Inp.migStart) ∧
      (∀ x ∈ w150.hold, x.req.line = (0 : LineAddr) → x ≠ { num := (0 : ℕ), req := q0, order := (0 : ℕ), behind := (0 : ℕ) : HoldEnt } → (x.req.cls = Cls.k → { num := (0 : ℕ), req := q0, order := (0 : ℕ), behind := (0 : ℕ) : HoldEnt }.req.cls = Cls.k) ∧ ((x.req.cls = Cls.k ↔ { num := (0 : ℕ), req := q0, order := (0 : ℕ), behind := (0 : ℕ) : HoldEnt }.req.cls = Cls.k) → { num := (0 : ℕ), req := q0, order := (0 : ℕ), behind := (0 : ℕ) : HoldEnt }.order < x.order)) ∧
      (w150.holderTrk (0 : LineAddr) = none) ∧
      (w149.replaying (0 : ℕ) (0 : LineAddr) = false) ∧
      (w149.releasePool w150 { num := (0 : ℕ), req := q0, order := (0 : ℕ), behind := (0 : ℕ) : HoldEnt }.req = some Pool.shared)) ∧
    ((w151.slice (0 : ℕ) = some w152) ∧
      (w152.live = true) ∧
      (w152.obs.errs = []) ∧
      ({ num := (0 : ℕ), req := q0, order := (0 : ℕ), behind := (0 : ℕ) : HoldEnt } ∈ w152.hold) ∧
      ({ num := (0 : ℕ), req := q0, order := (0 : ℕ), behind := (0 : ℕ) : HoldEnt }.req.line = (0 : LineAddr)) ∧
      ({ num := (0 : ℕ), req := q0, order := (0 : ℕ), behind := (0 : ℕ) : HoldEnt }.req.kind ≠ Inp.migStart) ∧
      (∀ x ∈ w152.hold, x.req.line = (0 : LineAddr) → x ≠ { num := (0 : ℕ), req := q0, order := (0 : ℕ), behind := (0 : ℕ) : HoldEnt } → (x.req.cls = Cls.k → { num := (0 : ℕ), req := q0, order := (0 : ℕ), behind := (0 : ℕ) : HoldEnt }.req.cls = Cls.k) ∧ ((x.req.cls = Cls.k ↔ { num := (0 : ℕ), req := q0, order := (0 : ℕ), behind := (0 : ℕ) : HoldEnt }.req.cls = Cls.k) → { num := (0 : ℕ), req := q0, order := (0 : ℕ), behind := (0 : ℕ) : HoldEnt }.order < x.order)) ∧
      ((w152.holderTrk (0 : LineAddr)).isSome = true)) := by
  and_intros <;> first
    | exact .head _
    | rfl
    | exact ⟨_, _, rfl⟩
    | exact .inl rfl
    | exact ⟨1, _, by decide, by decide, by decide, rfl, rfl⟩
    | exact .inr (.inl (by decide))
    | exact noReturns (by decide)
    | decide
    | exact fun h => absurd h.1 (by decide)
    | simp
    | (intro _ h; cases h)

/-- The hypotheses of WritebackAndDrainWalks, one line of conditions for each clause. -/
theorem witness_WritebackAndDrainWalks :
    ((up.slice (0 : ℕ) = some (sl0 (0 : ℕ))) ∧
      ((sl0 (0 : ℕ)).live = true) ∧
      ((sl0 (0 : ℕ)).msc.retiring = []) ∧
      ((sl0 (0 : ℕ)).ident.unprot = false) ∧
      ((sl0 (0 : ℕ)).msc.walkBusy = false) ∧
      ((sl0 (0 : ℕ)).dirtyCount ≤ up.dirtyHigh (0 : ℕ))) ∧
    ((w153.slice (0 : ℕ) = some w154) ∧
      (w154.live = true) ∧
      (w154.msc.retiring = []) ∧
      (w154.ident.unprot = false) ∧
      (w153.dirtyHigh (0 : ℕ) < w154.dirtyCount ∨ w154.msc.walkBusy = true) ∧
      (w154.wpqRoom < (List.filter (fun (x : ℕ × CLine) => x.2.dirty) (w154.setLines w154.msc.walkSet)).length)) ∧
    ((w155.slice (0 : ℕ) = some w156) ∧
      (w156.live = true) ∧
      (w156.msc.retiring = []) ∧
      (w156.ident.unprot = false) ∧
      (w155.dirtyHigh (0 : ℕ) < w156.dirtyCount ∨ w156.msc.walkBusy = true) ∧
      ((List.filter (fun (x : ℕ × CLine) => x.2.dirty) (w156.setLines w156.msc.walkSet)).length ≤ w156.wpqRoom) ∧
      ((List.foldl (fun (s : State) (x : ℕ × CLine) => s.writeBack (0 : ℕ) (w156.msc.walkSet * (16 : ℕ) + x.1) x.2) w155 (List.filter (fun (x : ℕ × CLine) => x.2.dirty) (w156.setLines w156.msc.walkSet))).slice (0 : ℕ) = some w157)) ∧
    ((w158.slice (0 : ℕ) = some w159) ∧
      (w159.live = true) ∧
      (w159.msc.state = MscState.draining) ∧
      ((List.filter (fun (x : ℕ × CLine) => x.2.dirty) (w159.setLines w159.msc.drainSet)).length ≤ w159.wpqRoom)) ∧
    ((w160.slice (0 : ℕ) = some w161) ∧
      (w161.live = true) ∧
      (w161.msc.state = MscState.draining) ∧
      (w161.wpqRoom < (List.filter (fun (x : ℕ × CLine) => x.2.dirty) (w161.setLines w161.msc.drainSet)).length)) ∧
    ((up.slice (0 : ℕ) = some (sl0 (0 : ℕ))) ∧
      ((sl0 (0 : ℕ)).live = true) ∧
      ((sl0 (0 : ℕ)).msc.state ≠ MscState.draining)) ∧
    ((w162.slice (0 : ℕ) = some w163) ∧
      (w163.live = true) ∧
      (w163.ident.draining = true) ∧
      (w163.ident.drainPass = false) ∧
      (w162.eg.drainReq = true) ∧
      ((List.filter (fun (x : ℕ × CLine) => x.2.dirty) (w163.setLines w163.ident.drainSet)).length ≤ w163.wpqRoom)) ∧
    ((w164.slice (0 : ℕ) = some w165) ∧
      (w165.live = true) ∧
      (w165.ident.draining = true) ∧
      (w165.ident.drainPass = false) ∧
      (w164.eg.drainReq = true) ∧
      (w165.wpqRoom < (List.filter (fun (x : ℕ × CLine) => x.2.dirty) (w165.setLines w165.ident.drainSet)).length)) ∧
    ((up.slice (0 : ℕ) = some (sl0 (0 : ℕ))) ∧
      ((sl0 (0 : ℕ)).live = true) ∧
      ((sl0 (0 : ℕ)).ident.draining = false)) := by
  and_intros <;> first
    | exact .head _
    | rfl
    | exact ⟨_, _, rfl⟩
    | exact .inl rfl
    | exact ⟨1, _, by decide, by decide, by decide, rfl, rfl⟩
    | exact .inr (.inl (by decide))
    | exact noReturns (by decide)
    | decide
    | exact fun h => absurd h.1 (by decide)
    | simp
    | (intro _ h; cases h)

/-- The hypotheses of LinesLeaveForMemory, one line of conditions for each clause. -/
theorem witness_LinesLeaveForMemory :
    ((w166.slice (0 : ℕ) = some w167) ∧
      (w167.ident.isolated = false) ∧
      (w167.ident.failed = none) ∧
      (w167.obs.errs = []) ∧
      (w167.msc.wpq = [] ++ [wq (0 : ℕ) false]) ∧
      (∀ x ∈ nilOf WpqEnt, x.issued = true) ∧
      ((wq (0 : ℕ) false).issued = false)) ∧
    ((w168.slice (0 : ℕ) = some w169) ∧
      (w168.buddyOf (0 : ℕ) = some (1 : ℕ)) ∧
      (w169.obs.errs = []) ∧
      (w169.mir.link = [{ uid := (1 : ℕ), ops := [] : MirUpd }])) ∧
    ((w170.slice (0 : ℕ) = some w171) ∧
      (w171.ident.isolated = false) ∧
      (w171.ident.failed = none) ∧
      (w171.obs.errs = []) ∧
      (w171.msc.vb = [] ++ [{ num := (0 : ℕ), cl := cl true, inWpq := false, noReinst := false, mirror := none : VbEnt }]) ∧
      ({ num := (0 : ℕ), cl := cl true, inWpq := false, noReinst := false, mirror := none : VbEnt }.num = (0 : ℕ)) ∧
      ({ num := (0 : ℕ), cl := cl true, inWpq := false, noReinst := false, mirror := none : VbEnt }.inWpq = false) ∧
      (∀ y ∈ nilOf VbEnt ++ [], y.num ≠ (0 : ℕ) ∧ y.cl.line ≠ { num := (0 : ℕ), cl := cl true, inWpq := false, noReinst := false, mirror := none : VbEnt }.cl.line) ∧
      (w171.wpqFits { num := (0 : ℕ), cl := cl true, inWpq := false, noReinst := false, mirror := none : VbEnt }.cl.line = true) ∧
      ((((w170.modSlice (0 : ℕ) fun (y : Slice) => y.setVb (List.map (fun (z : VbEnt) => if (z.num == (0 : ℕ)) = true then { num := z.num, cl := z.cl, inWpq := true, noReinst := z.noReinst, mirror := z.mirror : VbEnt } else z) y.msc.vb)).toWpq (0 : ℕ) { num := (0 : ℕ), cl := cl true, inWpq := false, noReinst := false, mirror := none : VbEnt }.cl.line { num := (0 : ℕ), cl := cl true, inWpq := false, noReinst := false, mirror := none : VbEnt }.cl.data { num := (0 : ℕ), cl := cl true, inWpq := false, noReinst := false, mirror := none : VbEnt }.cl.nib { num := (0 : ℕ), cl := cl true, inWpq := false, noReinst := false, mirror := none : VbEnt }.cl.poison false).s.mirSend (0 : ℕ) ((w170.modSlice (0 : ℕ) fun (y : Slice) => y.setVb (List.map (fun (z : VbEnt) => if (z.num == (0 : ℕ)) = true then { num := z.num, cl := z.cl, inWpq := true, noReinst := z.noReinst, mirror := z.mirror : VbEnt } else z) y.msc.vb)).toWpq (0 : ℕ) { num := (0 : ℕ), cl := cl true, inWpq := false, noReinst := false, mirror := none : VbEnt }.cl.line { num := (0 : ℕ), cl := cl true, inWpq := false, noReinst := false, mirror := none : VbEnt }.cl.data { num := (0 : ℕ), cl := cl true, inWpq := false, noReinst := false, mirror := none : VbEnt }.cl.nib { num := (0 : ℕ), cl := cl true, inWpq := false, noReinst := false, mirror := none : VbEnt }.cl.poison false).ops).2 = none)) ∧
    ((w172.slice (0 : ℕ) = some w173) ∧
      (w173.ident.isolated = false) ∧
      (w173.ident.failed = none) ∧
      (w173.obs.errs = []) ∧
      (w173.msc.vb = [] ++ [{ num := (0 : ℕ), cl := cl true, inWpq := false, noReinst := false, mirror := none : VbEnt }]) ∧
      ({ num := (0 : ℕ), cl := cl true, inWpq := false, noReinst := false, mirror := none : VbEnt }.num = (0 : ℕ)) ∧
      ({ num := (0 : ℕ), cl := cl true, inWpq := false, noReinst := false, mirror := none : VbEnt }.inWpq = false) ∧
      (∀ y ∈ nilOf VbEnt ++ [], y.num ≠ (0 : ℕ) ∧ y.cl.line ≠ { num := (0 : ℕ), cl := cl true, inWpq := false, noReinst := false, mirror := none : VbEnt }.cl.line) ∧
      (w173.wpqFits { num := (0 : ℕ), cl := cl true, inWpq := false, noReinst := false, mirror := none : VbEnt }.cl.line = true) ∧
      ((((w172.modSlice (0 : ℕ) fun (y : Slice) => y.setVb (List.map (fun (z : VbEnt) => if (z.num == (0 : ℕ)) = true then { num := z.num, cl := z.cl, inWpq := true, noReinst := z.noReinst, mirror := z.mirror : VbEnt } else z) y.msc.vb)).toWpq (0 : ℕ) { num := (0 : ℕ), cl := cl true, inWpq := false, noReinst := false, mirror := none : VbEnt }.cl.line { num := (0 : ℕ), cl := cl true, inWpq := false, noReinst := false, mirror := none : VbEnt }.cl.data { num := (0 : ℕ), cl := cl true, inWpq := false, noReinst := false, mirror := none : VbEnt }.cl.nib { num := (0 : ℕ), cl := cl true, inWpq := false, noReinst := false, mirror := none : VbEnt }.cl.poison false).s.mirSend (0 : ℕ) ((w172.modSlice (0 : ℕ) fun (y : Slice) => y.setVb (List.map (fun (z : VbEnt) => if (z.num == (0 : ℕ)) = true then { num := z.num, cl := z.cl, inWpq := true, noReinst := z.noReinst, mirror := z.mirror : VbEnt } else z) y.msc.vb)).toWpq (0 : ℕ) { num := (0 : ℕ), cl := cl true, inWpq := false, noReinst := false, mirror := none : VbEnt }.cl.line { num := (0 : ℕ), cl := cl true, inWpq := false, noReinst := false, mirror := none : VbEnt }.cl.data { num := (0 : ℕ), cl := cl true, inWpq := false, noReinst := false, mirror := none : VbEnt }.cl.nib { num := (0 : ℕ), cl := cl true, inWpq := false, noReinst := false, mirror := none : VbEnt }.cl.poison false).ops).2 = some (0 : ℕ))) ∧
    ((w174.slice (0 : ℕ) = some w175) ∧
      (w175.ident.isolated = false) ∧
      (w175.ident.failed = none) ∧
      (w175.obs.errs = []) ∧
      (w175.msc.vb = [] ++ [{ num := (0 : ℕ), cl := cl true, inWpq := false, noReinst := false, mirror := none : VbEnt }]) ∧
      ({ num := (0 : ℕ), cl := cl true, inWpq := false, noReinst := false, mirror := none : VbEnt }.num = (0 : ℕ)) ∧
      ({ num := (0 : ℕ), cl := cl true, inWpq := false, noReinst := false, mirror := none : VbEnt }.inWpq = false) ∧
      (∀ y ∈ nilOf VbEnt ++ [], y.num ≠ (0 : ℕ) ∧ y.cl.line ≠ { num := (0 : ℕ), cl := cl true, inWpq := false, noReinst := false, mirror := none : VbEnt }.cl.line) ∧
      (w175.wpqFits { num := (0 : ℕ), cl := cl true, inWpq := false, noReinst := false, mirror := none : VbEnt }.cl.line = false)) ∧
    ((w176.slice (0 : ℕ) = some w177) ∧
      (w177.ident.isolated = false) ∧
      (w177.ident.failed = none) ∧
      (w177.obs.errs = []) ∧
      (w176.tracker (0 : ℕ) (0 : ℕ) = some w178) ∧
      (w178.acks = [{ kind := AckKind.kFill true, vic := false : Ack }]) ∧
      (w178.buf = some (7 : Line)) ∧
      ((w176.writeDirty (0 : ℕ) w178.req.line (7 : Line) (w178.nib.getD (w176.nibNow (1 : BitVec (2 : ℕ)))) w178.poison (w176.lineEnt w177 w178.req.line).kpin false w178.ktag).pend = true)) ∧
    ((w179.slice (0 : ℕ) = some w180) ∧
      (w180.ident.isolated = false) ∧
      (w180.ident.failed = none) ∧
      (w180.obs.errs = []) ∧
      (w179.tracker (0 : ℕ) (0 : ℕ) = some w178) ∧
      (w178.acks = [{ kind := AckKind.kFill true, vic := false : Ack }]) ∧
      (w178.buf = some (7 : Line)) ∧
      ((w179.writeDirty (0 : ℕ) w178.req.line (7 : Line) (w178.nib.getD (w179.nibNow (1 : BitVec (2 : ℕ)))) w178.poison (w179.lineEnt w180 w178.req.line).kpin false w178.ktag).pend = false) ∧
      ((w179.writeDirty (0 : ℕ) w178.req.line (7 : Line) (w178.nib.getD (w179.nibNow (1 : BitVec (2 : ℕ)))) w178.poison (w179.lineEnt w180 w178.req.line).kpin false w178.ktag).wid = none) ∧
      ((w179.writeDirty (0 : ℕ) w178.req.line (7 : Line) (w178.nib.getD (w179.nibNow (1 : BitVec (2 : ℕ)))) w178.poison (w179.lineEnt w180 w178.req.line).kpin false w178.ktag).ops ≠ [])) := by
  and_intros <;> first
    | exact .head _
    | rfl
    | exact ⟨_, _, rfl⟩
    | exact .inl rfl
    | exact ⟨1, _, by decide, by decide, by decide, rfl, rfl⟩
    | exact .inr (.inl (by decide))
    | exact noReturns (by decide)
    | decide
    | exact fun h => absurd h.1 (by decide)
    | simp
    | (intro _ h; cases h)

/-- The hypotheses of WaysRetireAndAreDisabled, one line of conditions for each clause. -/
theorem witness_WaysRetireAndAreDisabled :
    ((w181.slice (0 : ℕ) = some w182) ∧
      (w182.live = true) ∧
      ((0 : ℕ) < (16 : ℕ)) ∧
      (fieldN (w181.slReg (0 : ℕ) (288 : ℕ)) (24 : ℕ) (8 : ℕ) ≠ (0 : ℕ)) ∧
      (fieldN (w181.slReg (0 : ℕ) (288 : ℕ)) (24 : ℕ) (8 : ℕ) ≤ (kget (0 : ℕ) w182.msc.wayErr).getD (0 : ℕ)) ∧
      (w181.mscDis (0 : ℕ) (0 : ℕ) = false) ∧
      (bitAt w182.msc.auto (0 : ℕ) = false) ∧
      (∀ r ∈ w182.msc.retiring, r.1 ≠ (0 : ℕ)) ∧
      (clamp (4 : ℕ) (16 : ℕ) (fieldN (w181.slReg (0 : ℕ) (288 : ℕ)) (8 : ℕ) (8 : ℕ)) < w181.waysOn (0 : ℕ) w182)) ∧
    ((w183.slice (0 : ℕ) = some w182) ∧
      (w182.live = true) ∧
      ((0 : ℕ) < (16 : ℕ)) ∧
      (fieldN (w183.slReg (0 : ℕ) (288 : ℕ)) (24 : ℕ) (8 : ℕ) ≠ (0 : ℕ)) ∧
      (fieldN (w183.slReg (0 : ℕ) (288 : ℕ)) (24 : ℕ) (8 : ℕ) ≤ (kget (0 : ℕ) w182.msc.wayErr).getD (0 : ℕ)) ∧
      (w183.mscDis (0 : ℕ) (0 : ℕ) = false) ∧
      (bitAt w182.msc.auto (0 : ℕ) = false) ∧
      (∀ r ∈ w182.msc.retiring, r.1 ≠ (0 : ℕ)) ∧
      (w183.waysOn (0 : ℕ) w182 ≤ clamp (4 : ℕ) (16 : ℕ) (fieldN (w183.slReg (0 : ℕ) (288 : ℕ)) (8 : ℕ) (8 : ℕ)))) ∧
    ((up.slice (0 : ℕ) = some (sl0 (0 : ℕ))) ∧
      ((sl0 (0 : ℕ)).live = true) ∧
      ((0 : ℕ) < (16 : ℕ)) ∧
      ((kget (0 : ℕ) (sl0 (0 : ℕ)).msc.wayErr).getD (0 : ℕ) < fieldN (up.slReg (0 : ℕ) (288 : ℕ)) (24 : ℕ) (8 : ℕ))) ∧
    ((up.slice (0 : ℕ) = some (sl0 (0 : ℕ))) ∧
      ((sl0 (0 : ℕ)).live = true) ∧
      ((0 : ℕ) < (16 : ℕ)) ∧
      (up.gl.move.toNat % ((65536 : ℕ) * max (1 : ℕ) (fieldN (up.slReg (0 : ℕ) (288 : ℕ)) (16 : ℕ) (8 : ℕ))) = (0 : ℕ))) ∧
    ((w184.slice (0 : ℕ) = some w185) ∧
      (w185.live = true) ∧
      (w185.dir.wdSet = some (4 : ℕ)) ∧
      (∀ w < (16 : ℕ), w184.sfDis (0 : ℕ) w = true → w185.sfAt (4 : ℕ) w = none) ∧
      ((4 : ℕ) + (1 : ℕ) < (32768 : ℕ))) ∧
    ((w186.slice (0 : ℕ) = some w187) ∧
      (w187.live = true) ∧
      (w187.dir.wdSet = some (32767 : ℕ)) ∧
      (∀ w < (16 : ℕ), w186.sfDis (0 : ℕ) w = true → w187.sfAt (32767 : ℕ) w = none) ∧
      ((32767 : ℕ) + (1 : ℕ) = (32768 : ℕ)) ∧
      (w187.dir.wdLeft = (0 : BitVec (16 : ℕ)))) ∧
    ((w188.slice (0 : ℕ) = some w189) ∧
      (w189.live = true) ∧
      (w189.dir.wdSet = some (4 : ℕ)) ∧
      ((0 : ℕ) < (16 : ℕ)) ∧
      (w188.sfDis (0 : ℕ) (0 : ℕ) = true) ∧
      (w189.sfAt (4 : ℕ) (0 : ℕ) = some { line := (4 : LineAddr), st := HState.s, ptrs := [(0 : ℕ)], coarse := none, amh := false, fwd := (0 : ℕ), opn := false, kpin := false : Entry }) ∧
      ({ line := (4 : LineAddr), st := HState.s, ptrs := [(0 : ℕ)], coarse := none, amh := false, fwd := (0 : ℕ), opn := false, kpin := false : Entry }.opn = false) ∧
      (∀ v < (16 : ℕ), v ≠ (0 : ℕ) → w188.sfDis (0 : ℕ) v = true → w189.sfAt (4 : ℕ) v = none) ∧
      (w189.poolFree Pool.maint = true) ∧
      ((4 : ℕ) + (1 : ℕ) < (32768 : ℕ)) ∧
      ((w188.evictEntry (0 : ℕ) ((4 : ℕ) * (16 : ℕ) + (0 : ℕ)) { line := (4 : LineAddr), st := HState.s, ptrs := [(0 : ℕ)], coarse := none, amh := false, fwd := (0 : ℕ), opn := false, kpin := false : Entry }).slice (0 : ℕ) = some w190) ∧
      (w190.sfAt (4 : ℕ) (0 : ℕ) = none)) := by
  and_intros <;> first
    | exact .head _
    | rfl
    | exact ⟨_, _, rfl⟩
    | exact .inl rfl
    | exact ⟨1, _, by decide, by decide, by decide, rfl, rfl⟩
    | exact .inr (.inl (by decide))
    | exact noReturns (by decide)
    | decide
    | exact fun h => absurd h.1 (by decide)
    | simp
    | (intro _ h; cases h)

/-- The hypotheses of SweepersPrefetchesAndPreloads, one line of conditions for each clause. -/
theorem witness_SweepersPrefetchesAndPreloads :
    ((w191.slice (0 : ℕ) = some w192) ∧
      (w192.live = true) ∧
      (w192.ident.adoptStall = false) ∧
      (w191.eg.drainReq = false) ∧
      (w192.blind = [{ log := (0 : ℕ), kpages := [], frame := (0 : ℕ), group := (0 : ℕ) : Blind }]) ∧
      (w191.sweepPage { log := (0 : ℕ), kpages := [], frame := (0 : ℕ), group := (0 : ℕ) : Blind } = none)) ∧
    ((w193.slice (0 : ℕ) = some w194) ∧
      (w194.live = true) ∧
      (w194.ident.adoptStall = false) ∧
      (w193.eg.drainReq = false) ∧
      (w194.blind = [{ log := (0 : ℕ), kpages := [], frame := (0 : ℕ), group := (0 : ℕ) : Blind }]) ∧
      (w193.sweepPage { log := (0 : ℕ), kpages := [], frame := (0 : ℕ), group := (0 : ℕ) : Blind } = some ((0 : Page), some (0 : ℕ))) ∧
      (w194.sweepers = []) ∧
      ((w194.pmFind (0 : Page)).isSome = true) ∧
      ((w193.pageEnt (0 : Page)).near = true) ∧
      (∀ i < (4 : ℕ), (w194.sfFind (pageLine (0 : Page) ((4 : ℕ) * { log := (0 : ℕ), kpages := [], frame := (0 : ℕ), group := (0 : ℕ) : Blind }.group + i))).isSome = true ∨ ∃ (n : Nib), w194.nibHere (pageLine (0 : Page) ((4 : ℕ) * { log := (0 : ℕ), kpages := [], frame := (0 : ℕ), group := (0 : ℕ) : Blind }.group + i)) = some n ∧ Nib.dir n ≠ (1 : BitVec (2 : ℕ)))) ∧
    ((w195.slice (0 : ℕ) = some w192) ∧
      (w192.live = true) ∧
      (w192.ident.adoptStall = false) ∧
      (w195.eg.drainReq = false) ∧
      (w192.blind = [{ log := (0 : ℕ), kpages := [], frame := (0 : ℕ), group := (0 : ℕ) : Blind }]) ∧
      (w195.sweepPage { log := (0 : ℕ), kpages := [], frame := (0 : ℕ), group := (0 : ℕ) : Blind } = some ((0 : Page), some (0 : ℕ))) ∧
      (w192.sweepers = []) ∧
      (w192.pmFind (0 : Page) = none)) ∧
    ((w196.slice (0 : ℕ) = some w197) ∧
      (w197.live = true) ∧
      (w197.msc.pfq = [((1 : LineAddr), Cls.q)]) ∧
      (w197.ident.adoptStall = false) ∧
      (w196.eg.drainReq = false) ∧
      (w197.poolUsed Pool.shared + w197.creditsOf Pool.shared ≤ (128 : ℕ)) ∧
      (w197.holdFree = true)) ∧
    ((up.slice (0 : ℕ) = some (sl0 (0 : ℕ))) ∧
      ((sl0 (0 : ℕ)).live = true) ∧
      ((sl0 (0 : ℕ)).msc.pre.busy = false)) ∧
    ((w198.slice (0 : ℕ) = some w199) ∧
      (w199.live = true) ∧
      (w199.msc.pre.busy = true) ∧
      (w199.msc.pre.clearing = none) ∧
      (w199.msc.pre.left = (1 : ℕ) + (1 : ℕ)) ∧
      (w198.homeSlice w199.msc.pre.page = some (0 : ℕ)) ∧
      (w199.msc.pre.lineNo < (63 : ℕ)) ∧
      ((w198.lineEnt w199 (pageLine w199.msc.pre.page w199.msc.pre.lineNo)).near = false)) ∧
    ((w200.slice (0 : ℕ) = some w201) ∧
      (w201.live = true) ∧
      (w201.msc.pre.busy = true) ∧
      (w201.msc.pre.clearing = none) ∧
      (w201.msc.pre.left = (0 : ℕ)) ∧
      (w201.preloading = false)) := by
  and_intros <;> first
    | exact .head _
    | rfl
    | exact ⟨_, _, rfl⟩
    | exact .inl rfl
    | exact ⟨1, _, by decide, by decide, by decide, rfl, rfl⟩
    | exact .inr (.inl (by decide))
    | exact noReturns (by decide)
    | decide
    | exact fun h => absurd h.1 (by decide)
    | simp
    | (intro _ h; cases h)

/-- The hypotheses of AMoveBoundaryStartsTheMoveInEverySlice, one line of conditions for each clause. -/
theorem witness_AMoveBoundaryStartsTheMoveInEverySlice :
    ((State.reset.pins.blkPor = false)) ∧
    ((w202.pins.blkPor = true) ∧
      (w202.pwr.phase = PwrPhase.p2)) ∧
    ((up.pins.blkPor = true) ∧
      (up.pwr.phase ≠ PwrPhase.p2) ∧
      ({ variant := up.variant, pending := up.pending, free := up.free, pins := up.pins, gl := have __src := up.gl; { game := __src.game, gameIgnored := __src.gameIgnored, move := up.gl.move + (1 : BitVec (48 : ℕ)), phase := __src.phase, setupFail := __src.setupFail, serving := __src.serving, blockFailed := __src.blockFailed, reserveUsed := __src.reserveUsed, adopted := __src.adopted, rangeLost := __src.rangeLost, unprotected := __src.unprotected, wayRetired := __src.wayRetired, restartLoss := __src.restartLoss, fallback := __src.fallback, linkFault := __src.linkFault, noReserve := __src.noReserve, blind := __src.blind, sensor := __src.sensor, shrunk := __src.shrunk, latchMaint := __src.latchMaint, latchErr := __src.latchErr, guardCnt := __src.guardCnt, guardLast := __src.guardLast, urCnt := __src.urCnt, commit := __src.commit, anyCommit := __src.anyCommit : Gl }, regs := up.regs, cfg := up.cfg, hostPorts := List.map (fun (h : HostPort) => { linkUp := h.linkUp, inReset := h.inReset, linkDowns := h.linkDowns, egress := h.egress, waiting := h.waiting, errs := h.errs, logged := [], biUnmatched := h.biUnmatched : HostPort }) up.hostPorts, hids := up.hids, agentPorts := up.agentPorts, slices := up.slices, memPorts := up.memPorts, spill := up.spill, cast := up.cast, dir := up.dir, dctl := up.dctl, root := up.root, eg := up.eg, pwr := up.pwr, ld := up.ld, fb := up.fb, net := up.net, ring := up.ring, ringSnoops := up.ringSnoops, ev := have __src := up.ev; { fifo := __src.fifo, lost := __src.lost, lostBit := __src.lostBit, stale := __src.stale, staleHalt := __src.staleHalt, latch := __src.latch, offer := __src.offer, kept := __src.kept, reqLost := __src.reqLost, escLogged := [], poisonDir := (0 : ℕ) : Events } : State }.meshMove.ctlSettle.gl.anyCommit = false)) ∧
    ((w203.pins.blkPor = true) ∧
      (w203.pwr.phase ≠ PwrPhase.p2) ∧
      ({ variant := w203.variant, pending := w203.pending, free := w203.free, pins := w203.pins, gl := have __src := w203.gl; { game := __src.game, gameIgnored := __src.gameIgnored, move := w203.gl.move + (1 : BitVec (48 : ℕ)), phase := __src.phase, setupFail := __src.setupFail, serving := __src.serving, blockFailed := __src.blockFailed, reserveUsed := __src.reserveUsed, adopted := __src.adopted, rangeLost := __src.rangeLost, unprotected := __src.unprotected, wayRetired := __src.wayRetired, restartLoss := __src.restartLoss, fallback := __src.fallback, linkFault := __src.linkFault, noReserve := __src.noReserve, blind := __src.blind, sensor := __src.sensor, shrunk := __src.shrunk, latchMaint := __src.latchMaint, latchErr := __src.latchErr, guardCnt := __src.guardCnt, guardLast := __src.guardLast, urCnt := __src.urCnt, commit := __src.commit, anyCommit := __src.anyCommit : Gl }, regs := w203.regs, cfg := w203.cfg, hostPorts := List.map (fun (h : HostPort) => { linkUp := h.linkUp, inReset := h.inReset, linkDowns := h.linkDowns, egress := h.egress, waiting := h.waiting, errs := h.errs, logged := [], biUnmatched := h.biUnmatched : HostPort }) w203.hostPorts, hids := w203.hids, agentPorts := w203.agentPorts, slices := w203.slices, memPorts := w203.memPorts, spill := w203.spill, cast := w203.cast, dir := w203.dir, dctl := w203.dctl, root := w203.root, eg := w203.eg, pwr := w203.pwr, ld := w203.ld, fb := w203.fb, net := w203.net, ring := w203.ring, ringSnoops := w203.ringSnoops, ev := have __src := w203.ev; { fifo := __src.fifo, lost := __src.lost, lostBit := __src.lostBit, stale := __src.stale, staleHalt := __src.staleHalt, latch := __src.latch, offer := __src.offer, kept := __src.kept, reqLost := __src.reqLost, escLogged := [], poisonDir := (0 : ℕ) : Events } : State }.meshMove.ctlSettle.gl.anyCommit = true)) := by
  and_intros <;> first
    | exact .head _
    | rfl
    | exact ⟨_, _, rfl⟩
    | exact .inl rfl
    | exact ⟨1, _, by decide, by decide, by decide, rfl, rfl⟩
    | exact .inr (.inl (by decide))
    | exact noReturns (by decide)
    | decide
    | exact fun h => absurd h.1 (by decide)
    | simp
    | (intro _ h; cases h)

/-- The hypotheses of AFailedSliceIsReplacedOrLost, one line of conditions for each clause. -/
theorem witness_AFailedSliceIsReplacedOrLost :
    ((w204.slice (0 : ℕ) = some w205) ∧
      (w205.ident.failed = some FailCause.link) ∧
      (w205.ident.isolated = false) ∧
      (w205.ident.role = Role.reserve) ∧
      (∀ r ∈ w204.cast.replays, r.target ≠ (0 : ℕ))) ∧
    ((w206.slice (0 : ℕ) = some w207) ∧
      (w207.ident.failed = some FailCause.link) ∧
      (w207.ident.isolated = false) ∧
      (w207.ident.role = Role.active) ∧
      (w206.buddyOf (0 : ℕ) = none)) ∧
    ((w208.slice (0 : ℕ) = some w207) ∧
      (w207.ident.failed = some FailCause.link) ∧
      (w207.ident.isolated = false) ∧
      (w207.ident.role = Role.active) ∧
      (w207.ident.unprot = false) ∧
      (w208.buddyOf (0 : ℕ) = some (1 : ℕ)) ∧
      (w208.castleLive (1 : ℕ) = true) ∧
      (w208.cast.replays = []) ∧
      ((w208.landUpdates (0 : ℕ) (1 : ℕ)).slice (1 : ℕ) = some (sl0 (1 : ℕ))) ∧
      ((sl0 (1 : ℕ)).obs.errs = []) ∧
      ((w208.landUpdates (0 : ℕ) (1 : ℕ)).reserveFree = some (16 : ℕ))) ∧
    ((w209.slice (0 : ℕ) = some w207) ∧
      (w207.ident.failed = some FailCause.link) ∧
      (w207.ident.isolated = false) ∧
      (w207.ident.role = Role.active) ∧
      (w207.ident.unprot = false) ∧
      (w209.buddyOf (0 : ℕ) = some (1 : ℕ)) ∧
      (w209.castleLive (1 : ℕ) = true) ∧
      (w209.cast.replays = []) ∧
      ((w209.landUpdates (0 : ℕ) (1 : ℕ)).slice (1 : ℕ) = some (sl0 (1 : ℕ))) ∧
      ((sl0 (1 : ℕ)).obs.errs = []) ∧
      ((w209.landUpdates (0 : ℕ) (1 : ℕ)).reserveFree = none)) ∧
    ((w209.slice (0 : ℕ) = some w207) ∧
      (w207.ident.failed = some FailCause.link) ∧
      (w207.ident.isolated = false) ∧
      (BitVec.toNat (0 : BitVec (4 : ℕ)) ≠ FailCause.link.code)) := by
  and_intros <;> first
    | exact .head _
    | rfl
    | exact ⟨_, _, rfl⟩
    | exact .inl rfl
    | exact ⟨1, _, by decide, by decide, by decide, rfl, rfl⟩
    | exact .inr (.inl (by decide))
    | exact noReturns (by decide)
    | decide
    | exact fun h => absurd h.1 (by decide)
    | simp
    | (intro _ h; cases h)

/-- The hypotheses of ReplaysPlaceTheirItemsInOrder, one line of conditions for each clause. -/
theorem witness_ReplaysPlaceTheirItemsInOrder :
    ((up.slice (0 : ℕ) = some (sl0 (0 : ℕ))) ∧
      ((sl0 (0 : ℕ)).live = true) ∧
      (∀ r ∈ up.cast.replays, r.target ≠ (0 : ℕ))) ∧
    ((w210.slice (0 : ℕ) = some (sl0 (0 : ℕ))) ∧
      (w210.cast.replays = [w211]) ∧
      (w211.target = (0 : ℕ)) ∧
      (w211.adoption = false) ∧
      (w210.castleLive (0 : ℕ) = true) ∧
      (w210.castleLive w211.buddy = true) ∧
      ((w210.busBeat w211.buddy).2 = false) ∧
      (w211.items = [RItem.wpq (3 : ℕ) { line := (0 : LineAddr), data := (7 : Line), nib := (0 : Nib), poison := false : MirLine }])) ∧
    ((w212.slice (0 : ℕ) = some (sl0 (0 : ℕ))) ∧
      (w212.cast.replays = [w213]) ∧
      (w213.target = (0 : ℕ)) ∧
      (w213.adoption = false) ∧
      (w212.castleLive (0 : ℕ) = true) ∧
      (w212.castleLive w213.buddy = true) ∧
      ((w212.busBeat w213.buddy).2 = false) ∧
      (w213.items = [RItem.hold { num := (0 : ℕ), req := q0, order := (0 : ℕ), behind := (0 : ℕ) : HoldEnt }])) ∧
    ((w214.slice (0 : ℕ) = some (sl0 (0 : ℕ))) ∧
      (w214.cast.replays = [w215]) ∧
      (w215.target = (0 : ℕ)) ∧
      (w215.adoption = false) ∧
      (w214.castleLive (0 : ℕ) = true) ∧
      (w214.castleLive w215.buddy = true) ∧
      ((w214.busBeat w215.buddy).2 = false) ∧
      (w215.items = [RItem.replayEnd])) ∧
    ((w216.slice (0 : ℕ) = some (sl0 (0 : ℕ))) ∧
      (w216.cast.replays = [w217]) ∧
      (w217.target = (0 : ℕ)) ∧
      (w217.adoption = true) ∧
      (w217.items = [RItem.wpq (3 : ℕ) { line := (0 : LineAddr), data := (7 : Line), nib := (0 : Nib), poison := false : MirLine }]) ∧
      (w216.castleLive (0 : ℕ) = true) ∧
      ((sl0 (0 : ℕ)).wpqFits { line := (0 : LineAddr), data := (7 : Line), nib := (0 : Nib), poison := false : MirLine }.line = true)) ∧
    ((w218.slice (0 : ℕ) = some w219) ∧
      (w218.cast.replays = [w217]) ∧
      (w217.target = (0 : ℕ)) ∧
      (w217.adoption = true) ∧
      (w217.items = [RItem.wpq (3 : ℕ) { line := (0 : LineAddr), data := (7 : Line), nib := (0 : Nib), poison := false : MirLine }]) ∧
      (w218.castleLive (0 : ℕ) = true) ∧
      (w219.wpqFits { line := (0 : LineAddr), data := (7 : Line), nib := (0 : Nib), poison := false : MirLine }.line = false)) ∧
    ((w220.slice (0 : ℕ) = some w221) ∧
      (w220.buddyOf (0 : ℕ) = some (1 : ℕ)) ∧
      (w220.slice (1 : ℕ) = some (sl0 (1 : ℕ))) ∧
      ((sl0 (1 : ℕ)).ident.role = Role.active) ∧
      ((sl0 (1 : ℕ)).ident.adoptStall = false) ∧
      ((sl0 (1 : ℕ)).obs.errs = []) ∧
      (w220.cast.linkFailed[w220.channelOf (0 : ℕ)]?.getD false = false) ∧
      (w221.ident.unprot = true) ∧
      (w220.castleLive (0 : ℕ) = true) ∧
      (w220.castleLive (1 : ℕ) = true) ∧
      (w221.ident.role ≠ Role.adopting) ∧
      (w221.ident.adoptStall = false)) ∧
    ((up.slice (0 : ℕ) = some (sl0 (0 : ℕ))) ∧
      ((sl0 (0 : ℕ)).ident.unprot = false)) := by
  and_intros <;> first
    | exact .head _
    | rfl
    | exact ⟨_, _, rfl⟩
    | exact .inl rfl
    | exact ⟨1, _, by decide, by decide, by decide, rfl, rfl⟩
    | exact .inr (.inl (by decide))
    | exact noReturns (by decide)
    | decide
    | exact fun h => absurd h.1 (by decide)
    | simp
    | (intro _ h; cases h)

/-- The hypotheses of PromotionsAndQuiescedMoves, one line of conditions for each clause. -/
theorem witness_PromotionsAndQuiescedMoves :
    (((upDN dNear [NMsg.promo (0 : ℕ) (0 : Page)]).chunkIn (0 : Page) = true) ∧
      ((upDN dNear [NMsg.promo (0 : ℕ) (0 : Page)]).net.contains (NMsg.promo (0 : ℕ) (0 : Page)) = true) ∧
      ((upDN dNear [NMsg.promo (0 : ℕ) (0 : Page)]).moveOf (0 : Page) = none) ∧
      (((upDN dNear [NMsg.promo (0 : ℕ) (0 : Page)]).pageEnt (0 : Page)).near = true)) ∧
    (((upDN dFar [NMsg.promo (0 : ℕ) (0 : Page)]).chunkIn (0 : Page) = true) ∧
      ((upDN dFar [NMsg.promo (0 : ℕ) (0 : Page)]).net.contains (NMsg.promo (0 : ℕ) (0 : Page)) = true) ∧
      ((upDN dFar [NMsg.promo (0 : ℕ) (0 : Page)]).moveOf (0 : Page) = none) ∧
      (((upDN dFar [NMsg.promo (0 : ℕ) (0 : Page)]).pageEnt (0 : Page)).near = false) ∧
      ((upDN dFar [NMsg.promo (0 : ℕ) (0 : Page)]).moveRoom = true) ∧
      (((upDN dFar [NMsg.promo (0 : ℕ) (0 : Page)]).takeMsg (NMsg.promo (0 : ℕ) (0 : Page))).takeFrame (0 : Page) (255 : BitVec (8 : ℕ)) = some (w222, w223)) ∧
      ((w223.newMove (0 : Page) MoveKind.demandPromotion MoveStage.copy [(0 : ℕ)] w222 false).moveOf (0 : Page) = some w224)) ∧
    ((w225.chunkIn (0 : Page) = true) ∧
      (w225.net.contains (NMsg.promo (0 : ℕ) (0 : Page)) = true) ∧
      (w225.moveOf (0 : Page) = none) ∧
      ((w225.pageEnt (0 : Page)).near = false) ∧
      (w225.moveRoom = true) ∧
      ((w225.takeMsg (NMsg.promo (0 : ℕ) (0 : Page))).takeFrame (0 : Page) (255 : BitVec (8 : ℕ)) = none)) ∧
    ((w226.chunkIn (0 : Page) = true) ∧
      (w226.net.contains (NMsg.promo (0 : ℕ) (0 : Page)) = true) ∧
      (w226.moveOf (0 : Page) = none) ∧
      ((w226.pageEnt (0 : Page)).near = false) ∧
      (w226.moveRoom = false)) ∧
    (((upMv dFar MoveKind.demandPromotion MoveStage.copy [NMsg.promo (0 : ℕ) (0 : Page)]).chunkIn (0 : Page) = true) ∧
      ((upMv dFar MoveKind.demandPromotion MoveStage.copy [NMsg.promo (0 : ℕ) (0 : Page)]).net.contains (NMsg.promo (0 : ℕ) (0 : Page)) = true) ∧
      ((upMv dFar MoveKind.demandPromotion MoveStage.copy [NMsg.promo (0 : ℕ) (0 : Page)]).moveOf (0 : Page) = some (mv MoveKind.demandPromotion MoveStage.copy)) ∧
      ((mv MoveKind.demandPromotion MoveStage.copy).kind = MoveKind.demandPromotion ∨ (mv MoveKind.demandPromotion MoveStage.copy).kind = MoveKind.hintPromotion)) ∧
    (((upMv dNear MoveKind.demotion MoveStage.quiesce [NMsg.promo (0 : ℕ) (0 : Page)]).chunkIn (0 : Page) = true) ∧
      ((upMv dNear MoveKind.demotion MoveStage.quiesce [NMsg.promo (0 : ℕ) (0 : Page)]).net.contains (NMsg.promo (0 : ℕ) (0 : Page)) = true) ∧
      ((upMv dNear MoveKind.demotion MoveStage.quiesce [NMsg.promo (0 : ℕ) (0 : Page)]).moveOf (0 : Page) = some (mv MoveKind.demotion MoveStage.quiesce)) ∧
      ((mv MoveKind.demotion MoveStage.quiesce).kind = MoveKind.demotion ∨ (mv MoveKind.demotion MoveStage.quiesce).kind = MoveKind.slotEviction)) ∧
    ((w227.moveOf (0 : Page) = some w228) ∧
      (w227.net.contains (NMsg.dack (0 : ℕ) (0 : Page)) = true) ∧
      (w228.stage = MoveStage.quiesce) ∧
      (w228.aborted = true)) ∧
    ((w229.moveOf (0 : Page) = some (mv MoveKind.demotion MoveStage.quiesce)) ∧
      (w229.net.contains (NMsg.dack (0 : ℕ) (0 : Page)) = true) ∧
      ((mv MoveKind.demotion MoveStage.quiesce).stage = MoveStage.quiesce) ∧
      ((mv MoveKind.demotion MoveStage.quiesce).aborted = false) ∧
      ((mv MoveKind.demotion MoveStage.quiesce).kind = MoveKind.demotion) ∧
      (w229.pdCompEnable = true) ∧
      (((w229.takeMsg (NMsg.dack (0 : ℕ) (0 : Page))).modMove (0 : Page) fun (x : Move) => { page := x.page, kind := x.kind, stage := x.stage, askers := x.askers, frame := x.frame, slot := x.slot, ctag := x.ctag, tables := x.tables, dacked := true, toPersist := x.toPersist, poisonAll := x.poisonAll, len := x.len, forced := x.forced, aborted := x.aborted : Move }).poolOk (((w229.takeMsg (NMsg.dack (0 : ℕ) (0 : Page))).modMove (0 : Page) fun (x : Move) => { page := x.page, kind := x.kind, stage := x.stage, askers := x.askers, frame := x.frame, slot := x.slot, ctag := x.ctag, tables := x.tables, dacked := true, toPersist := x.toPersist, poisonAll := x.poisonAll, len := x.len, forced := x.forced, aborted := x.aborted : Move }).expectedPool (0 : Page)) = true)) ∧
    ((w230.moveOf (0 : Page) = some (mv MoveKind.demotion MoveStage.quiesce)) ∧
      (w230.net.contains (NMsg.dack (0 : ℕ) (0 : Page)) = true) ∧
      ((mv MoveKind.demotion MoveStage.quiesce).stage = MoveStage.quiesce) ∧
      ((mv MoveKind.demotion MoveStage.quiesce).aborted = false) ∧
      ((mv MoveKind.demotion MoveStage.quiesce).kind = MoveKind.demotion) ∧
      (w230.pdCompEnable = false)) ∧
    (((upMv dNear MoveKind.hintPromotion MoveStage.quiesce [NMsg.dack (0 : ℕ) (0 : Page)]).moveOf (0 : Page) = some (mv MoveKind.hintPromotion MoveStage.quiesce)) ∧
      ((upMv dNear MoveKind.hintPromotion MoveStage.quiesce [NMsg.dack (0 : ℕ) (0 : Page)]).net.contains (NMsg.dack (0 : ℕ) (0 : Page)) = true) ∧
      ((mv MoveKind.hintPromotion MoveStage.quiesce).stage = MoveStage.quiesce) ∧
      ((mv MoveKind.hintPromotion MoveStage.quiesce).aborted = false) ∧
      ((mv MoveKind.hintPromotion MoveStage.quiesce).kind = MoveKind.hintPromotion) ∧
      (((upMv dNear MoveKind.hintPromotion MoveStage.quiesce [NMsg.dack (0 : ℕ) (0 : Page)]).pageEnt (0 : Page)).near = true)) ∧
    (((upMv dFar MoveKind.hintPromotion MoveStage.quiesce [NMsg.dack (0 : ℕ) (0 : Page)]).moveOf (0 : Page) = some (mv MoveKind.hintPromotion MoveStage.quiesce)) ∧
      ((upMv dFar MoveKind.hintPromotion MoveStage.quiesce [NMsg.dack (0 : ℕ) (0 : Page)]).net.contains (NMsg.dack (0 : ℕ) (0 : Page)) = true) ∧
      ((mv MoveKind.hintPromotion MoveStage.quiesce).stage = MoveStage.quiesce) ∧
      ((mv MoveKind.hintPromotion MoveStage.quiesce).aborted = false) ∧
      ((mv MoveKind.hintPromotion MoveStage.quiesce).kind = MoveKind.hintPromotion) ∧
      (((upMv dFar MoveKind.hintPromotion MoveStage.quiesce [NMsg.dack (0 : ℕ) (0 : Page)]).pageEnt (0 : Page)).near = false)) ∧
    ((w231.moveOf (0 : Page) = some w232) ∧
      (w231.net.contains (NMsg.dnote (0 : ℕ) (0 : Page)) = true) ∧
      (w232.kind = MoveKind.demotion) ∧
      (w232.dacked = true) ∧
      (w232.aborted = false) ∧
      (w232.stage ≠ MoveStage.compress)) ∧
    ((w233.moveOf (0 : Page) = some w234) ∧
      (w233.net.contains (NMsg.dnote (0 : ℕ) (0 : Page)) = true) ∧
      (w234.kind = MoveKind.demotion) ∧
      (w234.dacked = true) ∧
      (w234.aborted = false) ∧
      (w234.stage = MoveStage.compress)) ∧
    (((upMv dFar MoveKind.demandPromotion MoveStage.copy [NMsg.dnote (0 : ℕ) (0 : Page)]).moveOf (0 : Page) = some (mv MoveKind.demandPromotion MoveStage.copy)) ∧
      ((upMv dFar MoveKind.demandPromotion MoveStage.copy [NMsg.dnote (0 : ℕ) (0 : Page)]).net.contains (NMsg.dnote (0 : ℕ) (0 : Page)) = true) ∧
      ((mv MoveKind.demandPromotion MoveStage.copy).kind ≠ MoveKind.demotion ∨ (mv MoveKind.demandPromotion MoveStage.copy).dacked = false)) := by
  and_intros <;> first
    | exact .head _
    | rfl
    | exact ⟨_, _, rfl⟩
    | exact .inl rfl
    | exact ⟨1, _, by decide, by decide, by decide, rfl, rfl⟩
    | exact .inr (.inl (by decide))
    | exact noReturns (by decide)
    | decide
    | exact fun h => absurd h.1 (by decide)
    | simp
    | (intro _ h; cases h)

/-- The hypotheses of DirtyMarksAndCleaning, one line of conditions for each clause. -/
theorem witness_DirtyMarksAndCleaning :
    (((upDN dDirty [NMsg.mark (0 : ℕ) (0 : Page)]).net.contains (NMsg.mark (0 : ℕ) (0 : Page)) = true) ∧
      (((upDN dDirty [NMsg.mark (0 : ℕ) (0 : Page)]).pageEnt (0 : Page)).dirty = true)) ∧
    ((w235.net.contains (NMsg.mark (0 : ℕ) (0 : Page)) = true) ∧
      ((w235.pageEnt (0 : Page)).dirty = false) ∧
      (∃ c ∈ w235.dir.cleaning, c.page = (0 : Page))) ∧
    ((w236.net.contains (NMsg.mark (0 : ℕ) (0 : Page)) = true) ∧
      ((w236.pageEnt (0 : Page)).dirty = false) ∧
      (∀ c ∈ w236.dir.cleaning, c.page ≠ (0 : Page)) ∧
      (w236.dir.d < w236.budgetPages) ∧
      (w236.dir.marks = []) ∧
      (w236.entFrame (w236.pageEnt (0 : Page)) = some (0 : ℕ))) ∧
    (((upDN dNear [NMsg.mark (0 : ℕ) (0 : Page)]).net.contains (NMsg.mark (0 : ℕ) (0 : Page)) = true) ∧
      (((upDN dNear [NMsg.mark (0 : ℕ) (0 : Page)]).pageEnt (0 : Page)).dirty = false) ∧
      (∀ c ∈ (upDN dNear [NMsg.mark (0 : ℕ) (0 : Page)]).dir.cleaning, c.page ≠ (0 : Page)) ∧
      ((upDN dNear [NMsg.mark (0 : ℕ) (0 : Page)]).budgetPages ≤ (upDN dNear [NMsg.mark (0 : ℕ) (0 : Page)]).dir.d ∨ (upDN dNear [NMsg.mark (0 : ℕ) (0 : Page)]).dir.marks ≠ [])) ∧
    ((w237.dir.marks = [((0 : ℕ), (0 : Page))]) ∧
      ((w237.pageEnt (0 : Page)).dirty = true)) ∧
    ((w238.dir.marks = [((0 : ℕ), (0 : Page))]) ∧
      ((w238.pageEnt (0 : Page)).dirty = false) ∧
      (w238.dir.d < w238.budgetPages) ∧
      (w238.entFrame (w238.pageEnt (0 : Page)) = some (0 : ℕ))) ∧
    ((w239.dir.marks = [((0 : ℕ), (0 : Page))]) ∧
      ((w239.pageEnt (0 : Page)).dirty = false) ∧
      (w239.budgetPages ≤ w239.dir.d)) ∧
    (((upDN dDirty []).cleaningWanted = true) ∧
      ((upDN dDirty []).movesOpen = true) ∧
      ((upDN dDirty []).dir.cleaning = []) ∧
      ((upDN dDirty []).pdMoves ≠ (0 : ℕ)) ∧
      ((upDN dDirty []).dir.dirtyFrames = [(0 : ℕ)]) ∧
      (kget (0 : ℕ) (upDN dDirty []).dir.frames = some { page := (0 : Page), heat := (0 : BitVec (8 : ℕ)) : FrameEnt }) ∧
      (((upDN dDirty []).frameOwned 0 ⟨0, 0⟩ = true → ((upDN dDirty []).pageEnt 0).kpin = false ∧ (upDN dDirty []).moveOf 0 = none)) ∧
      ((cleaningRead (upDN dDirty [])).frameOwned 0 ⟨0, 0⟩ = true) ∧
      ((cleaningRead (upDN dDirty [])).homeSlice 0 = some 0)) ∧
    (((badEnt (upDN dDirty [])).cleaningWanted = true) ∧
      ((badEnt (upDN dDirty [])).movesOpen = true) ∧
      ((badEnt (upDN dDirty [])).dir.cleaning = []) ∧
      ((badEnt (upDN dDirty [])).pdMoves ≠ (0 : ℕ)) ∧
      ((badEnt (upDN dDirty [])).dir.dirtyFrames = [(0 : ℕ)]) ∧
      (kget (0 : ℕ) (badEnt (upDN dDirty [])).dir.frames = some { page := (0 : Page), heat := (0 : BitVec (8 : ℕ)) : FrameEnt }) ∧
      (((badEnt (upDN dDirty [])).frameOwned 0 ⟨0, 0⟩ = true → ((badEnt (upDN dDirty [])).pageEnt 0).kpin = false ∧ (badEnt (upDN dDirty [])).moveOf 0 = none)) ∧
      ((cleaningRead (badEnt (upDN dDirty []))).frameOwned 0 ⟨0, 0⟩ = false)) ∧
    ((w240.slice (0 : ℕ) = some w241) ∧
      (w241.live = true) ∧
      (w240.net.contains (NMsg.clean (0 : ℕ) (0 : Page)) = true) ∧
      ((List.filter (fun (x : ℕ × CLine) => x.2.dirty && pageOf x.2.line == (0 : Page)) w241.msc.lines).length + (List.filter (fun (v : VbEnt) => !v.inWpq && pageOf v.cl.line == (0 : Page)) w241.msc.vb).length ≤ w241.wpqRoom) ∧
      ((List.foldl (fun (s : State) (v : VbEnt) => s.victimToWpq (0 : ℕ) v.num) (List.foldl (fun (s : State) (x : ℕ × CLine) => s.writeBack (0 : ℕ) x.1 x.2) ((w240.takeMsg (NMsg.clean (0 : ℕ) (0 : Page))).modSlice (0 : ℕ) fun (x : Slice) => { ident := x.ident, arb := x.arb, trk := x.trk, hold := x.hold, holdSeq := x.holdSeq, dir := x.dir, msc := x.msc, pm := List.map (fun (z : ℕ × PmWay) => if (z.2.page == (0 : Page)) = true then (z.1, have __src := z.2; { page := __src.page, ent := have __src := z.2.ent; { tier := __src.tier, frame := __src.frame, game := __src.game, classPin := __src.classPin, dirty := false, mig := __src.mig, cslot := __src.cslot, rsvd := __src.rsvd : PEnt }, heat := __src.heat : PmWay }) else z) x.pm, pmPlru := x.pmPlru, pmOut := x.pmOut, stamps := x.stamps, marks := x.marks, quiesce := x.quiesce, rspCnt := x.rspCnt, retq := x.retq, sent := x.sent, rereads := x.rereads, mir := x.mir, blind := x.blind, obs := x.obs : Slice }) (List.filter (fun (x : ℕ × CLine) => x.2.dirty && pageOf x.2.line == (0 : Page)) w241.msc.lines)) (List.filter (fun (v : VbEnt) => !v.inWpq && pageOf v.cl.line == (0 : Page)) w241.msc.vb)).slice (0 : ℕ) = some w242)) ∧
    ((w243.slice (0 : ℕ) = some w244) ∧
      (w244.live = true) ∧
      (w243.net.contains (NMsg.clean (0 : ℕ) (0 : Page)) = true) ∧
      (w244.wpqRoom < (List.filter (fun (x : ℕ × CLine) => x.2.dirty && pageOf x.2.line == (0 : Page)) w244.msc.lines).length + (List.filter (fun (v : VbEnt) => !v.inWpq && pageOf v.cl.line == (0 : Page)) w244.msc.vb).length)) ∧
    ((w245.net.contains (NMsg.cleanAck (0 : ℕ) (0 : Page)) = true) ∧
      (w245.dir.cleaning = [{ page := (0 : Page), frame := (0 : ℕ), copying := false, ctag := (5 : ℕ), remarked := false : Cleaning }]) ∧
      ({ page := (0 : Page), frame := (0 : ℕ), copying := false, ctag := (5 : ℕ), remarked := false : Cleaning }.page = (0 : Page)) ∧
      ({ page := (0 : Page), frame := (0 : ℕ), copying := false, ctag := (5 : ℕ), remarked := false : Cleaning }.copying = false)) ∧
    (((5 : ℕ) < (256 : ℕ)) ∧
      (w246.teCmd (5 : ℕ) = some { ctag := (5 : ℕ), op := TeOp.copyToPersist (0 : ℕ) (0 : ℕ), use := PerUse.none : TeCmd }) ∧
      (w246.dir.cleaning = [{ page := (0 : Page), frame := (0 : ℕ), copying := true, ctag := (5 : ℕ), remarked := false : Cleaning }]) ∧
      ({ page := (0 : Page), frame := (0 : ℕ), copying := true, ctag := (5 : ℕ), remarked := false : Cleaning }.copying = true) ∧
      ({ page := (0 : Page), frame := (0 : ℕ), copying := true, ctag := (5 : ℕ), remarked := false : Cleaning }.ctag = (5 : ℕ)) ∧
      ((0 : BitVec (4 : ℕ)) = (0 : BitVec (4 : ℕ))) ∧
      ({ page := (0 : Page), frame := (0 : ℕ), copying := true, ctag := (5 : ℕ), remarked := false : Cleaning }.remarked = false)) ∧
    (((5 : ℕ) < (256 : ℕ)) ∧
      (w247.teCmd (5 : ℕ) = some { ctag := (5 : ℕ), op := TeOp.copyToPersist (0 : ℕ) (0 : ℕ), use := PerUse.none : TeCmd }) ∧
      (w247.dir.cleaning = [{ page := (0 : Page), frame := (0 : ℕ), copying := true, ctag := (5 : ℕ), remarked := true : Cleaning }]) ∧
      ({ page := (0 : Page), frame := (0 : ℕ), copying := true, ctag := (5 : ℕ), remarked := true : Cleaning }.copying = true) ∧
      ({ page := (0 : Page), frame := (0 : ℕ), copying := true, ctag := (5 : ℕ), remarked := true : Cleaning }.ctag = (5 : ℕ)) ∧
      ((0 : BitVec (4 : ℕ)) = (0 : BitVec (4 : ℕ))) ∧
      ({ page := (0 : Page), frame := (0 : ℕ), copying := true, ctag := (5 : ℕ), remarked := true : Cleaning }.remarked = true)) ∧
    (((5 : ℕ) < (256 : ℕ)) ∧
      (w246.teCmd (5 : ℕ) = some { ctag := (5 : ℕ), op := TeOp.copyToPersist (0 : ℕ) (0 : ℕ), use := PerUse.none : TeCmd }) ∧
      (w246.dir.cleaning = [{ page := (0 : Page), frame := (0 : ℕ), copying := true, ctag := (5 : ℕ), remarked := false : Cleaning }]) ∧
      ({ page := (0 : Page), frame := (0 : ℕ), copying := true, ctag := (5 : ℕ), remarked := false : Cleaning }.copying = true) ∧
      ({ page := (0 : Page), frame := (0 : ℕ), copying := true, ctag := (5 : ℕ), remarked := false : Cleaning }.ctag = (5 : ℕ)) ∧
      ((4 : BitVec (4 : ℕ)) ≠ (0 : BitVec (4 : ℕ))) ∧
      (({ (w246.teFree 5).teStatus 4 with dir := { ((w246.teFree 5).teStatus 4).dir with cleaning := [] } } : State).entBad 0 = false)) ∧
    (((5 : ℕ) < (256 : ℕ)) ∧
      ((badEnt w246).teCmd (5 : ℕ) = some { ctag := (5 : ℕ), op := TeOp.copyToPersist (0 : ℕ) (0 : ℕ), use := PerUse.none : TeCmd }) ∧
      ((badEnt w246).dir.cleaning = [{ page := (0 : Page), frame := (0 : ℕ), copying := true, ctag := (5 : ℕ), remarked := false : Cleaning }]) ∧
      ({ page := (0 : Page), frame := (0 : ℕ), copying := true, ctag := (5 : ℕ), remarked := false : Cleaning }.copying = true) ∧
      ({ page := (0 : Page), frame := (0 : ℕ), copying := true, ctag := (5 : ℕ), remarked := false : Cleaning }.ctag = (5 : ℕ)) ∧
      ((4 : BitVec (4 : ℕ)) ≠ (0 : BitVec (4 : ℕ))) ∧
      (({ ((badEnt w246).teFree 5).teStatus 4 with dir := { (((badEnt w246).teFree 5).teStatus 4).dir with cleaning := [] } } : State).entBad 0 = true)) := by
  and_intros <;> first
    | exact .head _
    | rfl
    | exact ⟨_, _, rfl⟩
    | exact .inl rfl
    | exact ⟨1, _, by decide, by decide, by decide, rfl, rfl⟩
    | exact .inr (.inl (by decide))
    | exact noReturns (by decide)
    | decide
    | exact fun h => absurd h.1 (by decide)
    | simp
    | (intro _ h; cases h)

/-- The hypotheses of StampsHeatAndPageMapCopies, one line of conditions for each clause. -/
theorem witness_StampsHeatAndPageMapCopies :
    (((upDN dNear [NMsg.stamp (0 : ℕ) (0 : Page)]).net.contains (NMsg.stamp (0 : ℕ) (0 : Page)) = true)) ∧
    (((upDN dNear [NMsg.heat (0 : ℕ) (0 : Page) (9 : BitVec (8 : ℕ))]).net.contains (NMsg.heat (0 : ℕ) (0 : Page) (9 : BitVec (8 : ℕ))) = true) ∧
      ((upDN dNear [NMsg.heat (0 : ℕ) (0 : Page) (9 : BitVec (8 : ℕ))]).entFrame ((upDN dNear [NMsg.heat (0 : ℕ) (0 : Page) (9 : BitVec (8 : ℕ))]).pageEnt (0 : Page)) = some (0 : ℕ))) ∧
    ((w248.dctl.decayDue = false)) ∧
    ((upDue.dctl.decayDue = true)) ∧
    ((w248.slice (0 : ℕ) = some w249) ∧
      (w248.chunkIn (0 : Page) = true) ∧
      (w248.net.contains (NMsg.pmRead (0 : ℕ) (0 : Page)) = true) ∧
      (w249.live = true) ∧
      (List.find? (fun (x : Page × Bool) => x.1 == (0 : Page)) w249.pmOut = some ((0 : Page), true)) ∧
      (true = true)) ∧
    ((w250.slice (0 : ℕ) = some w251) ∧
      (w250.chunkIn (0 : Page) = true) ∧
      (w250.net.contains (NMsg.pmRead (0 : ℕ) (0 : Page)) = true) ∧
      (w251.live = true) ∧
      (List.find? (fun (x : Page × Bool) => x.1 == (0 : Page)) w251.pmOut = some ((0 : Page), false)) ∧
      (false = false) ∧
      (w250.entBad (0 : Page) = false) ∧
      (w251.pmWay (0 : Page) = some (0 : ℕ))) ∧
    (((upDN dNear [NMsg.entry (0 : Page)]).slice (0 : ℕ) = some (sl0 (0 : ℕ))) ∧
      ((upDN dNear [NMsg.entry (0 : Page)]).net.contains (NMsg.entry (0 : Page)) = true) ∧
      ((upDN dNear [NMsg.entry (0 : Page)]).homeSlice (0 : Page) = some (0 : ℕ))) := by
  and_intros <;> first
    | exact .head _
    | rfl
    | exact ⟨_, _, rfl⟩
    | exact .inl rfl
    | exact ⟨1, _, by decide, by decide, by decide, rfl, rfl⟩
    | exact .inr (.inl (by decide))
    | exact noReturns (by decide)
    | decide
    | exact fun h => absurd h.1 (by decide)
    | simp
    | (intro _ h; cases h)

/-- The hypotheses of ClocksSweeperAndChunks, one line of conditions for each clause. -/
theorem witness_ClocksSweeperAndChunks :
    (((4096 : ℕ) * w252.pdFreeLow ≤ w252.freeFrames) ∧
      ((4096 : ℕ) * w252.pdFreeHigh ≤ w252.freeFrames)) ∧
    (((0 : ℕ) < (3 : ℕ)) ∧
      ((16777216 : ℕ) * w253.pdCFreeLow ≤ w253.freeSlots (0 : ℕ) * poolSlot (0 : ℕ)) ∧
      ((16777216 : ℕ) * w253.pdCFreeHigh ≤ w253.freeSlots (0 : ℕ) * poolSlot (0 : ℕ))) ∧
    (((0 : ℕ) < (3 : ℕ)) ∧
      (w254.freeSlots (0 : ℕ) * poolSlot (0 : ℕ) < (16777216 : ℕ) * w254.pdCFreeLow) ∧
      (w254.movesOpen = true) ∧
      (w254.moveRoom = true) ∧
      (rotateFrom (w254.usedSlots (0 : ℕ)) (w254.dir.slotClocks.getD (0 : ℕ) (0 : ℕ)) = [((0 : ℕ), { page := (0 : Page), heat := (0 : BitVec (8 : ℕ)) : FrameEnt })]) ∧
      (∀ z ∈ [((0 : ℕ), { page := (0 : Page), heat := (0 : BitVec (8 : ℕ)) : FrameEnt })], w254.slotOwned z.1 z.2 = true) ∧
      (w254.moveOf { page := (0 : Page), heat := (0 : BitVec (8 : ℕ)) : FrameEnt }.page = none) ∧
      ((w254.homeSlice { page := (0 : Page), heat := (0 : BitVec (8 : ℕ)) : FrameEnt }.page).isSome = true) ∧
      ((w254.pageEnt { page := (0 : Page), heat := (0 : BitVec (8 : ℕ)) : FrameEnt }.page).dirty = false)) ∧
    (((badEnt w255).freeFrames < 4096 * (badEnt w255).pdFreeLow) ∧
      ((badEnt w255).movesOpen = true) ∧
      (rotateFrom (badEnt w255).dir.frames (badEnt w255).dir.demClock = [(0, ⟨0, 9⟩)]) ∧
      ((clockRead (badEnt w255)).frameOwned 0 ⟨0, 9⟩ = false)) ∧
    ((w255s.freeFrames < 4096 * w255s.pdFreeLow) ∧
      (w255s.movesOpen = true) ∧
      (rotateFrom w255s.dir.frames w255s.dir.demClock = [(0, ⟨0, 9⟩)]) ∧
      ((clockRead w255s).frameOwned 0 ⟨0, 9⟩ = true) ∧
      ((clockRead w255s).clockSkips ⟨0, 9⟩ = true)) ∧
    ((w255.freeFrames < 4096 * w255.pdFreeLow) ∧
      (w255.movesOpen = true) ∧
      (rotateFrom w255.dir.frames w255.dir.demClock = [(0, ⟨0, 9⟩)]) ∧
      ((clockRead w255).frameOwned 0 ⟨0, 9⟩ = true) ∧
      ((clockRead w255).clockSkips ⟨0, 9⟩ = false) ∧
      (w255.pdCold < (9 : BitVec 8).toNat)) ∧
    ((w256.freeFrames < 4096 * w256.pdFreeLow) ∧
      (w256.movesOpen = true) ∧
      (rotateFrom w256.dir.frames w256.dir.demClock = [(0, ⟨0, 0⟩)]) ∧
      ((clockRead w256).frameOwned 0 ⟨0, 0⟩ = true) ∧
      ((clockRead w256).clockSkips ⟨0, 0⟩ = false) ∧
      ((0 : BitVec 8).toNat ≤ w256.pdCold) ∧
      (w256.moveRoom = true) ∧
      ((clockRead w256).homeSlice 0 = some 0)) ∧
    ((w257.pagesEnd = (0 : ℕ) ∨ w257.dctl.sweepDue = false)) ∧
    ((w258.pagesEnd = (0 : ℕ) ∨ w258.dctl.sweepDue = false)) ∧
    ((upDue.pagesEnd ≠ (0 : ℕ)) ∧
      (upDue.dctl.sweepDue = true)) ∧
    ((w259.gl.phase = (4 : BitVec (3 : ℕ)) ∨ w259.gl.phase = (5 : BitVec (3 : ℕ))) ∧
      ((0 : ℕ) < w259.chunkCount) ∧
      (kget (0 : ℕ) w259.dir.loaded = none) ∧
      (w259.chunkTurn (0 : ℕ) = true)) ∧
    (((kget (0 : ℕ) (upDN dNear []).dir.loaded).isSome = true ∨ (upDN dNear []).chunkTurn (0 : ℕ) = false)) ∧
    (((kget (1 : ℕ) w259.dir.loaded).isSome = true ∨ w259.chunkTurn (1 : ℕ) = false)) := by
  and_intros <;> first
    | exact .head _
    | rfl
    | exact ⟨_, _, rfl⟩
    | exact .inl rfl
    | exact ⟨1, _, by decide, by decide, by decide, rfl, rfl⟩
    | exact .inr (.inl (by decide))
    | exact noReturns (by decide)
    | decide
    | exact fun h => absurd h.1 (by decide)
    | simp
    | (intro _ h; cases h)

/-- The hypotheses of EngineResponsesFinishTheirMove, one line of conditions for each clause. -/
theorem witness_EngineResponsesFinishTheirMove :
    (((5 : ℕ) < (256 : ℕ)) ∧
      (w260.teCmd (5 : ℕ) = some { ctag := (5 : ℕ), op := TeOp.copyToFrame (0 : ℕ) (0 : ℕ) (0 : BitVec (64 : ℕ)) (0 : BitVec (2 : ℕ)) false, use := PerUse.none : TeCmd } ∨ w260.teCmd (5 : ℕ) = some { ctag := (5 : ℕ), op := TeOp.decompToFrame (0 : ℕ) (0 : BitVec (2 : ℕ)) (0 : ℕ) (0 : BitVec (64 : ℕ)) (0 : BitVec (2 : ℕ)) false, use := PerUse.none : TeCmd }) ∧
      (w260.moveByTag (5 : ℕ) [MoveStage.copy] = some w261) ∧
      (w261.aborted = true)) ∧
    (((5 : ℕ) < (256 : ℕ)) ∧
      (w262.teCmd (5 : ℕ) = some { ctag := (5 : ℕ), op := TeOp.copyToFrame (0 : ℕ) (0 : ℕ) (0 : BitVec (64 : ℕ)) (0 : BitVec (2 : ℕ)) false, use := PerUse.none : TeCmd } ∨ w262.teCmd (5 : ℕ) = some { ctag := (5 : ℕ), op := TeOp.decompToFrame (0 : ℕ) (0 : BitVec (2 : ℕ)) (0 : ℕ) (0 : BitVec (64 : ℕ)) (0 : BitVec (2 : ℕ)) false, use := PerUse.none : TeCmd }) ∧
      (w262.moveByTag (5 : ℕ) [MoveStage.copy] = some (mv5 MoveKind.demandPromotion MoveStage.copy)) ∧
      ((mv5 MoveKind.demandPromotion MoveStage.copy).aborted = false) ∧
      ((0 : BitVec (4 : ℕ)) = (0 : BitVec (4 : ℕ))) ∧
      ((mv5 MoveKind.demandPromotion MoveStage.copy).poisonAll = false) ∧
      (((w262.teFree (5 : ℕ)).teStatus (0 : BitVec (4 : ℕ))).entSlot (((w262.teFree (5 : ℕ)).teStatus (0 : BitVec (4 : ℕ))).pageEnt (mv5 MoveKind.demandPromotion MoveStage.copy).page) = none)) ∧
    (((5 : ℕ) < (256 : ℕ)) ∧
      (w263.teCmd (5 : ℕ) = some { ctag := (5 : ℕ), op := TeOp.compress (0 : ℕ) (0 : BitVec (2 : ℕ)) (0 : ℕ), use := PerUse.none : TeCmd }) ∧
      (w263.moveByTag (5 : ℕ) [MoveStage.compress] = some w264) ∧
      (w264.aborted = true)) ∧
    (((5 : ℕ) < (256 : ℕ)) ∧
      (w265.teCmd (5 : ℕ) = some { ctag := (5 : ℕ), op := TeOp.compress (0 : ℕ) (0 : BitVec (2 : ℕ)) (0 : ℕ), use := PerUse.none : TeCmd }) ∧
      (w265.moveByTag (5 : ℕ) [MoveStage.compress] = some (mv5 MoveKind.demotion MoveStage.compress)) ∧
      ((mv5 MoveKind.demotion MoveStage.compress).aborted = false) ∧
      ((0 : BitVec (4 : ℕ)) = (0 : BitVec (4 : ℕ))) ∧
      (slotFor (700 : ℕ) = some (0 : ℕ)) ∧
      (({ ((w265.teFree 5).teStatus 0) with dir := { ((w265.teFree 5).teStatus 0).dir with compSizes :=
        (((w265.teFree 5).teStatus 0).dir.compSizes.filter (fun x => x.1 != (mv5 MoveKind.demotion MoveStage.compress).page)) ++ [((mv5 MoveKind.demotion MoveStage.compress).page, 700 + 4)] } } : State).takeSlot 0 (mv5 MoveKind.demotion MoveStage.compress).page = some (w266, w267))) ∧
    (((5 : ℕ) < (256 : ℕ)) ∧
      (w268.teCmd (5 : ℕ) = some { ctag := (5 : ℕ), op := TeOp.storeSlot (5 : ℕ) (0 : ℕ) (1 : BitVec (2 : ℕ)), use := PerUse.none : TeCmd }) ∧
      (w268.moveByTag (5 : ℕ) [MoveStage.store] = some w269) ∧
      (w269.slot = some ((1 : BitVec (2 : ℕ)), (0 : ℕ))) ∧
      (((w268.teFree (5 : ℕ)).teStatus (0 : BitVec (4 : ℕ))).entFrame (((w268.teFree (5 : ℕ)).teStatus (0 : BitVec (4 : ℕ))).pageEnt w269.page) = some (0 : ℕ)) ∧
      (w269.aborted = false) ∧
      ((0 : BitVec (4 : ℕ)) = (0 : BitVec (4 : ℕ)))) ∧
    (((5 : ℕ) < (256 : ℕ)) ∧
      (w270.teCmd (5 : ℕ) = some { ctag := (5 : ℕ), op := TeOp.copyToPersist (0 : ℕ) (0 : ℕ), use := PerUse.none : TeCmd }) ∧
      (w270.moveByTag (5 : ℕ) [MoveStage.persist] = some (mv5 MoveKind.demotion MoveStage.persist)) ∧
      (((w270.teFree (5 : ℕ)).teStatus (0 : BitVec (4 : ℕ))).entFrame (((w270.teFree (5 : ℕ)).teStatus (0 : BitVec (4 : ℕ))).pageEnt (mv5 MoveKind.demotion MoveStage.persist).page) = some (0 : ℕ)) ∧
      ((mv5 MoveKind.demotion MoveStage.persist).aborted = false) ∧
      ((0 : BitVec (4 : ℕ)) = (0 : BitVec (4 : ℕ)))) ∧
    (((5 : ℕ) < (256 : ℕ)) ∧
      (w271.teCmd (5 : ℕ) = some { ctag := (5 : ℕ), op := TeOp.decompToPersist (0 : ℕ) (1 : BitVec (2 : ℕ)) (0 : ℕ), use := PerUse.none : TeCmd }) ∧
      (w271.moveByTag (5 : ℕ) [MoveStage.persist] = some (mv5 MoveKind.slotEviction MoveStage.persist)) ∧
      (((w271.teFree (5 : ℕ)).teStatus (0 : BitVec (4 : ℕ))).entSlot (((w271.teFree (5 : ℕ)).teStatus (0 : BitVec (4 : ℕ))).pageEnt (mv5 MoveKind.slotEviction MoveStage.persist).page) = some (0 : ℕ)) ∧
      ((mv5 MoveKind.slotEviction MoveStage.persist).aborted = false) ∧
      ((0 : BitVec (4 : ℕ)) = (0 : BitVec (4 : ℕ)))) ∧
    (((5 : ℕ) < (256 : ℕ)) ∧
      (w272.teCmd (5 : ℕ) = some { ctag := (5 : ℕ), op := TeOp.flush (3 : ℕ), use := PerUse.none : TeCmd }) ∧
      (∀ x ∈ w272.dir.moves, x.stage ≠ MoveStage.flush ∨ x.len ≠ (5 : ℕ))) ∧
    (((5 : ℕ) < (256 : ℕ)) ∧
      (w273.teCmd (5 : ℕ) = some { ctag := (5 : ℕ), op := TeOp.flush (3 : ℕ), use := PerUse.none : TeCmd }) ∧
      (List.find? (fun (x : Move) => x.stage == MoveStage.flush && x.len == (5 : ℕ)) w273.dir.moves = some w274) ∧
      ((((w273.teSend (TeOp.discard w274.ctag) PerUse.none).1.abortMove { page := w274.page, kind := w274.kind, stage := w274.stage, askers := w274.askers, frame := w274.frame, slot := none, ctag := w274.ctag, tables := w274.tables, dacked := w274.dacked, toPersist := w274.toPersist, poisonAll := w274.poisonAll, len := w274.len, forced := w274.forced, aborted := w274.aborted : Move }).teCmd (5 : ℕ)).isSome = true)) ∧
    (((5 : ℕ) < (256 : ℕ)) ∧
      (w275.teCmd (5 : ℕ) = some { ctag := (5 : ℕ), op := TeOp.offerVictim (0 : LineAddr) (7 : Line), use := PerUse.none : TeCmd }) ∧
      (∃ (a : LineAddr) (b : Line), TeOp.offerVictim (0 : LineAddr) (7 : Line) = TeOp.offerVictim a b)) ∧
    (((5 : ℕ) < (256 : ℕ)) ∧
      ((upDN dNear []).teCmd (5 : ℕ) = none)) := by
  and_intros <;> first
    | exact .head _
    | rfl
    | exact ⟨_, _, rfl⟩
    | exact .inl rfl
    | exact ⟨1, _, by decide, by decide, by decide, rfl, rfl⟩
    | exact .inr (.inl (by decide))
    | exact noReturns (by decide)
    | decide
    | exact fun h => absurd h.1 (by decide)
    | simp
    | (intro _ h; cases h)

/-- The hypotheses of PersistentAnswersDriveRestartAndSave, one line of conditions for each clause. -/
theorem witness_PersistentAnswersDriveRestartAndSave :
    (((5 : ℕ) < (256 : ℕ)) ∧
      (w276.teCmd (5 : ℕ) = some { ctag := (5 : ℕ), op := TeOp.persistWrite (0 : ℕ) [(7 : Line)], use := PerUse.rootWrite : TeCmd }) ∧
      ((0 : BitVec (4 : ℕ)) = (0 : BitVec (4 : ℕ))) ∧
      ({ variant := ((w276.teFree (5 : ℕ)).teStatus (0 : BitVec (4 : ℕ))).variant, pending := ((w276.teFree (5 : ℕ)).teStatus (0 : BitVec (4 : ℕ))).pending, free := ((w276.teFree (5 : ℕ)).teStatus (0 : BitVec (4 : ℕ))).free, pins := ((w276.teFree (5 : ℕ)).teStatus (0 : BitVec (4 : ℕ))).pins, gl := ((w276.teFree (5 : ℕ)).teStatus (0 : BitVec (4 : ℕ))).gl, regs := ((w276.teFree (5 : ℕ)).teStatus (0 : BitVec (4 : ℕ))).regs, cfg := ((w276.teFree (5 : ℕ)).teStatus (0 : BitVec (4 : ℕ))).cfg, hostPorts := ((w276.teFree (5 : ℕ)).teStatus (0 : BitVec (4 : ℕ))).hostPorts, hids := ((w276.teFree (5 : ℕ)).teStatus (0 : BitVec (4 : ℕ))).hids, agentPorts := ((w276.teFree (5 : ℕ)).teStatus (0 : BitVec (4 : ℕ))).agentPorts, slices := ((w276.teFree (5 : ℕ)).teStatus (0 : BitVec (4 : ℕ))).slices, memPorts := ((w276.teFree (5 : ℕ)).teStatus (0 : BitVec (4 : ℕ))).memPorts, spill := ((w276.teFree (5 : ℕ)).teStatus (0 : BitVec (4 : ℕ))).spill, cast := ((w276.teFree (5 : ℕ)).teStatus (0 : BitVec (4 : ℕ))).cast, dir := ((w276.teFree (5 : ℕ)).teStatus (0 : BitVec (4 : ℕ))).dir, dctl := ((w276.teFree (5 : ℕ)).teStatus (0 : BitVec (4 : ℕ))).dctl, root := have __src := ((w276.teFree (5 : ℕ)).teStatus (0 : BitVec (4 : ℕ))).root; { stage := __src.stage, found := __src.found, hdr := __src.hdr, pinLines := __src.pinLines, seq := __src.seq, nextSecond := __src.nextSecond, saveState := __src.saveState, held := __src.held, unsaved := __src.unsaved, rootBad := __src.rootBad, last := __src.last, poisoned := __src.poisoned, poison := __src.poison, repin := __src.repin, writes := ((w276.teFree (5 : ℕ)).teStatus (0 : BitVec (4 : ℕ))).root.writes - (1 : ℕ), save := __src.save, manifest := __src.manifest, sent := __src.sent, acked := __src.acked, progress := __src.progress : Root }, eg := ((w276.teFree (5 : ℕ)).teStatus (0 : BitVec (4 : ℕ))).eg, pwr := ((w276.teFree (5 : ℕ)).teStatus (0 : BitVec (4 : ℕ))).pwr, ld := ((w276.teFree (5 : ℕ)).teStatus (0 : BitVec (4 : ℕ))).ld, fb := ((w276.teFree (5 : ℕ)).teStatus (0 : BitVec (4 : ℕ))).fb, net := ((w276.teFree (5 : ℕ)).teStatus (0 : BitVec (4 : ℕ))).net, ring := ((w276.teFree (5 : ℕ)).teStatus (0 : BitVec (4 : ℕ))).ring, ringSnoops := ((w276.teFree (5 : ℕ)).teStatus (0 : BitVec (4 : ℕ))).ringSnoops, ev := ((w276.teFree (5 : ℕ)).teStatus (0 : BitVec (4 : ℕ))).ev : State }.root.writes ≠ (0 : ℕ))) ∧
    (((5 : ℕ) < (256 : ℕ)) ∧
      (w277.teCmd (5 : ℕ) = some { ctag := (5 : ℕ), op := TeOp.persistWrite (0 : ℕ) [(7 : Line)], use := PerUse.rootWrite : TeCmd }) ∧
      ((0 : BitVec (4 : ℕ)) = (0 : BitVec (4 : ℕ))) ∧
      ({ variant := ((w277.teFree (5 : ℕ)).teStatus (0 : BitVec (4 : ℕ))).variant, pending := ((w277.teFree (5 : ℕ)).teStatus (0 : BitVec (4 : ℕ))).pending, free := ((w277.teFree (5 : ℕ)).teStatus (0 : BitVec (4 : ℕ))).free, pins := ((w277.teFree (5 : ℕ)).teStatus (0 : BitVec (4 : ℕ))).pins, gl := ((w277.teFree (5 : ℕ)).teStatus (0 : BitVec (4 : ℕ))).gl, regs := ((w277.teFree (5 : ℕ)).teStatus (0 : BitVec (4 : ℕ))).regs, cfg := ((w277.teFree (5 : ℕ)).teStatus (0 : BitVec (4 : ℕ))).cfg, hostPorts := ((w277.teFree (5 : ℕ)).teStatus (0 : BitVec (4 : ℕ))).hostPorts, hids := ((w277.teFree (5 : ℕ)).teStatus (0 : BitVec (4 : ℕ))).hids, agentPorts := ((w277.teFree (5 : ℕ)).teStatus (0 : BitVec (4 : ℕ))).agentPorts, slices := ((w277.teFree (5 : ℕ)).teStatus (0 : BitVec (4 : ℕ))).slices, memPorts := ((w277.teFree (5 : ℕ)).teStatus (0 : BitVec (4 : ℕ))).memPorts, spill := ((w277.teFree (5 : ℕ)).teStatus (0 : BitVec (4 : ℕ))).spill, cast := ((w277.teFree (5 : ℕ)).teStatus (0 : BitVec (4 : ℕ))).cast, dir := ((w277.teFree (5 : ℕ)).teStatus (0 : BitVec (4 : ℕ))).dir, dctl := ((w277.teFree (5 : ℕ)).teStatus (0 : BitVec (4 : ℕ))).dctl, root := have __src := ((w277.teFree (5 : ℕ)).teStatus (0 : BitVec (4 : ℕ))).root; { stage := __src.stage, found := __src.found, hdr := __src.hdr, pinLines := __src.pinLines, seq := __src.seq, nextSecond := __src.nextSecond, saveState := __src.saveState, held := __src.held, unsaved := __src.unsaved, rootBad := __src.rootBad, last := __src.last, poisoned := __src.poisoned, poison := __src.poison, repin := __src.repin, writes := ((w277.teFree (5 : ℕ)).teStatus (0 : BitVec (4 : ℕ))).root.writes - (1 : ℕ), save := __src.save, manifest := __src.manifest, sent := __src.sent, acked := __src.acked, progress := __src.progress : Root }, eg := ((w277.teFree (5 : ℕ)).teStatus (0 : BitVec (4 : ℕ))).eg, pwr := ((w277.teFree (5 : ℕ)).teStatus (0 : BitVec (4 : ℕ))).pwr, ld := ((w277.teFree (5 : ℕ)).teStatus (0 : BitVec (4 : ℕ))).ld, fb := ((w277.teFree (5 : ℕ)).teStatus (0 : BitVec (4 : ℕ))).fb, net := ((w277.teFree (5 : ℕ)).teStatus (0 : BitVec (4 : ℕ))).net, ring := ((w277.teFree (5 : ℕ)).teStatus (0 : BitVec (4 : ℕ))).ring, ringSnoops := ((w277.teFree (5 : ℕ)).teStatus (0 : BitVec (4 : ℕ))).ringSnoops, ev := ((w277.teFree (5 : ℕ)).teStatus (0 : BitVec (4 : ℕ))).ev : State }.root.writes = (0 : ℕ)) ∧
      ({ variant := ((w277.teFree (5 : ℕ)).teStatus (0 : BitVec (4 : ℕ))).variant, pending := ((w277.teFree (5 : ℕ)).teStatus (0 : BitVec (4 : ℕ))).pending, free := ((w277.teFree (5 : ℕ)).teStatus (0 : BitVec (4 : ℕ))).free, pins := ((w277.teFree (5 : ℕ)).teStatus (0 : BitVec (4 : ℕ))).pins, gl := ((w277.teFree (5 : ℕ)).teStatus (0 : BitVec (4 : ℕ))).gl, regs := ((w277.teFree (5 : ℕ)).teStatus (0 : BitVec (4 : ℕ))).regs, cfg := ((w277.teFree (5 : ℕ)).teStatus (0 : BitVec (4 : ℕ))).cfg, hostPorts := ((w277.teFree (5 : ℕ)).teStatus (0 : BitVec (4 : ℕ))).hostPorts, hids := ((w277.teFree (5 : ℕ)).teStatus (0 : BitVec (4 : ℕ))).hids, agentPorts := ((w277.teFree (5 : ℕ)).teStatus (0 : BitVec (4 : ℕ))).agentPorts, slices := ((w277.teFree (5 : ℕ)).teStatus (0 : BitVec (4 : ℕ))).slices, memPorts := ((w277.teFree (5 : ℕ)).teStatus (0 : BitVec (4 : ℕ))).memPorts, spill := ((w277.teFree (5 : ℕ)).teStatus (0 : BitVec (4 : ℕ))).spill, cast := ((w277.teFree (5 : ℕ)).teStatus (0 : BitVec (4 : ℕ))).cast, dir := ((w277.teFree (5 : ℕ)).teStatus (0 : BitVec (4 : ℕ))).dir, dctl := ((w277.teFree (5 : ℕ)).teStatus (0 : BitVec (4 : ℕ))).dctl, root := have __src := ((w277.teFree (5 : ℕ)).teStatus (0 : BitVec (4 : ℕ))).root; { stage := __src.stage, found := __src.found, hdr := __src.hdr, pinLines := __src.pinLines, seq := __src.seq, nextSecond := __src.nextSecond, saveState := __src.saveState, held := __src.held, unsaved := __src.unsaved, rootBad := __src.rootBad, last := __src.last, poisoned := __src.poisoned, poison := __src.poison, repin := __src.repin, writes := ((w277.teFree (5 : ℕ)).teStatus (0 : BitVec (4 : ℕ))).root.writes - (1 : ℕ), save := __src.save, manifest := __src.manifest, sent := __src.sent, acked := __src.acked, progress := __src.progress : Root }, eg := ((w277.teFree (5 : ℕ)).teStatus (0 : BitVec (4 : ℕ))).eg, pwr := ((w277.teFree (5 : ℕ)).teStatus (0 : BitVec (4 : ℕ))).pwr, ld := ((w277.teFree (5 : ℕ)).teStatus (0 : BitVec (4 : ℕ))).ld, fb := ((w277.teFree (5 : ℕ)).teStatus (0 : BitVec (4 : ℕ))).fb, net := ((w277.teFree (5 : ℕ)).teStatus (0 : BitVec (4 : ℕ))).net, ring := ((w277.teFree (5 : ℕ)).teStatus (0 : BitVec (4 : ℕ))).ring, ringSnoops := ((w277.teFree (5 : ℕ)).teStatus (0 : BitVec (4 : ℕ))).ringSnoops, ev := ((w277.teFree (5 : ℕ)).teStatus (0 : BitVec (4 : ℕ))).ev : State }.root.stage = RootStage.writing) ∧
      ({ variant := ((w277.teFree (5 : ℕ)).teStatus (0 : BitVec (4 : ℕ))).variant, pending := ((w277.teFree (5 : ℕ)).teStatus (0 : BitVec (4 : ℕ))).pending, free := ((w277.teFree (5 : ℕ)).teStatus (0 : BitVec (4 : ℕ))).free, pins := ((w277.teFree (5 : ℕ)).teStatus (0 : BitVec (4 : ℕ))).pins, gl := ((w277.teFree (5 : ℕ)).teStatus (0 : BitVec (4 : ℕ))).gl, regs := ((w277.teFree (5 : ℕ)).teStatus (0 : BitVec (4 : ℕ))).regs, cfg := ((w277.teFree (5 : ℕ)).teStatus (0 : BitVec (4 : ℕ))).cfg, hostPorts := ((w277.teFree (5 : ℕ)).teStatus (0 : BitVec (4 : ℕ))).hostPorts, hids := ((w277.teFree (5 : ℕ)).teStatus (0 : BitVec (4 : ℕ))).hids, agentPorts := ((w277.teFree (5 : ℕ)).teStatus (0 : BitVec (4 : ℕ))).agentPorts, slices := ((w277.teFree (5 : ℕ)).teStatus (0 : BitVec (4 : ℕ))).slices, memPorts := ((w277.teFree (5 : ℕ)).teStatus (0 : BitVec (4 : ℕ))).memPorts, spill := ((w277.teFree (5 : ℕ)).teStatus (0 : BitVec (4 : ℕ))).spill, cast := ((w277.teFree (5 : ℕ)).teStatus (0 : BitVec (4 : ℕ))).cast, dir := ((w277.teFree (5 : ℕ)).teStatus (0 : BitVec (4 : ℕ))).dir, dctl := ((w277.teFree (5 : ℕ)).teStatus (0 : BitVec (4 : ℕ))).dctl, root := have __src := ((w277.teFree (5 : ℕ)).teStatus (0 : BitVec (4 : ℕ))).root; { stage := __src.stage, found := __src.found, hdr := __src.hdr, pinLines := __src.pinLines, seq := __src.seq, nextSecond := __src.nextSecond, saveState := __src.saveState, held := __src.held, unsaved := __src.unsaved, rootBad := __src.rootBad, last := __src.last, poisoned := __src.poisoned, poison := __src.poison, repin := __src.repin, writes := ((w277.teFree (5 : ℕ)).teStatus (0 : BitVec (4 : ℕ))).root.writes - (1 : ℕ), save := __src.save, manifest := __src.manifest, sent := __src.sent, acked := __src.acked, progress := __src.progress : Root }, eg := ((w277.teFree (5 : ℕ)).teStatus (0 : BitVec (4 : ℕ))).eg, pwr := ((w277.teFree (5 : ℕ)).teStatus (0 : BitVec (4 : ℕ))).pwr, ld := ((w277.teFree (5 : ℕ)).teStatus (0 : BitVec (4 : ℕ))).ld, fb := ((w277.teFree (5 : ℕ)).teStatus (0 : BitVec (4 : ℕ))).fb, net := ((w277.teFree (5 : ℕ)).teStatus (0 : BitVec (4 : ℕ))).net, ring := ((w277.teFree (5 : ℕ)).teStatus (0 : BitVec (4 : ℕ))).ring, ringSnoops := ((w277.teFree (5 : ℕ)).teStatus (0 : BitVec (4 : ℕ))).ringSnoops, ev := ((w277.teFree (5 : ℕ)).teStatus (0 : BitVec (4 : ℕ))).ev : State }.root.save = SaveStage.idle)) ∧
    (((5 : ℕ) < (256 : ℕ)) ∧
      (w278.teCmd (5 : ℕ) = some { ctag := (5 : ℕ), op := TeOp.persistWrite (0 : ℕ) [(7 : Line)], use := PerUse.rootWrite : TeCmd }) ∧
      ((0 : BitVec (4 : ℕ)) = (0 : BitVec (4 : ℕ))) ∧
      ({ variant := ((w278.teFree (5 : ℕ)).teStatus (0 : BitVec (4 : ℕ))).variant, pending := ((w278.teFree (5 : ℕ)).teStatus (0 : BitVec (4 : ℕ))).pending, free := ((w278.teFree (5 : ℕ)).teStatus (0 : BitVec (4 : ℕ))).free, pins := ((w278.teFree (5 : ℕ)).teStatus (0 : BitVec (4 : ℕ))).pins, gl := ((w278.teFree (5 : ℕ)).teStatus (0 : BitVec (4 : ℕ))).gl, regs := ((w278.teFree (5 : ℕ)).teStatus (0 : BitVec (4 : ℕ))).regs, cfg := ((w278.teFree (5 : ℕ)).teStatus (0 : BitVec (4 : ℕ))).cfg, hostPorts := ((w278.teFree (5 : ℕ)).teStatus (0 : BitVec (4 : ℕ))).hostPorts, hids := ((w278.teFree (5 : ℕ)).teStatus (0 : BitVec (4 : ℕ))).hids, agentPorts := ((w278.teFree (5 : ℕ)).teStatus (0 : BitVec (4 : ℕ))).agentPorts, slices := ((w278.teFree (5 : ℕ)).teStatus (0 : BitVec (4 : ℕ))).slices, memPorts := ((w278.teFree (5 : ℕ)).teStatus (0 : BitVec (4 : ℕ))).memPorts, spill := ((w278.teFree (5 : ℕ)).teStatus (0 : BitVec (4 : ℕ))).spill, cast := ((w278.teFree (5 : ℕ)).teStatus (0 : BitVec (4 : ℕ))).cast, dir := ((w278.teFree (5 : ℕ)).teStatus (0 : BitVec (4 : ℕ))).dir, dctl := ((w278.teFree (5 : ℕ)).teStatus (0 : BitVec (4 : ℕ))).dctl, root := have __src := ((w278.teFree (5 : ℕ)).teStatus (0 : BitVec (4 : ℕ))).root; { stage := __src.stage, found := __src.found, hdr := __src.hdr, pinLines := __src.pinLines, seq := __src.seq, nextSecond := __src.nextSecond, saveState := __src.saveState, held := __src.held, unsaved := __src.unsaved, rootBad := __src.rootBad, last := __src.last, poisoned := __src.poisoned, poison := __src.poison, repin := __src.repin, writes := ((w278.teFree (5 : ℕ)).teStatus (0 : BitVec (4 : ℕ))).root.writes - (1 : ℕ), save := __src.save, manifest := __src.manifest, sent := __src.sent, acked := __src.acked, progress := __src.progress : Root }, eg := ((w278.teFree (5 : ℕ)).teStatus (0 : BitVec (4 : ℕ))).eg, pwr := ((w278.teFree (5 : ℕ)).teStatus (0 : BitVec (4 : ℕ))).pwr, ld := ((w278.teFree (5 : ℕ)).teStatus (0 : BitVec (4 : ℕ))).ld, fb := ((w278.teFree (5 : ℕ)).teStatus (0 : BitVec (4 : ℕ))).fb, net := ((w278.teFree (5 : ℕ)).teStatus (0 : BitVec (4 : ℕ))).net, ring := ((w278.teFree (5 : ℕ)).teStatus (0 : BitVec (4 : ℕ))).ring, ringSnoops := ((w278.teFree (5 : ℕ)).teStatus (0 : BitVec (4 : ℕ))).ringSnoops, ev := ((w278.teFree (5 : ℕ)).teStatus (0 : BitVec (4 : ℕ))).ev : State }.root.writes = (0 : ℕ)) ∧
      ({ variant := ((w278.teFree (5 : ℕ)).teStatus (0 : BitVec (4 : ℕ))).variant, pending := ((w278.teFree (5 : ℕ)).teStatus (0 : BitVec (4 : ℕ))).pending, free := ((w278.teFree (5 : ℕ)).teStatus (0 : BitVec (4 : ℕ))).free, pins := ((w278.teFree (5 : ℕ)).teStatus (0 : BitVec (4 : ℕ))).pins, gl := ((w278.teFree (5 : ℕ)).teStatus (0 : BitVec (4 : ℕ))).gl, regs := ((w278.teFree (5 : ℕ)).teStatus (0 : BitVec (4 : ℕ))).regs, cfg := ((w278.teFree (5 : ℕ)).teStatus (0 : BitVec (4 : ℕ))).cfg, hostPorts := ((w278.teFree (5 : ℕ)).teStatus (0 : BitVec (4 : ℕ))).hostPorts, hids := ((w278.teFree (5 : ℕ)).teStatus (0 : BitVec (4 : ℕ))).hids, agentPorts := ((w278.teFree (5 : ℕ)).teStatus (0 : BitVec (4 : ℕ))).agentPorts, slices := ((w278.teFree (5 : ℕ)).teStatus (0 : BitVec (4 : ℕ))).slices, memPorts := ((w278.teFree (5 : ℕ)).teStatus (0 : BitVec (4 : ℕ))).memPorts, spill := ((w278.teFree (5 : ℕ)).teStatus (0 : BitVec (4 : ℕ))).spill, cast := ((w278.teFree (5 : ℕ)).teStatus (0 : BitVec (4 : ℕ))).cast, dir := ((w278.teFree (5 : ℕ)).teStatus (0 : BitVec (4 : ℕ))).dir, dctl := ((w278.teFree (5 : ℕ)).teStatus (0 : BitVec (4 : ℕ))).dctl, root := have __src := ((w278.teFree (5 : ℕ)).teStatus (0 : BitVec (4 : ℕ))).root; { stage := __src.stage, found := __src.found, hdr := __src.hdr, pinLines := __src.pinLines, seq := __src.seq, nextSecond := __src.nextSecond, saveState := __src.saveState, held := __src.held, unsaved := __src.unsaved, rootBad := __src.rootBad, last := __src.last, poisoned := __src.poisoned, poison := __src.poison, repin := __src.repin, writes := ((w278.teFree (5 : ℕ)).teStatus (0 : BitVec (4 : ℕ))).root.writes - (1 : ℕ), save := __src.save, manifest := __src.manifest, sent := __src.sent, acked := __src.acked, progress := __src.progress : Root }, eg := ((w278.teFree (5 : ℕ)).teStatus (0 : BitVec (4 : ℕ))).eg, pwr := ((w278.teFree (5 : ℕ)).teStatus (0 : BitVec (4 : ℕ))).pwr, ld := ((w278.teFree (5 : ℕ)).teStatus (0 : BitVec (4 : ℕ))).ld, fb := ((w278.teFree (5 : ℕ)).teStatus (0 : BitVec (4 : ℕ))).fb, net := ((w278.teFree (5 : ℕ)).teStatus (0 : BitVec (4 : ℕ))).net, ring := ((w278.teFree (5 : ℕ)).teStatus (0 : BitVec (4 : ℕ))).ring, ringSnoops := ((w278.teFree (5 : ℕ)).teStatus (0 : BitVec (4 : ℕ))).ringSnoops, ev := ((w278.teFree (5 : ℕ)).teStatus (0 : BitVec (4 : ℕ))).ev : State }.root.save = SaveStage.last)) ∧
    (((5 : ℕ) < (256 : ℕ)) ∧
      (w279.teCmd (5 : ℕ) = some { ctag := (5 : ℕ), op := TeOp.persistWrite (0 : ℕ) [(7 : Line)], use := PerUse.rootWrite : TeCmd }) ∧
      ((0 : BitVec (4 : ℕ)) = (0 : BitVec (4 : ℕ))) ∧
      ({ variant := ((w279.teFree (5 : ℕ)).teStatus (0 : BitVec (4 : ℕ))).variant, pending := ((w279.teFree (5 : ℕ)).teStatus (0 : BitVec (4 : ℕ))).pending, free := ((w279.teFree (5 : ℕ)).teStatus (0 : BitVec (4 : ℕ))).free, pins := ((w279.teFree (5 : ℕ)).teStatus (0 : BitVec (4 : ℕ))).pins, gl := ((w279.teFree (5 : ℕ)).teStatus (0 : BitVec (4 : ℕ))).gl, regs := ((w279.teFree (5 : ℕ)).teStatus (0 : BitVec (4 : ℕ))).regs, cfg := ((w279.teFree (5 : ℕ)).teStatus (0 : BitVec (4 : ℕ))).cfg, hostPorts := ((w279.teFree (5 : ℕ)).teStatus (0 : BitVec (4 : ℕ))).hostPorts, hids := ((w279.teFree (5 : ℕ)).teStatus (0 : BitVec (4 : ℕ))).hids, agentPorts := ((w279.teFree (5 : ℕ)).teStatus (0 : BitVec (4 : ℕ))).agentPorts, slices := ((w279.teFree (5 : ℕ)).teStatus (0 : BitVec (4 : ℕ))).slices, memPorts := ((w279.teFree (5 : ℕ)).teStatus (0 : BitVec (4 : ℕ))).memPorts, spill := ((w279.teFree (5 : ℕ)).teStatus (0 : BitVec (4 : ℕ))).spill, cast := ((w279.teFree (5 : ℕ)).teStatus (0 : BitVec (4 : ℕ))).cast, dir := ((w279.teFree (5 : ℕ)).teStatus (0 : BitVec (4 : ℕ))).dir, dctl := ((w279.teFree (5 : ℕ)).teStatus (0 : BitVec (4 : ℕ))).dctl, root := have __src := ((w279.teFree (5 : ℕ)).teStatus (0 : BitVec (4 : ℕ))).root; { stage := __src.stage, found := __src.found, hdr := __src.hdr, pinLines := __src.pinLines, seq := __src.seq, nextSecond := __src.nextSecond, saveState := __src.saveState, held := __src.held, unsaved := __src.unsaved, rootBad := __src.rootBad, last := __src.last, poisoned := __src.poisoned, poison := __src.poison, repin := __src.repin, writes := ((w279.teFree (5 : ℕ)).teStatus (0 : BitVec (4 : ℕ))).root.writes - (1 : ℕ), save := __src.save, manifest := __src.manifest, sent := __src.sent, acked := __src.acked, progress := __src.progress : Root }, eg := ((w279.teFree (5 : ℕ)).teStatus (0 : BitVec (4 : ℕ))).eg, pwr := ((w279.teFree (5 : ℕ)).teStatus (0 : BitVec (4 : ℕ))).pwr, ld := ((w279.teFree (5 : ℕ)).teStatus (0 : BitVec (4 : ℕ))).ld, fb := ((w279.teFree (5 : ℕ)).teStatus (0 : BitVec (4 : ℕ))).fb, net := ((w279.teFree (5 : ℕ)).teStatus (0 : BitVec (4 : ℕ))).net, ring := ((w279.teFree (5 : ℕ)).teStatus (0 : BitVec (4 : ℕ))).ring, ringSnoops := ((w279.teFree (5 : ℕ)).teStatus (0 : BitVec (4 : ℕ))).ringSnoops, ev := ((w279.teFree (5 : ℕ)).teStatus (0 : BitVec (4 : ℕ))).ev : State }.root.writes = (0 : ℕ)) ∧
      ({ variant := ((w279.teFree (5 : ℕ)).teStatus (0 : BitVec (4 : ℕ))).variant, pending := ((w279.teFree (5 : ℕ)).teStatus (0 : BitVec (4 : ℕ))).pending, free := ((w279.teFree (5 : ℕ)).teStatus (0 : BitVec (4 : ℕ))).free, pins := ((w279.teFree (5 : ℕ)).teStatus (0 : BitVec (4 : ℕ))).pins, gl := ((w279.teFree (5 : ℕ)).teStatus (0 : BitVec (4 : ℕ))).gl, regs := ((w279.teFree (5 : ℕ)).teStatus (0 : BitVec (4 : ℕ))).regs, cfg := ((w279.teFree (5 : ℕ)).teStatus (0 : BitVec (4 : ℕ))).cfg, hostPorts := ((w279.teFree (5 : ℕ)).teStatus (0 : BitVec (4 : ℕ))).hostPorts, hids := ((w279.teFree (5 : ℕ)).teStatus (0 : BitVec (4 : ℕ))).hids, agentPorts := ((w279.teFree (5 : ℕ)).teStatus (0 : BitVec (4 : ℕ))).agentPorts, slices := ((w279.teFree (5 : ℕ)).teStatus (0 : BitVec (4 : ℕ))).slices, memPorts := ((w279.teFree (5 : ℕ)).teStatus (0 : BitVec (4 : ℕ))).memPorts, spill := ((w279.teFree (5 : ℕ)).teStatus (0 : BitVec (4 : ℕ))).spill, cast := ((w279.teFree (5 : ℕ)).teStatus (0 : BitVec (4 : ℕ))).cast, dir := ((w279.teFree (5 : ℕ)).teStatus (0 : BitVec (4 : ℕ))).dir, dctl := ((w279.teFree (5 : ℕ)).teStatus (0 : BitVec (4 : ℕ))).dctl, root := have __src := ((w279.teFree (5 : ℕ)).teStatus (0 : BitVec (4 : ℕ))).root; { stage := __src.stage, found := __src.found, hdr := __src.hdr, pinLines := __src.pinLines, seq := __src.seq, nextSecond := __src.nextSecond, saveState := __src.saveState, held := __src.held, unsaved := __src.unsaved, rootBad := __src.rootBad, last := __src.last, poisoned := __src.poisoned, poison := __src.poison, repin := __src.repin, writes := ((w279.teFree (5 : ℕ)).teStatus (0 : BitVec (4 : ℕ))).root.writes - (1 : ℕ), save := __src.save, manifest := __src.manifest, sent := __src.sent, acked := __src.acked, progress := __src.progress : Root }, eg := ((w279.teFree (5 : ℕ)).teStatus (0 : BitVec (4 : ℕ))).eg, pwr := ((w279.teFree (5 : ℕ)).teStatus (0 : BitVec (4 : ℕ))).pwr, ld := ((w279.teFree (5 : ℕ)).teStatus (0 : BitVec (4 : ℕ))).ld, fb := ((w279.teFree (5 : ℕ)).teStatus (0 : BitVec (4 : ℕ))).fb, net := ((w279.teFree (5 : ℕ)).teStatus (0 : BitVec (4 : ℕ))).net, ring := ((w279.teFree (5 : ℕ)).teStatus (0 : BitVec (4 : ℕ))).ring, ringSnoops := ((w279.teFree (5 : ℕ)).teStatus (0 : BitVec (4 : ℕ))).ringSnoops, ev := ((w279.teFree (5 : ℕ)).teStatus (0 : BitVec (4 : ℕ))).ev : State }.root.save = SaveStage.manifest)) ∧
    (((5 : ℕ) < (256 : ℕ)) ∧
      ((te5 (TeOp.persistWrite (0 : ℕ) [(7 : Line)]) (PerUse.pinWrite (0 : Page)) dNear).teCmd (5 : ℕ) = some { ctag := (5 : ℕ), op := TeOp.persistWrite (0 : ℕ) [(7 : Line)], use := PerUse.pinWrite (0 : Page) : TeCmd }) ∧
      ((4 : BitVec (4 : ℕ)) ≠ (0 : BitVec (4 : ℕ)))) ∧
    (((5 : ℕ) < (256 : ℕ)) ∧
      (w280.teCmd (5 : ℕ) = some { ctag := (5 : ℕ), op := TeOp.persistRead (0 : ℕ) (64 : ℕ), use := PerUse.rootHdr false : TeCmd }) ∧
      (intact (4 : BitVec (4 : ℕ)) [] = false ∨ (linesBytes (List.map PLine.data [])).length ≠ (4096 : ℕ) ∨ headerValid (linesBytes (List.map PLine.data [])) = false)) ∧
    (((5 : ℕ) < (256 : ℕ)) ∧
      (w281.teCmd (5 : ℕ) = some { ctag := (5 : ℕ), op := TeOp.persistRead (0 : ℕ) (64 : ℕ), use := PerUse.rootPins false : TeCmd }) ∧
      (((w281.teFree (5 : ℕ)).teStatus (0 : BitVec (4 : ℕ))).root.hdr = some { state := (0 : BitVec (8 : ℕ)), game := (1 : Game), seq := (0 : W32), pinCount := (0 : ℕ), sweepPos := (0 : Page), sweepGame := (0 : Game), manifest := (0 : ℕ), progress := (0 : ℕ), pinCrc := (0 : W32) : RootCopy }) ∧
      (intact (0 : BitVec (4 : ℕ)) [{ data := (0 : Line), poison := false : PLine }] = true) ∧
      ([{ data := (0 : Line), poison := false : PLine }] ≠ [])) ∧
    (((5 : ℕ) < (256 : ℕ)) ∧
      (w281.teCmd (5 : ℕ) = some { ctag := (5 : ℕ), op := TeOp.persistRead (0 : ℕ) (64 : ℕ), use := PerUse.rootPins false : TeCmd }) ∧
      (((w281.teFree (5 : ℕ)).teStatus (4 : BitVec (4 : ℕ))).root.hdr = some { state := (0 : BitVec (8 : ℕ)), game := (1 : Game), seq := (0 : W32), pinCount := (0 : ℕ), sweepPos := (0 : Page), sweepGame := (0 : Game), manifest := (0 : ℕ), progress := (0 : ℕ), pinCrc := (0 : W32) : RootCopy }) ∧
      (intact (4 : BitVec (4 : ℕ)) [] = false ∨ nilOf PLine = [])) ∧
    (((5 : ℕ) < (256 : ℕ)) ∧
      (w282.teCmd (5 : ℕ) = some { ctag := (5 : ℕ), op := TeOp.savePage (0 : ℕ) (0 : BitVec (2 : ℕ)) (0 : ℕ) false, use := PerUse.save (0 : ℕ) : TeCmd }) ∧
      (((w282.teFree (5 : ℕ)).teStatus (0 : BitVec (4 : ℕ))).root.manifest[(0 : ℕ)]? = some (0 : Page)) ∧
      (leading ((if (0 : BitVec (4 : ℕ)) = (0 : BitVec (4 : ℕ)) then (w282.teFree (5 : ℕ)).teStatus (0 : BitVec (4 : ℕ)) else (((w282.teFree (5 : ℕ)).teStatus (0 : BitVec (4 : ℕ))).logEv (20 : ℕ) (1 : ℕ) srcDirector (0 : ℕ) (BitVec.setWidth (64 : ℕ) (0 : Page))).poisonPage (0 : Page) (9 : ℕ)).root.acked.length + (1 : ℕ)) ((0 : ℕ) :: (if (0 : BitVec (4 : ℕ)) = (0 : BitVec (4 : ℕ)) then (w282.teFree (5 : ℕ)).teStatus (0 : BitVec (4 : ℕ)) else (((w282.teFree (5 : ℕ)).teStatus (0 : BitVec (4 : ℕ))).logEv (20 : ℕ) (1 : ℕ) srcDirector (0 : ℕ) (BitVec.setWidth (64 : ℕ) (0 : Page))).poisonPage (0 : Page) (9 : ℕ)).root.acked) (if (0 : BitVec (4 : ℕ)) = (0 : BitVec (4 : ℕ)) then (w282.teFree (5 : ℕ)).teStatus (0 : BitVec (4 : ℕ)) else (((w282.teFree (5 : ℕ)).teStatus (0 : BitVec (4 : ℕ))).logEv (20 : ℕ) (1 : ℕ) srcDirector (0 : ℕ) (BitVec.setWidth (64 : ℕ) (0 : Page))).poisonPage (0 : Page) (9 : ℕ)).root.progress = { variant := (if (0 : BitVec (4 : ℕ)) = (0 : BitVec (4 : ℕ)) then (w282.teFree (5 : ℕ)).teStatus (0 : BitVec (4 : ℕ)) else (((w282.teFree (5 : ℕ)).teStatus (0 : BitVec (4 : ℕ))).logEv (20 : ℕ) (1 : ℕ) srcDirector (0 : ℕ) (BitVec.setWidth (64 : ℕ) (0 : Page))).poisonPage (0 : Page) (9 : ℕ)).variant, pending := (if (0 : BitVec (4 : ℕ)) = (0 : BitVec (4 : ℕ)) then (w282.teFree (5 : ℕ)).teStatus (0 : BitVec (4 : ℕ)) else (((w282.teFree (5 : ℕ)).teStatus (0 : BitVec (4 : ℕ))).logEv (20 : ℕ) (1 : ℕ) srcDirector (0 : ℕ) (BitVec.setWidth (64 : ℕ) (0 : Page))).poisonPage (0 : Page) (9 : ℕ)).pending, free := (if (0 : BitVec (4 : ℕ)) = (0 : BitVec (4 : ℕ)) then (w282.teFree (5 : ℕ)).teStatus (0 : BitVec (4 : ℕ)) else (((w282.teFree (5 : ℕ)).teStatus (0 : BitVec (4 : ℕ))).logEv (20 : ℕ) (1 : ℕ) srcDirector (0 : ℕ) (BitVec.setWidth (64 : ℕ) (0 : Page))).poisonPage (0 : Page) (9 : ℕ)).free, pins := (if (0 : BitVec (4 : ℕ)) = (0 : BitVec (4 : ℕ)) then (w282.teFree (5 : ℕ)).teStatus (0 : BitVec (4 : ℕ)) else (((w282.teFree (5 : ℕ)).teStatus (0 : BitVec (4 : ℕ))).logEv (20 : ℕ) (1 : ℕ) srcDirector (0 : ℕ) (BitVec.setWidth (64 : ℕ) (0 : Page))).poisonPage (0 : Page) (9 : ℕ)).pins, gl := (if (0 : BitVec (4 : ℕ)) = (0 : BitVec (4 : ℕ)) then (w282.teFree (5 : ℕ)).teStatus (0 : BitVec (4 : ℕ)) else (((w282.teFree (5 : ℕ)).teStatus (0 : BitVec (4 : ℕ))).logEv (20 : ℕ) (1 : ℕ) srcDirector (0 : ℕ) (BitVec.setWidth (64 : ℕ) (0 : Page))).poisonPage (0 : Page) (9 : ℕ)).gl, regs := (if (0 : BitVec (4 : ℕ)) = (0 : BitVec (4 : ℕ)) then (w282.teFree (5 : ℕ)).teStatus (0 : BitVec (4 : ℕ)) else (((w282.teFree (5 : ℕ)).teStatus (0 : BitVec (4 : ℕ))).logEv (20 : ℕ) (1 : ℕ) srcDirector (0 : ℕ) (BitVec.setWidth (64 : ℕ) (0 : Page))).poisonPage (0 : Page) (9 : ℕ)).regs, cfg := (if (0 : BitVec (4 : ℕ)) = (0 : BitVec (4 : ℕ)) then (w282.teFree (5 : ℕ)).teStatus (0 : BitVec (4 : ℕ)) else (((w282.teFree (5 : ℕ)).teStatus (0 : BitVec (4 : ℕ))).logEv (20 : ℕ) (1 : ℕ) srcDirector (0 : ℕ) (BitVec.setWidth (64 : ℕ) (0 : Page))).poisonPage (0 : Page) (9 : ℕ)).cfg, hostPorts := (if (0 : BitVec (4 : ℕ)) = (0 : BitVec (4 : ℕ)) then (w282.teFree (5 : ℕ)).teStatus (0 : BitVec (4 : ℕ)) else (((w282.teFree (5 : ℕ)).teStatus (0 : BitVec (4 : ℕ))).logEv (20 : ℕ) (1 : ℕ) srcDirector (0 : ℕ) (BitVec.setWidth (64 : ℕ) (0 : Page))).poisonPage (0 : Page) (9 : ℕ)).hostPorts, hids := (if (0 : BitVec (4 : ℕ)) = (0 : BitVec (4 : ℕ)) then (w282.teFree (5 : ℕ)).teStatus (0 : BitVec (4 : ℕ)) else (((w282.teFree (5 : ℕ)).teStatus (0 : BitVec (4 : ℕ))).logEv (20 : ℕ) (1 : ℕ) srcDirector (0 : ℕ) (BitVec.setWidth (64 : ℕ) (0 : Page))).poisonPage (0 : Page) (9 : ℕ)).hids, agentPorts := (if (0 : BitVec (4 : ℕ)) = (0 : BitVec (4 : ℕ)) then (w282.teFree (5 : ℕ)).teStatus (0 : BitVec (4 : ℕ)) else (((w282.teFree (5 : ℕ)).teStatus (0 : BitVec (4 : ℕ))).logEv (20 : ℕ) (1 : ℕ) srcDirector (0 : ℕ) (BitVec.setWidth (64 : ℕ) (0 : Page))).poisonPage (0 : Page) (9 : ℕ)).agentPorts, slices := (if (0 : BitVec (4 : ℕ)) = (0 : BitVec (4 : ℕ)) then (w282.teFree (5 : ℕ)).teStatus (0 : BitVec (4 : ℕ)) else (((w282.teFree (5 : ℕ)).teStatus (0 : BitVec (4 : ℕ))).logEv (20 : ℕ) (1 : ℕ) srcDirector (0 : ℕ) (BitVec.setWidth (64 : ℕ) (0 : Page))).poisonPage (0 : Page) (9 : ℕ)).slices, memPorts := (if (0 : BitVec (4 : ℕ)) = (0 : BitVec (4 : ℕ)) then (w282.teFree (5 : ℕ)).teStatus (0 : BitVec (4 : ℕ)) else (((w282.teFree (5 : ℕ)).teStatus (0 : BitVec (4 : ℕ))).logEv (20 : ℕ) (1 : ℕ) srcDirector (0 : ℕ) (BitVec.setWidth (64 : ℕ) (0 : Page))).poisonPage (0 : Page) (9 : ℕ)).memPorts, spill := (if (0 : BitVec (4 : ℕ)) = (0 : BitVec (4 : ℕ)) then (w282.teFree (5 : ℕ)).teStatus (0 : BitVec (4 : ℕ)) else (((w282.teFree (5 : ℕ)).teStatus (0 : BitVec (4 : ℕ))).logEv (20 : ℕ) (1 : ℕ) srcDirector (0 : ℕ) (BitVec.setWidth (64 : ℕ) (0 : Page))).poisonPage (0 : Page) (9 : ℕ)).spill, cast := (if (0 : BitVec (4 : ℕ)) = (0 : BitVec (4 : ℕ)) then (w282.teFree (5 : ℕ)).teStatus (0 : BitVec (4 : ℕ)) else (((w282.teFree (5 : ℕ)).teStatus (0 : BitVec (4 : ℕ))).logEv (20 : ℕ) (1 : ℕ) srcDirector (0 : ℕ) (BitVec.setWidth (64 : ℕ) (0 : Page))).poisonPage (0 : Page) (9 : ℕ)).cast, dir := (if (0 : BitVec (4 : ℕ)) = (0 : BitVec (4 : ℕ)) then (w282.teFree (5 : ℕ)).teStatus (0 : BitVec (4 : ℕ)) else (((w282.teFree (5 : ℕ)).teStatus (0 : BitVec (4 : ℕ))).logEv (20 : ℕ) (1 : ℕ) srcDirector (0 : ℕ) (BitVec.setWidth (64 : ℕ) (0 : Page))).poisonPage (0 : Page) (9 : ℕ)).dir, dctl := (if (0 : BitVec (4 : ℕ)) = (0 : BitVec (4 : ℕ)) then (w282.teFree (5 : ℕ)).teStatus (0 : BitVec (4 : ℕ)) else (((w282.teFree (5 : ℕ)).teStatus (0 : BitVec (4 : ℕ))).logEv (20 : ℕ) (1 : ℕ) srcDirector (0 : ℕ) (BitVec.setWidth (64 : ℕ) (0 : Page))).poisonPage (0 : Page) (9 : ℕ)).dctl, root := have __src := (if (0 : BitVec (4 : ℕ)) = (0 : BitVec (4 : ℕ)) then (w282.teFree (5 : ℕ)).teStatus (0 : BitVec (4 : ℕ)) else (((w282.teFree (5 : ℕ)).teStatus (0 : BitVec (4 : ℕ))).logEv (20 : ℕ) (1 : ℕ) srcDirector (0 : ℕ) (BitVec.setWidth (64 : ℕ) (0 : Page))).poisonPage (0 : Page) (9 : ℕ)).root; { stage := __src.stage, found := __src.found, hdr := __src.hdr, pinLines := __src.pinLines, seq := __src.seq, nextSecond := __src.nextSecond, saveState := __src.saveState, held := __src.held, unsaved := __src.unsaved, rootBad := __src.rootBad, last := __src.last, poisoned := __src.poisoned, poison := __src.poison, repin := __src.repin, writes := __src.writes, save := __src.save, manifest := __src.manifest, sent := __src.sent, acked := List.filter (fun (n : ℕ) => decide (leading ((if (0 : BitVec (4 : ℕ)) = (0 : BitVec (4 : ℕ)) then (w282.teFree (5 : ℕ)).teStatus (0 : BitVec (4 : ℕ)) else (((w282.teFree (5 : ℕ)).teStatus (0 : BitVec (4 : ℕ))).logEv (20 : ℕ) (1 : ℕ) srcDirector (0 : ℕ) (BitVec.setWidth (64 : ℕ) (0 : Page))).poisonPage (0 : Page) (9 : ℕ)).root.acked.length + (1 : ℕ)) ((0 : ℕ) :: (if (0 : BitVec (4 : ℕ)) = (0 : BitVec (4 : ℕ)) then (w282.teFree (5 : ℕ)).teStatus (0 : BitVec (4 : ℕ)) else (((w282.teFree (5 : ℕ)).teStatus (0 : BitVec (4 : ℕ))).logEv (20 : ℕ) (1 : ℕ) srcDirector (0 : ℕ) (BitVec.setWidth (64 : ℕ) (0 : Page))).poisonPage (0 : Page) (9 : ℕ)).root.acked) (if (0 : BitVec (4 : ℕ)) = (0 : BitVec (4 : ℕ)) then (w282.teFree (5 : ℕ)).teStatus (0 : BitVec (4 : ℕ)) else (((w282.teFree (5 : ℕ)).teStatus (0 : BitVec (4 : ℕ))).logEv (20 : ℕ) (1 : ℕ) srcDirector (0 : ℕ) (BitVec.setWidth (64 : ℕ) (0 : Page))).poisonPage (0 : Page) (9 : ℕ)).root.progress ≤ n)) ((0 : ℕ) :: (if (0 : BitVec (4 : ℕ)) = (0 : BitVec (4 : ℕ)) then (w282.teFree (5 : ℕ)).teStatus (0 : BitVec (4 : ℕ)) else (((w282.teFree (5 : ℕ)).teStatus (0 : BitVec (4 : ℕ))).logEv (20 : ℕ) (1 : ℕ) srcDirector (0 : ℕ) (BitVec.setWidth (64 : ℕ) (0 : Page))).poisonPage (0 : Page) (9 : ℕ)).root.acked), progress := leading ((if (0 : BitVec (4 : ℕ)) = (0 : BitVec (4 : ℕ)) then (w282.teFree (5 : ℕ)).teStatus (0 : BitVec (4 : ℕ)) else (((w282.teFree (5 : ℕ)).teStatus (0 : BitVec (4 : ℕ))).logEv (20 : ℕ) (1 : ℕ) srcDirector (0 : ℕ) (BitVec.setWidth (64 : ℕ) (0 : Page))).poisonPage (0 : Page) (9 : ℕ)).root.acked.length + (1 : ℕ)) ((0 : ℕ) :: (if (0 : BitVec (4 : ℕ)) = (0 : BitVec (4 : ℕ)) then (w282.teFree (5 : ℕ)).teStatus (0 : BitVec (4 : ℕ)) else (((w282.teFree (5 : ℕ)).teStatus (0 : BitVec (4 : ℕ))).logEv (20 : ℕ) (1 : ℕ) srcDirector (0 : ℕ) (BitVec.setWidth (64 : ℕ) (0 : Page))).poisonPage (0 : Page) (9 : ℕ)).root.acked) (if (0 : BitVec (4 : ℕ)) = (0 : BitVec (4 : ℕ)) then (w282.teFree (5 : ℕ)).teStatus (0 : BitVec (4 : ℕ)) else (((w282.teFree (5 : ℕ)).teStatus (0 : BitVec (4 : ℕ))).logEv (20 : ℕ) (1 : ℕ) srcDirector (0 : ℕ) (BitVec.setWidth (64 : ℕ) (0 : Page))).poisonPage (0 : Page) (9 : ℕ)).root.progress : Root }, eg := (if (0 : BitVec (4 : ℕ)) = (0 : BitVec (4 : ℕ)) then (w282.teFree (5 : ℕ)).teStatus (0 : BitVec (4 : ℕ)) else (((w282.teFree (5 : ℕ)).teStatus (0 : BitVec (4 : ℕ))).logEv (20 : ℕ) (1 : ℕ) srcDirector (0 : ℕ) (BitVec.setWidth (64 : ℕ) (0 : Page))).poisonPage (0 : Page) (9 : ℕ)).eg, pwr := (if (0 : BitVec (4 : ℕ)) = (0 : BitVec (4 : ℕ)) then (w282.teFree (5 : ℕ)).teStatus (0 : BitVec (4 : ℕ)) else (((w282.teFree (5 : ℕ)).teStatus (0 : BitVec (4 : ℕ))).logEv (20 : ℕ) (1 : ℕ) srcDirector (0 : ℕ) (BitVec.setWidth (64 : ℕ) (0 : Page))).poisonPage (0 : Page) (9 : ℕ)).pwr, ld := (if (0 : BitVec (4 : ℕ)) = (0 : BitVec (4 : ℕ)) then (w282.teFree (5 : ℕ)).teStatus (0 : BitVec (4 : ℕ)) else (((w282.teFree (5 : ℕ)).teStatus (0 : BitVec (4 : ℕ))).logEv (20 : ℕ) (1 : ℕ) srcDirector (0 : ℕ) (BitVec.setWidth (64 : ℕ) (0 : Page))).poisonPage (0 : Page) (9 : ℕ)).ld, fb := (if (0 : BitVec (4 : ℕ)) = (0 : BitVec (4 : ℕ)) then (w282.teFree (5 : ℕ)).teStatus (0 : BitVec (4 : ℕ)) else (((w282.teFree (5 : ℕ)).teStatus (0 : BitVec (4 : ℕ))).logEv (20 : ℕ) (1 : ℕ) srcDirector (0 : ℕ) (BitVec.setWidth (64 : ℕ) (0 : Page))).poisonPage (0 : Page) (9 : ℕ)).fb, net := (if (0 : BitVec (4 : ℕ)) = (0 : BitVec (4 : ℕ)) then (w282.teFree (5 : ℕ)).teStatus (0 : BitVec (4 : ℕ)) else (((w282.teFree (5 : ℕ)).teStatus (0 : BitVec (4 : ℕ))).logEv (20 : ℕ) (1 : ℕ) srcDirector (0 : ℕ) (BitVec.setWidth (64 : ℕ) (0 : Page))).poisonPage (0 : Page) (9 : ℕ)).net, ring := (if (0 : BitVec (4 : ℕ)) = (0 : BitVec (4 : ℕ)) then (w282.teFree (5 : ℕ)).teStatus (0 : BitVec (4 : ℕ)) else (((w282.teFree (5 : ℕ)).teStatus (0 : BitVec (4 : ℕ))).logEv (20 : ℕ) (1 : ℕ) srcDirector (0 : ℕ) (BitVec.setWidth (64 : ℕ) (0 : Page))).poisonPage (0 : Page) (9 : ℕ)).ring, ringSnoops := (if (0 : BitVec (4 : ℕ)) = (0 : BitVec (4 : ℕ)) then (w282.teFree (5 : ℕ)).teStatus (0 : BitVec (4 : ℕ)) else (((w282.teFree (5 : ℕ)).teStatus (0 : BitVec (4 : ℕ))).logEv (20 : ℕ) (1 : ℕ) srcDirector (0 : ℕ) (BitVec.setWidth (64 : ℕ) (0 : Page))).poisonPage (0 : Page) (9 : ℕ)).ringSnoops, ev := (if (0 : BitVec (4 : ℕ)) = (0 : BitVec (4 : ℕ)) then (w282.teFree (5 : ℕ)).teStatus (0 : BitVec (4 : ℕ)) else (((w282.teFree (5 : ℕ)).teStatus (0 : BitVec (4 : ℕ))).logEv (20 : ℕ) (1 : ℕ) srcDirector (0 : ℕ) (BitVec.setWidth (64 : ℕ) (0 : Page))).poisonPage (0 : Page) (9 : ℕ)).ev : State }.root.manifest.length)) ∧
    (((5 : ℕ) < (256 : ℕ)) ∧
      (w283.teCmd (5 : ℕ) = some { ctag := (5 : ℕ), op := TeOp.savePage (0 : ℕ) (0 : BitVec (2 : ℕ)) (0 : ℕ) false, use := PerUse.save (0 : ℕ) : TeCmd }) ∧
      (((w283.teFree (5 : ℕ)).teStatus (4 : BitVec (4 : ℕ))).root.manifest[(0 : ℕ)]? = some (0 : Page)) ∧
      (leading ((if (4 : BitVec (4 : ℕ)) = (0 : BitVec (4 : ℕ)) then (w283.teFree (5 : ℕ)).teStatus (4 : BitVec (4 : ℕ)) else (((w283.teFree (5 : ℕ)).teStatus (4 : BitVec (4 : ℕ))).logEv (20 : ℕ) (1 : ℕ) srcDirector (0 : ℕ) (BitVec.setWidth (64 : ℕ) (0 : Page))).poisonPage (0 : Page) (9 : ℕ)).root.acked.length + (1 : ℕ)) ((0 : ℕ) :: (if (4 : BitVec (4 : ℕ)) = (0 : BitVec (4 : ℕ)) then (w283.teFree (5 : ℕ)).teStatus (4 : BitVec (4 : ℕ)) else (((w283.teFree (5 : ℕ)).teStatus (4 : BitVec (4 : ℕ))).logEv (20 : ℕ) (1 : ℕ) srcDirector (0 : ℕ) (BitVec.setWidth (64 : ℕ) (0 : Page))).poisonPage (0 : Page) (9 : ℕ)).root.acked) (if (4 : BitVec (4 : ℕ)) = (0 : BitVec (4 : ℕ)) then (w283.teFree (5 : ℕ)).teStatus (4 : BitVec (4 : ℕ)) else (((w283.teFree (5 : ℕ)).teStatus (4 : BitVec (4 : ℕ))).logEv (20 : ℕ) (1 : ℕ) srcDirector (0 : ℕ) (BitVec.setWidth (64 : ℕ) (0 : Page))).poisonPage (0 : Page) (9 : ℕ)).root.progress ≠ { variant := (if (4 : BitVec (4 : ℕ)) = (0 : BitVec (4 : ℕ)) then (w283.teFree (5 : ℕ)).teStatus (4 : BitVec (4 : ℕ)) else (((w283.teFree (5 : ℕ)).teStatus (4 : BitVec (4 : ℕ))).logEv (20 : ℕ) (1 : ℕ) srcDirector (0 : ℕ) (BitVec.setWidth (64 : ℕ) (0 : Page))).poisonPage (0 : Page) (9 : ℕ)).variant, pending := (if (4 : BitVec (4 : ℕ)) = (0 : BitVec (4 : ℕ)) then (w283.teFree (5 : ℕ)).teStatus (4 : BitVec (4 : ℕ)) else (((w283.teFree (5 : ℕ)).teStatus (4 : BitVec (4 : ℕ))).logEv (20 : ℕ) (1 : ℕ) srcDirector (0 : ℕ) (BitVec.setWidth (64 : ℕ) (0 : Page))).poisonPage (0 : Page) (9 : ℕ)).pending, free := (if (4 : BitVec (4 : ℕ)) = (0 : BitVec (4 : ℕ)) then (w283.teFree (5 : ℕ)).teStatus (4 : BitVec (4 : ℕ)) else (((w283.teFree (5 : ℕ)).teStatus (4 : BitVec (4 : ℕ))).logEv (20 : ℕ) (1 : ℕ) srcDirector (0 : ℕ) (BitVec.setWidth (64 : ℕ) (0 : Page))).poisonPage (0 : Page) (9 : ℕ)).free, pins := (if (4 : BitVec (4 : ℕ)) = (0 : BitVec (4 : ℕ)) then (w283.teFree (5 : ℕ)).teStatus (4 : BitVec (4 : ℕ)) else (((w283.teFree (5 : ℕ)).teStatus (4 : BitVec (4 : ℕ))).logEv (20 : ℕ) (1 : ℕ) srcDirector (0 : ℕ) (BitVec.setWidth (64 : ℕ) (0 : Page))).poisonPage (0 : Page) (9 : ℕ)).pins, gl := (if (4 : BitVec (4 : ℕ)) = (0 : BitVec (4 : ℕ)) then (w283.teFree (5 : ℕ)).teStatus (4 : BitVec (4 : ℕ)) else (((w283.teFree (5 : ℕ)).teStatus (4 : BitVec (4 : ℕ))).logEv (20 : ℕ) (1 : ℕ) srcDirector (0 : ℕ) (BitVec.setWidth (64 : ℕ) (0 : Page))).poisonPage (0 : Page) (9 : ℕ)).gl, regs := (if (4 : BitVec (4 : ℕ)) = (0 : BitVec (4 : ℕ)) then (w283.teFree (5 : ℕ)).teStatus (4 : BitVec (4 : ℕ)) else (((w283.teFree (5 : ℕ)).teStatus (4 : BitVec (4 : ℕ))).logEv (20 : ℕ) (1 : ℕ) srcDirector (0 : ℕ) (BitVec.setWidth (64 : ℕ) (0 : Page))).poisonPage (0 : Page) (9 : ℕ)).regs, cfg := (if (4 : BitVec (4 : ℕ)) = (0 : BitVec (4 : ℕ)) then (w283.teFree (5 : ℕ)).teStatus (4 : BitVec (4 : ℕ)) else (((w283.teFree (5 : ℕ)).teStatus (4 : BitVec (4 : ℕ))).logEv (20 : ℕ) (1 : ℕ) srcDirector (0 : ℕ) (BitVec.setWidth (64 : ℕ) (0 : Page))).poisonPage (0 : Page) (9 : ℕ)).cfg, hostPorts := (if (4 : BitVec (4 : ℕ)) = (0 : BitVec (4 : ℕ)) then (w283.teFree (5 : ℕ)).teStatus (4 : BitVec (4 : ℕ)) else (((w283.teFree (5 : ℕ)).teStatus (4 : BitVec (4 : ℕ))).logEv (20 : ℕ) (1 : ℕ) srcDirector (0 : ℕ) (BitVec.setWidth (64 : ℕ) (0 : Page))).poisonPage (0 : Page) (9 : ℕ)).hostPorts, hids := (if (4 : BitVec (4 : ℕ)) = (0 : BitVec (4 : ℕ)) then (w283.teFree (5 : ℕ)).teStatus (4 : BitVec (4 : ℕ)) else (((w283.teFree (5 : ℕ)).teStatus (4 : BitVec (4 : ℕ))).logEv (20 : ℕ) (1 : ℕ) srcDirector (0 : ℕ) (BitVec.setWidth (64 : ℕ) (0 : Page))).poisonPage (0 : Page) (9 : ℕ)).hids, agentPorts := (if (4 : BitVec (4 : ℕ)) = (0 : BitVec (4 : ℕ)) then (w283.teFree (5 : ℕ)).teStatus (4 : BitVec (4 : ℕ)) else (((w283.teFree (5 : ℕ)).teStatus (4 : BitVec (4 : ℕ))).logEv (20 : ℕ) (1 : ℕ) srcDirector (0 : ℕ) (BitVec.setWidth (64 : ℕ) (0 : Page))).poisonPage (0 : Page) (9 : ℕ)).agentPorts, slices := (if (4 : BitVec (4 : ℕ)) = (0 : BitVec (4 : ℕ)) then (w283.teFree (5 : ℕ)).teStatus (4 : BitVec (4 : ℕ)) else (((w283.teFree (5 : ℕ)).teStatus (4 : BitVec (4 : ℕ))).logEv (20 : ℕ) (1 : ℕ) srcDirector (0 : ℕ) (BitVec.setWidth (64 : ℕ) (0 : Page))).poisonPage (0 : Page) (9 : ℕ)).slices, memPorts := (if (4 : BitVec (4 : ℕ)) = (0 : BitVec (4 : ℕ)) then (w283.teFree (5 : ℕ)).teStatus (4 : BitVec (4 : ℕ)) else (((w283.teFree (5 : ℕ)).teStatus (4 : BitVec (4 : ℕ))).logEv (20 : ℕ) (1 : ℕ) srcDirector (0 : ℕ) (BitVec.setWidth (64 : ℕ) (0 : Page))).poisonPage (0 : Page) (9 : ℕ)).memPorts, spill := (if (4 : BitVec (4 : ℕ)) = (0 : BitVec (4 : ℕ)) then (w283.teFree (5 : ℕ)).teStatus (4 : BitVec (4 : ℕ)) else (((w283.teFree (5 : ℕ)).teStatus (4 : BitVec (4 : ℕ))).logEv (20 : ℕ) (1 : ℕ) srcDirector (0 : ℕ) (BitVec.setWidth (64 : ℕ) (0 : Page))).poisonPage (0 : Page) (9 : ℕ)).spill, cast := (if (4 : BitVec (4 : ℕ)) = (0 : BitVec (4 : ℕ)) then (w283.teFree (5 : ℕ)).teStatus (4 : BitVec (4 : ℕ)) else (((w283.teFree (5 : ℕ)).teStatus (4 : BitVec (4 : ℕ))).logEv (20 : ℕ) (1 : ℕ) srcDirector (0 : ℕ) (BitVec.setWidth (64 : ℕ) (0 : Page))).poisonPage (0 : Page) (9 : ℕ)).cast, dir := (if (4 : BitVec (4 : ℕ)) = (0 : BitVec (4 : ℕ)) then (w283.teFree (5 : ℕ)).teStatus (4 : BitVec (4 : ℕ)) else (((w283.teFree (5 : ℕ)).teStatus (4 : BitVec (4 : ℕ))).logEv (20 : ℕ) (1 : ℕ) srcDirector (0 : ℕ) (BitVec.setWidth (64 : ℕ) (0 : Page))).poisonPage (0 : Page) (9 : ℕ)).dir, dctl := (if (4 : BitVec (4 : ℕ)) = (0 : BitVec (4 : ℕ)) then (w283.teFree (5 : ℕ)).teStatus (4 : BitVec (4 : ℕ)) else (((w283.teFree (5 : ℕ)).teStatus (4 : BitVec (4 : ℕ))).logEv (20 : ℕ) (1 : ℕ) srcDirector (0 : ℕ) (BitVec.setWidth (64 : ℕ) (0 : Page))).poisonPage (0 : Page) (9 : ℕ)).dctl, root := have __src := (if (4 : BitVec (4 : ℕ)) = (0 : BitVec (4 : ℕ)) then (w283.teFree (5 : ℕ)).teStatus (4 : BitVec (4 : ℕ)) else (((w283.teFree (5 : ℕ)).teStatus (4 : BitVec (4 : ℕ))).logEv (20 : ℕ) (1 : ℕ) srcDirector (0 : ℕ) (BitVec.setWidth (64 : ℕ) (0 : Page))).poisonPage (0 : Page) (9 : ℕ)).root; { stage := __src.stage, found := __src.found, hdr := __src.hdr, pinLines := __src.pinLines, seq := __src.seq, nextSecond := __src.nextSecond, saveState := __src.saveState, held := __src.held, unsaved := __src.unsaved, rootBad := __src.rootBad, last := __src.last, poisoned := __src.poisoned, poison := __src.poison, repin := __src.repin, writes := __src.writes, save := __src.save, manifest := __src.manifest, sent := __src.sent, acked := List.filter (fun (n : ℕ) => decide (leading ((if (4 : BitVec (4 : ℕ)) = (0 : BitVec (4 : ℕ)) then (w283.teFree (5 : ℕ)).teStatus (4 : BitVec (4 : ℕ)) else (((w283.teFree (5 : ℕ)).teStatus (4 : BitVec (4 : ℕ))).logEv (20 : ℕ) (1 : ℕ) srcDirector (0 : ℕ) (BitVec.setWidth (64 : ℕ) (0 : Page))).poisonPage (0 : Page) (9 : ℕ)).root.acked.length + (1 : ℕ)) ((0 : ℕ) :: (if (4 : BitVec (4 : ℕ)) = (0 : BitVec (4 : ℕ)) then (w283.teFree (5 : ℕ)).teStatus (4 : BitVec (4 : ℕ)) else (((w283.teFree (5 : ℕ)).teStatus (4 : BitVec (4 : ℕ))).logEv (20 : ℕ) (1 : ℕ) srcDirector (0 : ℕ) (BitVec.setWidth (64 : ℕ) (0 : Page))).poisonPage (0 : Page) (9 : ℕ)).root.acked) (if (4 : BitVec (4 : ℕ)) = (0 : BitVec (4 : ℕ)) then (w283.teFree (5 : ℕ)).teStatus (4 : BitVec (4 : ℕ)) else (((w283.teFree (5 : ℕ)).teStatus (4 : BitVec (4 : ℕ))).logEv (20 : ℕ) (1 : ℕ) srcDirector (0 : ℕ) (BitVec.setWidth (64 : ℕ) (0 : Page))).poisonPage (0 : Page) (9 : ℕ)).root.progress ≤ n)) ((0 : ℕ) :: (if (4 : BitVec (4 : ℕ)) = (0 : BitVec (4 : ℕ)) then (w283.teFree (5 : ℕ)).teStatus (4 : BitVec (4 : ℕ)) else (((w283.teFree (5 : ℕ)).teStatus (4 : BitVec (4 : ℕ))).logEv (20 : ℕ) (1 : ℕ) srcDirector (0 : ℕ) (BitVec.setWidth (64 : ℕ) (0 : Page))).poisonPage (0 : Page) (9 : ℕ)).root.acked), progress := leading ((if (4 : BitVec (4 : ℕ)) = (0 : BitVec (4 : ℕ)) then (w283.teFree (5 : ℕ)).teStatus (4 : BitVec (4 : ℕ)) else (((w283.teFree (5 : ℕ)).teStatus (4 : BitVec (4 : ℕ))).logEv (20 : ℕ) (1 : ℕ) srcDirector (0 : ℕ) (BitVec.setWidth (64 : ℕ) (0 : Page))).poisonPage (0 : Page) (9 : ℕ)).root.acked.length + (1 : ℕ)) ((0 : ℕ) :: (if (4 : BitVec (4 : ℕ)) = (0 : BitVec (4 : ℕ)) then (w283.teFree (5 : ℕ)).teStatus (4 : BitVec (4 : ℕ)) else (((w283.teFree (5 : ℕ)).teStatus (4 : BitVec (4 : ℕ))).logEv (20 : ℕ) (1 : ℕ) srcDirector (0 : ℕ) (BitVec.setWidth (64 : ℕ) (0 : Page))).poisonPage (0 : Page) (9 : ℕ)).root.acked) (if (4 : BitVec (4 : ℕ)) = (0 : BitVec (4 : ℕ)) then (w283.teFree (5 : ℕ)).teStatus (4 : BitVec (4 : ℕ)) else (((w283.teFree (5 : ℕ)).teStatus (4 : BitVec (4 : ℕ))).logEv (20 : ℕ) (1 : ℕ) srcDirector (0 : ℕ) (BitVec.setWidth (64 : ℕ) (0 : Page))).poisonPage (0 : Page) (9 : ℕ)).root.progress : Root }, eg := (if (4 : BitVec (4 : ℕ)) = (0 : BitVec (4 : ℕ)) then (w283.teFree (5 : ℕ)).teStatus (4 : BitVec (4 : ℕ)) else (((w283.teFree (5 : ℕ)).teStatus (4 : BitVec (4 : ℕ))).logEv (20 : ℕ) (1 : ℕ) srcDirector (0 : ℕ) (BitVec.setWidth (64 : ℕ) (0 : Page))).poisonPage (0 : Page) (9 : ℕ)).eg, pwr := (if (4 : BitVec (4 : ℕ)) = (0 : BitVec (4 : ℕ)) then (w283.teFree (5 : ℕ)).teStatus (4 : BitVec (4 : ℕ)) else (((w283.teFree (5 : ℕ)).teStatus (4 : BitVec (4 : ℕ))).logEv (20 : ℕ) (1 : ℕ) srcDirector (0 : ℕ) (BitVec.setWidth (64 : ℕ) (0 : Page))).poisonPage (0 : Page) (9 : ℕ)).pwr, ld := (if (4 : BitVec (4 : ℕ)) = (0 : BitVec (4 : ℕ)) then (w283.teFree (5 : ℕ)).teStatus (4 : BitVec (4 : ℕ)) else (((w283.teFree (5 : ℕ)).teStatus (4 : BitVec (4 : ℕ))).logEv (20 : ℕ) (1 : ℕ) srcDirector (0 : ℕ) (BitVec.setWidth (64 : ℕ) (0 : Page))).poisonPage (0 : Page) (9 : ℕ)).ld, fb := (if (4 : BitVec (4 : ℕ)) = (0 : BitVec (4 : ℕ)) then (w283.teFree (5 : ℕ)).teStatus (4 : BitVec (4 : ℕ)) else (((w283.teFree (5 : ℕ)).teStatus (4 : BitVec (4 : ℕ))).logEv (20 : ℕ) (1 : ℕ) srcDirector (0 : ℕ) (BitVec.setWidth (64 : ℕ) (0 : Page))).poisonPage (0 : Page) (9 : ℕ)).fb, net := (if (4 : BitVec (4 : ℕ)) = (0 : BitVec (4 : ℕ)) then (w283.teFree (5 : ℕ)).teStatus (4 : BitVec (4 : ℕ)) else (((w283.teFree (5 : ℕ)).teStatus (4 : BitVec (4 : ℕ))).logEv (20 : ℕ) (1 : ℕ) srcDirector (0 : ℕ) (BitVec.setWidth (64 : ℕ) (0 : Page))).poisonPage (0 : Page) (9 : ℕ)).net, ring := (if (4 : BitVec (4 : ℕ)) = (0 : BitVec (4 : ℕ)) then (w283.teFree (5 : ℕ)).teStatus (4 : BitVec (4 : ℕ)) else (((w283.teFree (5 : ℕ)).teStatus (4 : BitVec (4 : ℕ))).logEv (20 : ℕ) (1 : ℕ) srcDirector (0 : ℕ) (BitVec.setWidth (64 : ℕ) (0 : Page))).poisonPage (0 : Page) (9 : ℕ)).ring, ringSnoops := (if (4 : BitVec (4 : ℕ)) = (0 : BitVec (4 : ℕ)) then (w283.teFree (5 : ℕ)).teStatus (4 : BitVec (4 : ℕ)) else (((w283.teFree (5 : ℕ)).teStatus (4 : BitVec (4 : ℕ))).logEv (20 : ℕ) (1 : ℕ) srcDirector (0 : ℕ) (BitVec.setWidth (64 : ℕ) (0 : Page))).poisonPage (0 : Page) (9 : ℕ)).ringSnoops, ev := (if (4 : BitVec (4 : ℕ)) = (0 : BitVec (4 : ℕ)) then (w283.teFree (5 : ℕ)).teStatus (4 : BitVec (4 : ℕ)) else (((w283.teFree (5 : ℕ)).teStatus (4 : BitVec (4 : ℕ))).logEv (20 : ℕ) (1 : ℕ) srcDirector (0 : ℕ) (BitVec.setWidth (64 : ℕ) (0 : Page))).poisonPage (0 : Page) (9 : ℕ)).ev : State }.root.manifest.length) ∧
      ((if (4 : BitVec (4 : ℕ)) = (0 : BitVec (4 : ℕ)) then (w283.teFree (5 : ℕ)).teStatus (4 : BitVec (4 : ℕ)) else (((w283.teFree (5 : ℕ)).teStatus (4 : BitVec (4 : ℕ))).logEv (20 : ℕ) (1 : ℕ) srcDirector (0 : ℕ) (BitVec.setWidth (64 : ℕ) (0 : Page))).poisonPage (0 : Page) (9 : ℕ)).root.progress / (1048576 : ℕ) = leading ((if (4 : BitVec (4 : ℕ)) = (0 : BitVec (4 : ℕ)) then (w283.teFree (5 : ℕ)).teStatus (4 : BitVec (4 : ℕ)) else (((w283.teFree (5 : ℕ)).teStatus (4 : BitVec (4 : ℕ))).logEv (20 : ℕ) (1 : ℕ) srcDirector (0 : ℕ) (BitVec.setWidth (64 : ℕ) (0 : Page))).poisonPage (0 : Page) (9 : ℕ)).root.acked.length + (1 : ℕ)) ((0 : ℕ) :: (if (4 : BitVec (4 : ℕ)) = (0 : BitVec (4 : ℕ)) then (w283.teFree (5 : ℕ)).teStatus (4 : BitVec (4 : ℕ)) else (((w283.teFree (5 : ℕ)).teStatus (4 : BitVec (4 : ℕ))).logEv (20 : ℕ) (1 : ℕ) srcDirector (0 : ℕ) (BitVec.setWidth (64 : ℕ) (0 : Page))).poisonPage (0 : Page) (9 : ℕ)).root.acked) (if (4 : BitVec (4 : ℕ)) = (0 : BitVec (4 : ℕ)) then (w283.teFree (5 : ℕ)).teStatus (4 : BitVec (4 : ℕ)) else (((w283.teFree (5 : ℕ)).teStatus (4 : BitVec (4 : ℕ))).logEv (20 : ℕ) (1 : ℕ) srcDirector (0 : ℕ) (BitVec.setWidth (64 : ℕ) (0 : Page))).poisonPage (0 : Page) (9 : ℕ)).root.progress / (1048576 : ℕ))) := by
  and_intros <;> first
    | exact .head _
    | rfl
    | exact ⟨_, _, rfl⟩
    | exact .inl rfl
    | exact ⟨1, _, by decide, by decide, by decide, rfl, rfl⟩
    | exact .inr (.inl (by decide))
    | exact noReturns (by decide)
    | decide
    | exact fun h => absurd h.1 (by decide)
    | simp
    | (intro _ h; cases h)

/-- The hypotheses of HintRingsAndListReads, one line of conditions for each clause. -/
theorem witness_HintRingsAndListReads :
    ((w284.net.contains (NMsg.doorbell (1 : ℕ)) = true) ∧
      ((1 : ℕ) < w284.pdRings)) ∧
    (((upDN dNear [NMsg.doorbell (20000 : ℕ)]).net.contains (NMsg.doorbell (20000 : ℕ)) = true) ∧
      ((upDN dNear [NMsg.doorbell (20000 : ℕ)]).pdRings ≤ (20000 : ℕ))) ∧
    ((w285.dctl.pollDue = false)) ∧
    ((upDue.dctl.pollDue = true)) ∧
    ((w286.dctl.ctxs = [{ ring := (1 : ℕ), slot := (0 : ℕ), line := (0 : Line), idx := (0 : ℕ), stage := HintStage.readWait, status := (0 : BitVec (8 : ℕ)), entry := (0 : W64) : HintCtx }]) ∧
      ({ ring := (1 : ℕ), slot := (0 : ℕ), line := (0 : Line), idx := (0 : ℕ), stage := HintStage.readWait, status := (0 : BitVec (8 : ℕ)), entry := (0 : W64) : HintCtx }.ring = (1 : ℕ)) ∧
      ({ ring := (1 : ℕ), slot := (0 : ℕ), line := (0 : Line), idx := (0 : ℕ), stage := HintStage.readWait, status := (0 : BitVec (8 : ℕ)), entry := (0 : W64) : HintCtx }.stage = HintStage.readWait) ∧
      (w286.dctl.slotDone = [(ringTag (1 : ℕ) (0 : ℕ), some (0 : Line))]) ∧
      (slotOwn (0 : Line) = false)) ∧
    ((w287.dctl.ctxs = [{ ring := (1 : ℕ), slot := (0 : ℕ), line := (0 : Line), idx := (0 : ℕ), stage := HintStage.readWait, status := (0 : BitVec (8 : ℕ)), entry := (0 : W64) : HintCtx }]) ∧
      ({ ring := (1 : ℕ), slot := (0 : ℕ), line := (0 : Line), idx := (0 : ℕ), stage := HintStage.readWait, status := (0 : BitVec (8 : ℕ)), entry := (0 : W64) : HintCtx }.ring = (1 : ℕ)) ∧
      ({ ring := (1 : ℕ), slot := (0 : ℕ), line := (0 : Line), idx := (0 : ℕ), stage := HintStage.readWait, status := (0 : BitVec (8 : ℕ)), entry := (0 : W64) : HintCtx }.stage = HintStage.readWait) ∧
      (w287.dctl.slotDone = [(ringTag (1 : ℕ) (0 : ℕ), some (↑((1 : ℕ) <<< (504 : ℕ)) ||| ↑((1 : ℕ) <<< (32 : ℕ)) ||| (2 : Line)))]) ∧
      (slotOwn (↑((1 : ℕ) <<< (504 : ℕ)) ||| ↑((1 : ℕ) <<< (32 : ℕ)) ||| (2 : Line)) = true) ∧
      (slotRefused (↑((1 : ℕ) <<< (504 : ℕ)) ||| ↑((1 : ℕ) <<< (32 : ℕ)) ||| (2 : Line)) (decide ((1 : ℕ) < w287.pdPrivRings)) = none)) ∧
    ((w288.pinWriting (0 : Page) = false) ∧
      (w288.stampsOut (0 : Page) = false) ∧
      (w288.dctl.ctxs = []) ∧
      (w288.dctl.list.busy = true) ∧
      (w288.dctl.list.op = (1 : BitVec (3 : ℕ))) ∧
      (w288.dctl.list.cur = some (0 : Page)) ∧
      (w288.dctl.list.stage = HintStage.pinWrite)) ∧
    ((w289.dctl.list.reads = [((2 : ℕ), (0 : ℕ), true)]) ∧
      (w289.dctl.list.busy = true)) ∧
    ((w289.dctl.list.reads = [((2 : ℕ), (0 : ℕ), true)]) ∧
      (w289.dctl.list.busy = true) ∧
      (w289.dctl.list.stopping = none)) ∧
    ((w289.dctl.list.reads = [((2 : ℕ), (0 : ℕ), true)]) ∧
      (w289.dctl.list.busy = true) ∧
      ((0 : ℕ) ≠ (2 : ℕ)) ∧
      (w289.ld.fetch = some { step := FetchStep.header, slotB := true, page0 := [(1 : BitVec (8 : ℕ))], tags := [(0 : ℕ)] : Fetch }) ∧
      ({ step := FetchStep.header, slotB := true, page0 := [(1 : BitVec (8 : ℕ))], tags := [(0 : ℕ)] : Fetch }.tags.contains (0 : ℕ) = true)) := by
  and_intros <;> first
    | exact .head _
    | rfl
    | exact ⟨_, _, rfl⟩
    | exact .inl rfl
    | exact ⟨1, _, by decide, by decide, by decide, rfl, rfl⟩
    | exact .inr (.inl (by decide))
    | exact noReturns (by decide)
    | decide
    | exact fun h => absurd h.1 (by decide)
    | simp
    | (intro _ h; cases h)

/-- The hypotheses of PowerOnResetsAndSelfTests, one line of conditions for each clause. -/
theorem witness_PowerOnResetsAndSelfTests :
    ((w290.slice (0 : ℕ) = some (Slice.blank (16 : ℕ) (8 : ℕ))) ∧
      (w290.pins.blkPor = true) ∧
      ((0 : ℕ) < w290.variant.phys) ∧
      (bitAt w290.pins.fuseOff (0 : ℕ) = false) ∧
      ((Slice.blank (16 : ℕ) (8 : ℕ)).ident.selfTest = none) ∧
      (w290.gl.phase = (1 : BitVec (3 : ℕ))) ∧
      (∃ (q : ℕ) (x : Slice), q ≠ (0 : ℕ) ∧ q < w290.variant.phys ∧ bitAt w290.pins.fuseOff q = false ∧ w290.slice q = some x ∧ x.ident.selfTest = none)) ∧
    (((upW (17 : ℕ)).slice (3 : ℕ) = some w292) ∧
      (w292.ident.selfTest ≠ none ∨ bitAt (upW (17 : ℕ)).pins.fuseOff (3 : ℕ) = true)) := by
  and_intros <;> first
    | exact .head _
    | rfl
    | exact ⟨_, _, rfl⟩
    | exact .inl rfl
    | exact ⟨1, _, by decide, by decide, by decide, rfl, rfl⟩
    | exact .inr (.inl (by decide))
    | exact noReturns (by decide)
    | decide
    | exact fun h => absurd h.1 (by decide)
    | simp
    | (intro _ h; cases h)

/-- The hypotheses of TheLoaderTriesTheLaterSlotFirst, one line of conditions for each clause. -/
theorem witness_TheLoaderTriesTheLaterSlotFirst :
    ((w293.ld.state = LdState.sfdp) ∧
      (sf3.ok = true) ∧
      (headerUsable w293.variant hdr16 = true) ∧
      (headerUsable w293.variant hdr16 = true)) ∧
    ((w293.ld.state = LdState.sfdp) ∧
      (headerUsable w293.variant [] = false) ∧
      (headerUsable w293.variant [] = false)) ∧
    ((w293.ld.state = LdState.sfdp) ∧
      (w295 = none ∨ w295 = some w294 ∧ w294.ok = false)) ∧
    ((w296.ld.state = LdState.loading) ∧
      (w296.ld.accepted = false) ∧
      (w296.ld.toTry = [(false, (7 : W32)), (true, (6 : W32))]) ∧
      (w296.gl.phase ≠ (6 : BitVec (3 : ℕ)))) ∧
    ((w297.ld.state = LdState.rot) ∧
      (w297.ld.reload = none) ∧
      (w297.ld.toTry = [(false, (7 : W32)), (true, (6 : W32))]) ∧
      ([(true, (6 : W32))] ≠ [])) ∧
    ((up.ld.state ≠ LdState.rot)) := by
  and_intros <;> first
    | exact .head _
    | rfl
    | exact ⟨_, _, rfl⟩
    | exact .inl rfl
    | exact ⟨1, _, by decide, by decide, by decide, rfl, rfl⟩
    | exact .inr (.inl (by decide))
    | exact noReturns (by decide)
    | decide
    | exact fun h => absurd h.1 (by decide)
    | simp
    | (intro _ h; cases h)

/-- The hypotheses of TheWalkNumbersTheEligibleSlices, one line of conditions for each clause. -/
theorem witness_TheWalkNumbersTheEligibleSlices :
    (((upW (17 : ℕ)).slice (3 : ℕ) = some w292) ∧
      ((3 : ℕ) < (upW (17 : ℕ)).variant.phys) ∧
      ((upW (17 : ℕ)).cast.homes.length = (16 : ℕ)) ∧
      ((upW (17 : ℕ)).variant.active ≤ (List.filter (fun (q : ℕ) => ((upW (17 : ℕ)).eligible q (upW (17 : ℕ)).cfg.excl).isNone) (List.range (upW (17 : ℕ)).variant.phys)).length)) ∧
    (((upW (17 : ℕ)).slice (16 : ℕ) = some w292) ∧
      ((16 : ℕ) < (upW (17 : ℕ)).variant.phys) ∧
      ((upW (17 : ℕ)).cast.homes.length = (16 : ℕ)) ∧
      ((upW (17 : ℕ)).variant.active ≤ (List.filter (fun (q : ℕ) => ((upW (17 : ℕ)).eligible q (upW (17 : ℕ)).cfg.excl).isNone) (List.range (upW (17 : ℕ)).variant.phys)).length)) ∧
    (((upW (16 : ℕ)).slice (16 : ℕ) = some w298) ∧
      ((16 : ℕ) < (upW (16 : ℕ)).variant.phys) ∧
      ((upW (16 : ℕ)).cast.homes.length = (16 : ℕ)) ∧
      ((upW (16 : ℕ)).variant.active ≤ (List.filter (fun (q : ℕ) => ((upW (16 : ℕ)).eligible q (upW (16 : ℕ)).cfg.excl).isNone) (List.range (upW (16 : ℕ)).variant.phys)).length)) := by
  and_intros <;> first
    | exact .head _
    | rfl
    | exact ⟨_, _, rfl⟩
    | exact .inl rfl
    | exact ⟨1, _, by decide, by decide, by decide, rfl, rfl⟩
    | exact .inr (.inl (by decide))
    | exact noReturns (by decide)
    | decide
    | exact fun h => absurd h.1 (by decide)
    | simp
    | (intro _ h; cases h)

/-- The hypotheses of TheWalkAndTheRestartOpenTheBlock, one line of conditions for each clause. -/
theorem witness_TheWalkAndTheRestartOpenTheBlock :
    ((up.testsDone = false ∨ up.ld.accepted = false)) ∧
    ((w299.testsDone = true) ∧
      (w299.ld.accepted = true) ∧
      (w299.ld.state = LdState.loading) ∧
      (∀ p < w299.variant.phys, (w299.eligible p (mapOf w299.cfg w299.ld.image).excl).isSome = true) ∧
      (w299.eg.pstate = PState.start)) ∧
    (((upW (17 : ℕ)).testsDone = true) ∧
      ((upW (17 : ℕ)).ld.accepted = true) ∧
      ((upW (17 : ℕ)).ld.state = LdState.loading) ∧
      ((upW (17 : ℕ)).variant.active ≤ (List.filter (fun (p : ℕ) => ((upW (17 : ℕ)).eligible p (mapOf (upW (17 : ℕ)).cfg (upW (17 : ℕ)).ld.image).excl).isNone) (List.range (upW (17 : ℕ)).variant.phys)).length)) ∧
    ((up.gl.phase ≠ (4 : BitVec (3 : ℕ)) ∨ up.root.stage ≠ RootStage.ready)) ∧
    ((w300.eg.pstate = PState.start) ∧
      (w300.root.stage = RootStage.ready) ∧
      (w300.gl.phase = (4 : BitVec (3 : ℕ)))) := by
  and_intros <;> first
    | exact .head _
    | rfl
    | exact ⟨_, _, rfl⟩
    | exact .inl rfl
    | exact ⟨1, _, by decide, by decide, by decide, rfl, rfl⟩
    | exact .inr (.inl (by decide))
    | exact noReturns (by decide)
    | decide
    | exact fun h => absurd h.1 (by decide)
    | simp
    | (intro _ h; cases h)

/-- The hypotheses of ReloadsAndFetches, one line of conditions for each clause. -/
theorem witness_ReloadsAndFetches :
    ((up.pwr.warmAck = false ∨ up.ld.armed = false)) ∧
    ((upR.pwr.warm = true) ∧
      (upR.pwr.warmAck = true) ∧
      (upR.ld.armed = true) ∧
      (upR.ld.busy = false) ∧
      (upR.ld.sfdp.isSome = true) ∧
      (headerUsable upR.variant [] = false) ∧
      (headerUsable upR.variant [] = false)) ∧
    ((upR.pwr.warm = true) ∧
      (upR.pwr.warmAck = true) ∧
      (upR.ld.armed = true) ∧
      (upR.ld.busy = false) ∧
      (upR.ld.sfdp.isSome = true) ∧
      (upR.pins.rotEn = false) ∧
      (headerUsable upR.variant hdr16 = true) ∧
      (headerUsable upR.variant [] = false)) ∧
    ((w301.ld.fetch = some (fe FetchStep.eraseFirst)) ∧
      ((fe FetchStep.eraseFirst).step = FetchStep.eraseFirst) ∧
      (w301.norErase < w301.fetchLen)) ∧
    (((upF (FetchStep.page (1 : ℕ))).ld.fetch = some (fe (FetchStep.page (1 : ℕ)))) ∧
      ((fe (FetchStep.page (1 : ℕ))).step = FetchStep.page (1 : ℕ))) ∧
    (((upF FetchStep.compare).ld.fetch = some (fe FetchStep.compare)) ∧
      ((fe FetchStep.compare).step = FetchStep.compare)) ∧
    (((upF (FetchStep.program (1 : ℕ))).ld.fetch = some (fe (FetchStep.program (1 : ℕ)))) ∧
      ((fe (FetchStep.program (1 : ℕ))).step = FetchStep.eraseFirst ∨ (fe (FetchStep.program (1 : ℕ))).step = FetchStep.eraseRest (1 : ℕ) ∨ (fe (FetchStep.program (1 : ℕ))).step = FetchStep.program (1 : ℕ) ∨ (fe (FetchStep.program (1 : ℕ))).step = FetchStep.programHeader)) ∧
    (((upF FetchStep.verify).ld.fetch = some (fe FetchStep.verify)) ∧
      ((fe FetchStep.verify).step = FetchStep.verify)) ∧
    ((up.ld.fetch = none)) := by
  and_intros <;> first
    | exact .head _
    | rfl
    | exact ⟨_, _, rfl⟩
    | exact .inl rfl
    | exact ⟨1, _, by decide, by decide, by decide, rfl, rfl⟩
    | exact .inr (.inl (by decide))
    | exact noReturns (by decide)
    | decide
    | exact fun h => absurd h.1 (by decide)
    | simp
    | (intro _ h; cases h)

/-- The hypotheses of TheWarmResetDrainsAcknowledgesAndClears, one line of conditions for each clause. -/
theorem witness_TheWarmResetDrainsAcknowledgesAndClears :
    ((upR.pwr.warm = true)) ∧
    ((up.pwr.warm = false) ∧
      (up.eg.pstate = PState.normal) ∧
      (up.eg.drainReq = false) ∧
      (up.pwr.phase = PwrPhase.p0)) ∧
    ((w302.drained = true) ∧
      (w302.pwr.warm = true) ∧
      (w302.pwr.phase = PwrPhase.p0) ∧
      (w302.eg.pstate = PState.normal)) ∧
    ((w303.drained = true) ∧
      (w303.eg.pstate = PState.drain)) ∧
    (((upT (t0 q0)).drained = false)) ∧
    ((up.pwr.warm = false ∨ up.pwr.warmAck = false)) ∧
    ((w304.pwr.warm = true) ∧
      (w304.pwr.warmAck = true) ∧
      (w304.ld.armed = false) ∧
      (w304.ld.busy = false)) := by
  and_intros <;> first
    | exact .head _
    | rfl
    | exact ⟨_, _, rfl⟩
    | exact .inl rfl
    | exact ⟨1, _, by decide, by decide, by decide, rfl, rfl⟩
    | exact .inr (.inl (by decide))
    | exact noReturns (by decide)
    | decide
    | exact fun h => absurd h.1 (by decide)
    | simp
    | (intro _ h; cases h)

/-- The hypotheses of TheEndgameUnitFollowsTheFeed, one line of conditions for each clause. -/
theorem witness_TheEndgameUnitFollowsTheFeed :
    ((State.reset.pins.egPor = false)) ∧
    (((upE PState.normal).pins.egPor = true) ∧
      ((upE PState.normal).eg.pstate = PState.normal) ∧
      ({ sel := (1 : BitVec (2 : ℕ)), gatePg := true, efuseFlt := false, efuseRetry := false, pwarn := true : EgInputs }.sel ≠ (3 : BitVec (2 : ℕ))) ∧
      ({ sel := (1 : BitVec (2 : ℕ)), gatePg := true, efuseFlt := false, efuseRetry := false, pwarn := true : EgInputs }.efuseFlt = false) ∧
      (feedPins { sel := (1 : BitVec (2 : ℕ)), gatePg := true, efuseFlt := false, efuseRetry := false, pwarn := true : EgInputs } = false) ∧
      ((upE PState.normal).eg.calLoaded = false)) ∧
    (((upE PState.normal).pins.egPor = true) ∧
      ((upE PState.normal).eg.pstate = PState.normal) ∧
      ({ sel := (1 : BitVec (2 : ℕ)), gatePg := true, efuseFlt := true, efuseRetry := false, pwarn := false : EgInputs }.sel ≠ (3 : BitVec (2 : ℕ))) ∧
      ({ sel := (1 : BitVec (2 : ℕ)), gatePg := true, efuseFlt := true, efuseRetry := false, pwarn := false : EgInputs }.efuseFlt = true)) ∧
    (((upE PState.normal).pins.egPor = true) ∧
      ((8 : ℕ) ≤ (9 : ℕ) ∨ (9 : ℕ) ≠ (upE PState.normal).eg.adcNext)) ∧
    (((upE PState.normal).pins.egPor = true) ∧
      ((8 : ℕ) ≤ (4 : ℕ) ∨ (4 : ℕ) ≠ (upE PState.normal).eg.adcNext)) ∧
    ((upAdc.pins.egPor = true) ∧
      ((4 : ℕ) = upAdc.eg.adcNext) ∧
      ((4 : ℕ) = (0 : ℕ) ∨ (4 : ℕ) = (1 : ℕ) ∨ (4 : ℕ) = (4 : ℕ) ∨ (4 : ℕ) = (5 : ℕ))) ∧
    (((upE PState.ride).eg.pstate ≠ PState.normal ∨ (upE PState.ride).eg.calLoaded = false)) ∧
    ((w305.eg.pstate = PState.normal) ∧
      (w305.eg.calLoaded = true) ∧
      (w305.eg.frozen = false) ∧
      (w305.eg.sensor = false)) ∧
    (((upE PState.debounce).eg.pstate = PState.debounce) ∧
      ((upE PState.debounce).eg.good = true)) ∧
    (((upE PState.ride).eg.pstate = PState.ride)) ∧
    ((up.eg.pstate ≠ PState.ride)) ∧
    (((upE PState.ride).eg.pstate = PState.ride) ∧
      ((upE PState.ride).eg.good = true)) := by
  and_intros <;> first
    | exact .head _
    | rfl
    | exact ⟨_, _, rfl⟩
    | exact .inl rfl
    | exact ⟨1, _, by decide, by decide, by decide, rfl, rfl⟩
    | exact .inr (.inl (by decide))
    | exact noReturns (by decide)
    | decide
    | exact fun h => absurd h.1 (by decide)
    | simp
    | (intro _ h; cases h)

/-- The hypotheses of TheAllowanceFallsAtOnceAndRisesSlowly, one line of conditions for each clause. -/
theorem witness_TheAllowanceFallsAtOnceAndRisesSlowly :
    (((3 : ℕ) < w306.eg.allow)) ∧
    ((w306.eg.riseRun = (0 : ℕ)) ∧
      (∀ x ∈ [(12 : ℕ), (11 : ℕ)], w306.eg.allow < x) ∧
      ([(12 : ℕ), (11 : ℕ)].length < (100 : ℕ))) ∧
    ((w306.eg.riseRun = (0 : ℕ)) ∧
      (∀ x ∈ (12 : ℕ) :: List.replicate (99 : ℕ) (11 : ℕ), w306.eg.allow < x) ∧
      (((12 : ℕ) :: List.replicate (99 : ℕ) (11 : ℕ)).length = (100 : ℕ)) ∧
      ((11 : ℕ) ∈ (12 : ℕ) :: List.replicate (99 : ℕ) (11 : ℕ)) ∧
      (∀ x ∈ (12 : ℕ) :: List.replicate (99 : ℕ) (11 : ℕ), (11 : ℕ) ≤ x)) := by
  and_intros <;> first
    | exact .head _
    | rfl
    | exact ⟨_, _, rfl⟩
    | exact .inl rfl
    | exact ⟨1, _, by decide, by decide, by decide, rfl, rfl⟩
    | exact .inr (.inl (by decide))
    | exact noReturns (by decide)
    | decide
    | exact fun h => absurd h.1 (by decide)
    | simp
    | (intro _ h; cases h)

/-- The hypotheses of GpfFlushesThenDrains, one line of conditions for each clause. -/
theorem witness_GpfFlushesThenDrains :
    ((w307.pwr.phase = PwrPhase.entering)) ∧
    ((up.pwr.phase ≠ PwrPhase.entering)) ∧
    ((w308.pwr.gpf1 = true) ∧
      (∀ a ∈ w308.agentPorts, a.flush = (0 : BitVec (4 : ℕ)) ∧ a.held = [])) ∧
    ((w59 ∈ w309.agentPorts) ∧
      (w59.flush ≠ (0 : BitVec (4 : ℕ)))) ∧
    ((up.pwr.phase ≠ PwrPhase.entering) ∧
      (up.eg.pstate = PState.normal)) := by
  and_intros <;> first
    | exact .head _
    | rfl
    | exact ⟨_, _, rfl⟩
    | exact .inl rfl
    | exact ⟨1, _, by decide, by decide, by decide, rfl, rfl⟩
    | exact .inr (.inl (by decide))
    | exact noReturns (by decide)
    | decide
    | exact fun h => absurd h.1 (by decide)
    | simp
    | (intro _ h; cases h)

/-- The hypotheses of PowerStatesAreEnteredAndLeft, one line of conditions for each clause. -/
theorem witness_PowerStatesAreEnteredAndLeft :
    ((up.pwr.phase = PwrPhase.p0) ∧
      (up.gl.serving = true)) ∧
    ((State.reset.pwr.phase = PwrPhase.p0) ∧
      (State.reset.gl.serving = false)) ∧
    ((w202.pwr.phase = PwrPhase.p2)) ∧
    ((up.pwr.phase ≠ PwrPhase.entering)) ∧
    ((w310.pwr.phase = PwrPhase.entering) ∧
      (∀ sl ∈ w310.slices, sl.p2Ready = true) ∧
      (w310.cast.replays = []) ∧
      (∀ a ∈ w310.agentPorts, a.held = []) ∧
      (w310.pwr.gpfLater = []) ∧
      (w310.pwr.later = none) ∧
      (w310.pwr.warm = false)) ∧
    ((up.pwr.phase = PwrPhase.p0)) ∧
    ((w307.pwr.phase = PwrPhase.entering)) ∧
    ((w202.pwr.phase = PwrPhase.p2)) ∧
    ((w311.pwr.p3 = true)) ∧
    ((up.pwr.p3 = false) ∧
      (up.dctl.list.busy = false) ∧
      (up.ld.fetch = none) ∧
      (up.eg.pstate = PState.normal)) ∧
    (((2 : BitVec (2 : ℕ)) = (1 : BitVec (2 : ℕ)) ∨ (2 : BitVec (2 : ℕ)) = (2 : BitVec (2 : ℕ)))) := by
  and_intros <;> first
    | exact .head _
    | rfl
    | exact ⟨_, _, rfl⟩
    | exact .inl rfl
    | exact ⟨1, _, by decide, by decide, by decide, rfl, rfl⟩
    | exact .inr (.inl (by decide))
    | exact noReturns (by decide)
    | decide
    | exact fun h => absurd h.1 (by decide)
    | simp
    | (intro _ h; cases h)

/-- The hypotheses of CommandFieldsAreWritesOfTheirRegister, one line of conditions for each clause. -/
theorem witness_CommandFieldsAreWritesOfTheirRegister :
    (((3 : ℕ) < (17 : ℕ)) ∧
      ((Instr.pdListStart (ra (5 : W32)), (196680 : ℕ), (31 : ℕ)) ∈ [(Instr.pdListStart (ra (5 : W32)), (196680 : ℕ), (31 : ℕ)), (Instr.pdListAbort (ra (5 : W32)), (196680 : ℕ), (30 : ℕ)), (Instr.pdRingCtlReset (ra (5 : W32)), (196652 : ℕ), (31 : ℕ)), (Instr.fbTraceCtlFlush (ra (5 : W32)), (327680 : ℕ), (29 : ℕ)), (Instr.fbPrbCtlClear (3 : ℕ) (ra (5 : W32)), (327936 : ℕ) + (64 : ℕ) * (3 : ℕ), (25 : ℕ)), (Instr.slPmcClrCyc (3 : ℕ) (ra (5 : W32)), (8390792 : ℕ) + (262144 : ℕ) * (3 : ℕ), (8 : ℕ)), (Instr.slPeekGo (3 : ℕ) (ra (5 : W32)), (8389376 : ℕ) + (262144 : ℕ) * (3 : ℕ), (31 : ℕ)), (Instr.slMscPreStart (3 : ℕ) (ra (5 : W32)), (8388884 : ℕ) + (262144 : ℕ) * (3 : ℕ), (31 : ℕ)), (Instr.slMscPreAbort (3 : ℕ) (ra (5 : W32)), (8388884 : ℕ) + (262144 : ℕ) * (3 : ℕ), (30 : ℕ)), (Instr.ldCmdFetch (ra (5 : W32)), (65552 : ℕ), (31 : ℕ)), (Instr.ldCmdArmReload (ra (5 : W32)), (65552 : ℕ), (30 : ℕ)), (Instr.ldCmdDisarm (ra (5 : W32)), (65552 : ℕ), (29 : ℕ)), (Instr.ldCmdRetry (ra (5 : W32)), (65552 : ℕ), (28 : ℕ)), (Instr.ldRotAccept (ra (5 : W32)), (65556 : ℕ), (31 : ℕ)), (Instr.ldRotReject (ra (5 : W32)), (65556 : ℕ), (30 : ℕ)), (Instr.egCtlShutdown (ra (5 : W32)), (131076 : ℕ), (31 : ℕ)), (Instr.egCtlAcceptLoss (ra (5 : W32)), (131076 : ℕ), (30 : ℕ))])) := by
  and_intros <;> first
    | exact .head _
    | rfl
    | exact ⟨_, _, rfl⟩
    | exact .inl rfl
    | exact ⟨1, _, by decide, by decide, by decide, rfl, rfl⟩
    | exact .inr (.inl (by decide))
    | exact noReturns (by decide)
    | decide
    | exact fun h => absurd h.1 (by decide)
    | simp
    | (intro _ h; cases h)

/-- The hypotheses of LoaderAndEndgameCommandsAct, one line of conditions for each clause. -/
theorem witness_LoaderAndEndgameCommandsAct :
    (((ra (0 : W32)).be = (15 : BitVec (4 : ℕ))) ∧
      ((ra (0 : W32)).priv = true) ∧
      ((ra (0 : W32)).sec = true) ∧
      ((ra (0 : W32)).data = (0 : W32)) ∧
      (w312.ld.fetch = none) ∧
      (w312.ld.armed = false) ∧
      (w312.ld.state = LdState.loaded) ∧
      (w312.ld.sfdp.isSome = true) ∧
      (w312.pwr.phase = PwrPhase.p0) ∧
      (w312.pins.mstEn = true)) ∧
    (((ra (0 : W32)).be = (15 : BitVec (4 : ℕ))) ∧
      ((ra (0 : W32)).priv = true) ∧
      ((ra (0 : W32)).sec = true) ∧
      ((ra (0 : W32)).data = (0 : W32)) ∧
      (up.ld.fetch = none)) ∧
    (((ra (0 : W32)).be = (15 : BitVec (4 : ℕ))) ∧
      ((ra (0 : W32)).priv = true) ∧
      ((ra (0 : W32)).sec = true) ∧
      ((ra (0 : W32)).data = (0 : W32))) ∧
    (((ra (0 : W32)).be = (15 : BitVec (4 : ℕ))) ∧
      ((ra (0 : W32)).priv = true) ∧
      ((ra (0 : W32)).sec = true) ∧
      ((ra (0 : W32)).data = (0 : W32)) ∧
      (w313.ld.state = LdState.noImage)) ∧
    (((ra (0 : W32)).be = (15 : BitVec (4 : ℕ))) ∧
      ((ra (0 : W32)).priv = true) ∧
      ((ra (0 : W32)).sec = true) ∧
      ((ra (0 : W32)).data = (0 : W32)) ∧
      (w297.ld.state = LdState.rot) ∧
      (w297.ld.reload = none)) ∧
    (((ra (0 : W32)).be = (15 : BitVec (4 : ℕ))) ∧
      ((ra (0 : W32)).priv = true) ∧
      ((ra (0 : W32)).sec = true) ∧
      ((ra (0 : W32)).data = (0 : W32)) ∧
      (w297.ld.state = LdState.rot) ∧
      (w297.ld.reload = none) ∧
      (w297.ld.toTry = [(false, (7 : W32)), (true, (6 : W32))]) ∧
      ([(true, (6 : W32))] ≠ [])) ∧
    (((ra (0 : W32)).be = (15 : BitVec (4 : ℕ))) ∧
      ((ra (0 : W32)).priv = true) ∧
      ((ra (0 : W32)).sec = true) ∧
      ((ra (0 : W32)).data = (0 : W32)) ∧
      (up.eg.pstate = PState.normal)) ∧
    (((ra (0 : W32)).be = (15 : BitVec (4 : ℕ))) ∧
      ((ra (0 : W32)).priv = true) ∧
      ((ra (0 : W32)).sec = true) ∧
      ((ra (0 : W32)).data = (0 : W32)) ∧
      (w314.root.held = true) ∧
      (w314.root.rootBad = false)) ∧
    (((ra (0 : W32)).be = (15 : BitVec (4 : ℕ))) ∧
      ((ra (0 : W32)).priv = true) ∧
      ((ra (0 : W32)).sec = true) ∧
      ((ra (0 : W32)).data = (0 : W32)) ∧
      (w315.root.held = true) ∧
      (w315.root.rootBad = true)) ∧
    (((ra (0 : W32)).be = (15 : BitVec (4 : ℕ))) ∧
      ((ra (0 : W32)).priv = true) ∧
      ((ra (0 : W32)).sec = true) ∧
      ((ra (0 : W32)).data = (0 : W32)) ∧
      (up.root.held = false)) := by
  and_intros <;> first
    | exact .head _
    | rfl
    | exact ⟨_, _, rfl⟩
    | exact .inl rfl
    | exact ⟨1, _, by decide, by decide, by decide, rfl, rfl⟩
    | exact .inr (.inl (by decide))
    | exact noReturns (by decide)
    | decide
    | exact fun h => absurd h.1 (by decide)
    | simp
    | (intro _ h; cases h)

/-- The hypotheses of DirectorFabricAndSliceCommandsAct, one line of conditions for each clause. -/
theorem witness_DirectorFabricAndSliceCommandsAct :
    (((ra (4194307 : W32)).be = (15 : BitVec (4 : ℕ))) ∧
      ((ra (4194307 : W32)).priv = true) ∧
      ((ra (4194307 : W32)).sec = true) ∧
      (up.dctl.list.busy = false) ∧
      (up.dctl.list.reads = []) ∧
      (up.ld.fetch = none) ∧
      (up.pins.mstEn = true) ∧
      (up.ctxsUsed ≤ (63 : ℕ)) ∧
      (bitAt (ra (4194307 : W32)).data (30 : ℕ) = false) ∧
      ((1 : ℕ) ≤ fieldN (ra (4194307 : W32)).data (22 : ℕ) (8 : ℕ)) ∧
      (fieldN (ra (4194307 : W32)).data (22 : ℕ) (8 : ℕ) < (7 : ℕ)) ∧
      (fieldN (ra (4194307 : W32)).data (0 : ℕ) (20 : ℕ) ≠ (0 : ℕ))) ∧
    (((ra (0 : W32)).be = (15 : BitVec (4 : ℕ))) ∧
      ((ra (0 : W32)).priv = true) ∧
      ((ra (0 : W32)).sec = true) ∧
      (w316.dctl.list.busy = true) ∧
      (w316.dctl.list.cur = none) ∧
      (w316.dctl.list.stopping = none) ∧
      (w316.ctxsUsed ≤ (64 : ℕ)) ∧
      (bitAt (ra (0 : W32)).data (31 : ℕ) = false)) ∧
    (((ra (196608 : W32)).be = (15 : BitVec (4 : ℕ))) ∧
      ((ra (196608 : W32)).priv = true) ∧
      ((ra (196608 : W32)).sec = true) ∧
      (fieldN (ra (196608 : W32)).data (16 : ℕ) (14 : ℕ) < w317.pdRings)) ∧
    (((ra (0 : W32)).be = (15 : BitVec (4 : ℕ))) ∧
      ((ra (0 : W32)).priv = true) ∧
      ((ra (0 : W32)).sec = true)) ∧
    (((ra (0 : W32)).be = (15 : BitVec (4 : ℕ))) ∧
      ((ra (0 : W32)).priv = true) ∧
      ((ra (0 : W32)).sec = true) ∧
      ((3 : ℕ) < (12 : ℕ))) ∧
    (((ra (1 : W32)).be = (15 : BitVec (4 : ℕ))) ∧
      ((ra (1 : W32)).priv = true) ∧
      ((ra (1 : W32)).sec = true) ∧
      (up.slice (0 : ℕ) = some (sl0 (0 : ℕ))) ∧
      ((0 : ℕ) < up.variant.phys) ∧
      ((sl0 (0 : ℕ)).ident.isolated = false)) ∧
    (((ra (1 : W32)).be = (15 : BitVec (4 : ℕ))) ∧
      ((ra (1 : W32)).priv = true) ∧
      ((ra (1 : W32)).sec = true) ∧
      (up.slice (0 : ℕ) = some (sl0 (0 : ℕ))) ∧
      ((0 : ℕ) < up.variant.phys) ∧
      ((sl0 (0 : ℕ)).ident.isolated = false) ∧
      ((sl0 (0 : ℕ)).obs.peek.busy = false)) ∧
    (((ra (1 : W32)).be = (15 : BitVec (4 : ℕ))) ∧
      ((ra (1 : W32)).priv = true) ∧
      ((ra (1 : W32)).sec = true) ∧
      (up.slice (0 : ℕ) = some (sl0 (0 : ℕ))) ∧
      ((0 : ℕ) < up.variant.phys) ∧
      ((sl0 (0 : ℕ)).ident.isolated = false) ∧
      ((sl0 (0 : ℕ)).msc.pre.busy = false) ∧
      (fieldN (ra (1 : W32)).data (0 : ℕ) (24 : ℕ) ≠ (0 : ℕ)) ∧
      (bitAt (ra (1 : W32)).data (30 : ℕ) = false)) ∧
    (((ra (1 : W32)).be = (15 : BitVec (4 : ℕ))) ∧
      ((ra (1 : W32)).priv = true) ∧
      ((ra (1 : W32)).sec = true) ∧
      (w318.slice (0 : ℕ) = some w319) ∧
      ((0 : ℕ) < w318.variant.phys) ∧
      (w319.ident.isolated = false) ∧
      (w319.msc.pre.busy = true) ∧
      (bitAt (ra (1 : W32)).data (31 : ℕ) = false)) ∧
    (((ra (1 : W32)).be = (15 : BitVec (4 : ℕ))) ∧
      ((ra (1 : W32)).priv = true) ∧
      ((ra (1 : W32)).sec = true) ∧
      (w320.slice (0 : ℕ) = some w321) ∧
      ((0 : ℕ) < w320.variant.phys) ∧
      (w321.ident.isolated = false) ∧
      (w321.msc.pre.busy = true) ∧
      (bitAt (ra (1 : W32)).data (31 : ℕ) = false)) := by
  and_intros <;> first
    | exact .head _
    | rfl
    | exact ⟨_, _, rfl⟩
    | exact .inl rfl
    | exact ⟨1, _, by decide, by decide, by decide, rfl, rfl⟩
    | exact .inr (.inl (by decide))
    | exact noReturns (by decide)
    | decide
    | exact fun h => absurd h.1 (by decide)
    | simp
    | (intro _ h; cases h)

/-- The hypotheses of RefusedAccessesTouchNothing, one line of conditions for each clause. -/
theorem witness_RefusedAccessesTouchNothing :
    (((4 : ℕ) ≤ BitVec.toNat (100663296 : BitVec (27 : ℕ)) / (16777216 : ℕ) ∨ up.defined (BitVec.toNat (100663296 : BitVec (27 : ℕ)) % (16777216 : ℕ)) = false ∨ BitVec.toNat (100663296 : BitVec (27 : ℕ)) / (16777216 : ℕ) ≠ (0 : ℕ) ∧ up.aliasOk (BitVec.toNat (100663296 : BitVec (27 : ℕ)) % (16777216 : ℕ)) = false) ∧
      (Instr.registerWrite (100663296 : BitVec (27 : ℕ)) (ra (1 : W32)) ∈ [Instr.registerWrite (100663296 : BitVec (27 : ℕ)) (ra (1 : W32)), Instr.registerAliasWrite (100663296 : BitVec (27 : ℕ)) (ra (1 : W32))])) ∧
    ((rr.be ≠ (0 : BitVec (4 : ℕ))) ∧
      ((5 : ℕ) ≤ BitVec.toNat (100663296 : BitVec (27 : ℕ)) / (16777216 : ℕ) ∨ up.defined (BitVec.toNat (100663296 : BitVec (27 : ℕ)) % (16777216 : ℕ)) = false) ∧
      (Instr.readClearRegister (100663296 : BitVec (27 : ℕ)) rr ∈ [Instr.counterLowRead (100663296 : BitVec (27 : ℕ)) rr, Instr.wideRegisterLowRead (100663296 : BitVec (27 : ℕ)) rr, Instr.readClearRegister (100663296 : BitVec (27 : ℕ)) rr])) ∧
    ((w322.be = (0 : BitVec (4 : ℕ))) ∧
      (w323 ∈ [Instr.counterLowRead (0 : BitVec (27 : ℕ)) w322, Instr.wideRegisterLowRead (0 : BitVec (27 : ℕ)) w322, Instr.readClearRegister (0 : BitVec (27 : ℕ)) w322])) ∧
    (({ data := (1 : W32), be := (15 : BitVec (4 : ℕ)), priv := false, sec := true : RegAcc }.be = (15 : BitVec (4 : ℕ))) ∧
      ({ data := (1 : W32), be := (15 : BitVec (4 : ℕ)), priv := false, sec := true : RegAcc }.priv = false ∨ { data := (1 : W32), be := (15 : BitVec (4 : ℕ)), priv := false, sec := true : RegAcc }.sec = false) ∧
      ((Instr.ldCmdFetch { data := (1 : W32), be := (15 : BitVec (4 : ℕ)), priv := false, sec := true : RegAcc }, (65552 : BitVec (27 : ℕ))) ∈ [(Instr.ldCmdFetch { data := (1 : W32), be := (15 : BitVec (4 : ℕ)), priv := false, sec := true : RegAcc }, (65552 : BitVec (27 : ℕ))), (Instr.ldCmdArmReload { data := (1 : W32), be := (15 : BitVec (4 : ℕ)), priv := false, sec := true : RegAcc }, (65552 : BitVec (27 : ℕ))), (Instr.ldCmdDisarm { data := (1 : W32), be := (15 : BitVec (4 : ℕ)), priv := false, sec := true : RegAcc }, (65552 : BitVec (27 : ℕ))), (Instr.ldCmdRetry { data := (1 : W32), be := (15 : BitVec (4 : ℕ)), priv := false, sec := true : RegAcc }, (65552 : BitVec (27 : ℕ))), (Instr.ldRotAccept { data := (1 : W32), be := (15 : BitVec (4 : ℕ)), priv := false, sec := true : RegAcc }, (65556 : BitVec (27 : ℕ))), (Instr.ldRotReject { data := (1 : W32), be := (15 : BitVec (4 : ℕ)), priv := false, sec := true : RegAcc }, (65556 : BitVec (27 : ℕ))), (Instr.egCtlShutdown { data := (1 : W32), be := (15 : BitVec (4 : ℕ)), priv := false, sec := true : RegAcc }, (131076 : BitVec (27 : ℕ))), (Instr.egCtlAcceptLoss { data := (1 : W32), be := (15 : BitVec (4 : ℕ)), priv := false, sec := true : RegAcc }, (131076 : BitVec (27 : ℕ)))])) := by
  and_intros <;> first
    | exact .head _
    | rfl
    | exact ⟨_, _, rfl⟩
    | exact .inl rfl
    | exact ⟨1, _, by decide, by decide, by decide, rfl, rfl⟩
    | exact .inr (.inl (by decide))
    | exact noReturns (by decide)
    | decide
    | exact fun h => absurd h.1 (by decide)
    | simp
    | (intro _ h; cases h)

/-- The hypotheses of WritesAndAliasesChangeTheEnabledFields, one line of conditions for each clause. -/
theorem witness_WritesAndAliasesChangeTheEnabledFields :
    (((16 : ℕ) < (327680 : ℕ)) ∧
      ((1 : ℕ) < (4 : ℕ)) ∧
      (up.defined (16 : ℕ) = true) ∧
      (regDef up.variant (16 : ℕ) = some { rw := (0 : W32), rwb := (537919232 : W32), gs := (0 : W32), reset := (536875008 : W32) : RegDef }) ∧
      ({ rw := (0 : W32), rwb := (537919232 : W32), gs := (0 : W32), reset := (536875008 : W32) : RegDef }.rw = (0 : W32)) ∧
      ({ rw := (0 : W32), rwb := (537919232 : W32), gs := (0 : W32), reset := (536875008 : W32) : RegDef }.gs = (0 : W32)) ∧
      (gsBits (16 : ℕ) = (0 : W32)) ∧
      ((16 : ℕ) ∉ [(8 : ℕ), (20 : ℕ), (65552 : ℕ), (65556 : ℕ), (131076 : ℕ), (196652 : ℕ), (196680 : ℕ)]) ∧
      ((ra (256 : W32)).data &&& beMask (ra (256 : W32)).be ≠ (0 : W32)) ∧
      (w324 ∈ [Instr.registerWrite (BitVec.ofNat (27 : ℕ) ((16777216 : ℕ) * (1 : ℕ) + (16 : ℕ))) (ra (256 : W32)), Instr.registerAliasWrite (BitVec.ofNat (27 : ℕ) ((16777216 : ℕ) * (1 : ℕ) + (16 : ℕ))) (ra (256 : W32))])) := by
  and_intros <;> first
    | exact .head _
    | rfl
    | exact ⟨_, _, rfl⟩
    | exact .inl rfl
    | exact ⟨1, _, by decide, by decide, by decide, rfl, rfl⟩
    | exact .inr (.inl (by decide))
    | exact noReturns (by decide)
    | decide
    | exact fun h => absurd h.1 (by decide)
    | simp
    | (intro _ h; cases h)

/-- The hypotheses of CommitsGatherTheNamedBlocks, one line of conditions for each clause. -/
theorem witness_CommitsGatherTheNamedBlocks :
    (((ra (0 : W32)).be = (15 : BitVec (4 : ℕ))) ∧
      ((ra (0 : W32)).data &&& (33554239 : W32) = (0 : W32))) ∧
    (((ra (4 : W32)).be = (15 : BitVec (4 : ℕ))) ∧
      ((ra (4 : W32)).data &&& (33554239 : W32) ≠ (0 : W32))) ∧
    (((ra (4 : W32)).be = (15 : BitVec (4 : ℕ)))) := by
  and_intros <;> first
    | exact .head _
    | rfl
    | exact ⟨_, _, rfl⟩
    | exact .inl rfl
    | exact ⟨1, _, by decide, by decide, by decide, rfl, rfl⟩
    | exact .inr (.inl (by decide))
    | exact noReturns (by decide)
    | decide
    | exact fun h => absurd h.1 (by decide)
    | simp
    | (intro _ h; cases h)

/-- The hypotheses of TraceDataReturnsTheHeadWord, one line of conditions for each clause. -/
theorem witness_TraceDataReturnsTheHeadWord :
    ((rr.be = (15 : BitVec (4 : ℕ))) ∧
      (w325.fb.trace = [TraceWord.word (5 : W32)]) ∧
      (bitAt (w325.actReg (327680 : ℕ)) (30 : ℕ) = false)) ∧
    ((rr.be = (15 : BitVec (4 : ℕ))) ∧
      (up.fb.trace = [] ∨ (∃ (n : ℕ) (rest : List TraceWord), up.fb.trace = TraceWord.slot n :: rest) ∨ bitAt (up.actReg (327680 : ℕ)) (30 : ℕ) = true)) := by
  and_intros <;> first
    | exact .head _
    | rfl
    | exact ⟨_, _, rfl⟩
    | exact .inl rfl
    | exact ⟨1, _, by decide, by decide, by decide, rfl, rfl⟩
    | exact .inr (.inl (by decide))
    | exact noReturns (by decide)
    | decide
    | exact fun h => absurd h.1 (by decide)
    | simp
    | (intro _ h; cases h)

/-- The hypotheses of TheEventFifoCountsWhatItLoses, one line of conditions for each clause. -/
theorem witness_TheEventFifoCountsWhatItLoses :
    ((rr.be = (15 : BitVec (4 : ℕ))) ∧
      (rr.priv = true) ∧
      (rr.sec = true) ∧
      (w326.ev.fifo.length = (512 : ℕ))) ∧
    ((rr.be = (15 : BitVec (4 : ℕ))) ∧
      (rr.priv = true) ∧
      (rr.sec = true) ∧
      (w327.ev.fifo = [{ code := (32 : BitVec (8 : ℕ)), sev := (1 : BitVec (2 : ℕ)), src := (18 : BitVec (5 : ℕ)), unit := (3 : BitVec (9 : ℕ)), move := (0 : BitVec (40 : ℕ)), detail := (9 : W64) : EvRec }])) ∧
    ((rr.be = (15 : BitVec (4 : ℕ))) ∧
      (rr.priv = true) ∧
      (rr.sec = true) ∧
      (up.ev.fifo = [])) := by
  and_intros <;> first
    | exact .head _
    | rfl
    | exact ⟨_, _, rfl⟩
    | exact .inl rfl
    | exact ⟨1, _, by decide, by decide, by decide, rfl, rfl⟩
    | exact .inr (.inl (by decide))
    | exact noReturns (by decide)
    | decide
    | exact fun h => absurd h.1 (by decide)
    | simp
    | (intro _ h; cases h)

/-- The hypotheses of ReadsLatchClearAndRestart, one line of conditions for each clause. -/
theorem witness_ReadsLatchClearAndRestart :
    ((up.slice (0 : ℕ) = some (sl0 (0 : ℕ))) ∧
      ((0 : ℕ) < up.variant.phys) ∧
      ((sl0 (0 : ℕ)).ident.isolated = false) ∧
      (rr.be = (15 : BitVec (4 : ℕ))) ∧
      ((ra (1 : W32)).be = (15 : BitVec (4 : ℕ)))) ∧
    ((up.slice (0 : ℕ) = some (sl0 (0 : ℕ))) ∧
      ((0 : ℕ) < up.variant.phys) ∧
      ((sl0 (0 : ℕ)).ident.isolated = false) ∧
      (rr.be = (15 : BitVec (4 : ℕ))) ∧
      ((ra (1 : W32)).be = (15 : BitVec (4 : ℕ)))) ∧
    ((up.slice (0 : ℕ) = some (sl0 (0 : ℕ))) ∧
      ((0 : ℕ) < up.variant.phys) ∧
      ((sl0 (0 : ℕ)).ident.isolated = false) ∧
      (rr.be = (15 : BitVec (4 : ℕ))) ∧
      ((ra (1 : W32)).be = (15 : BitVec (4 : ℕ)))) ∧
    ((up.slice (0 : ℕ) = some (sl0 (0 : ℕ))) ∧
      ((0 : ℕ) < up.variant.phys) ∧
      ((sl0 (0 : ℕ)).ident.isolated = false) ∧
      (rr.be = (15 : BitVec (4 : ℕ))) ∧
      ((ra (1 : W32)).be = (15 : BitVec (4 : ℕ)))) ∧
    ((up.slice (0 : ℕ) = some (sl0 (0 : ℕ))) ∧
      ((0 : ℕ) < up.variant.phys) ∧
      ((sl0 (0 : ℕ)).ident.isolated = false) ∧
      (rr.be = (15 : BitVec (4 : ℕ))) ∧
      ((ra (1 : W32)).be = (15 : BitVec (4 : ℕ)))) := by
  and_intros <;> first
    | exact .head _
    | rfl
    | exact ⟨_, _, rfl⟩
    | exact .inl rfl
    | exact ⟨1, _, by decide, by decide, by decide, rfl, rfl⟩
    | exact .inr (.inl (by decide))
    | exact noReturns (by decide)
    | decide
    | exact fun h => absurd h.1 (by decide)
    | simp
    | (intro _ h; cases h)

/-- The hypotheses of RomDvsecAndAperture, one line of conditions for each clause. -/
theorem witness_RomDvsecAndAperture :
    ((up.atomEn = false ∨ (134217728 : ℕ) ≤ (1 : ℕ))) ∧
    ((w328.atomEn = true) ∧
      ((64 : ℕ) < (134217728 : ℕ)) ∧
      (w328.walkFailed = false) ∧
      (w328.agentPort { port := fieldN (w328.actReg (262272 : ℕ)) (2 : ℕ) (3 : ℕ), opc := (22 : BitVec (6 : ℕ)), tag := w329.tag, agent := BitVec.extractLsb' (0 : ℕ) (2 : ℕ) (w328.actReg (262272 : ℕ)), thread := w329.thread, cls := w329.cls, size := w329.size, aop := w329.aop, addr := BitVec.ofNat (52 : ℕ) (w328.hintBase + (64 : ℕ)), useK := w329.useK, reach := w329.reach : AgentMsg }.port = some ap0) ∧
      (w328.agentTakes { port := fieldN (w328.actReg (262272 : ℕ)) (2 : ℕ) (3 : ℕ), opc := (22 : BitVec (6 : ℕ)), tag := w329.tag, agent := BitVec.extractLsb' (0 : ℕ) (2 : ℕ) (w328.actReg (262272 : ℕ)), thread := w329.thread, cls := w329.cls, size := w329.size, aop := w329.aop, addr := BitVec.ofNat (52 : ℕ) (w328.hintBase + (64 : ℕ)), useK := w329.useK, reach := w329.reach : AgentMsg }.port ap0 (some Inp.atomicOp) = true) ∧
      (bitAt ap0.silent { port := fieldN (w328.actReg (262272 : ℕ)) (2 : ℕ) (3 : ℕ), opc := (22 : BitVec (6 : ℕ)), tag := w329.tag, agent := BitVec.extractLsb' (0 : ℕ) (2 : ℕ) (w328.actReg (262272 : ℕ)), thread := w329.thread, cls := w329.cls, size := w329.size, aop := w329.aop, addr := BitVec.ofNat (52 : ℕ) (w328.hintBase + (64 : ℕ)), useK := w329.useK, reach := w329.reach : AgentMsg }.agent.toNat = false) ∧
      (w328.agentOn { port := fieldN (w328.actReg (262272 : ℕ)) (2 : ℕ) (3 : ℕ), opc := (22 : BitVec (6 : ℕ)), tag := w329.tag, agent := BitVec.extractLsb' (0 : ℕ) (2 : ℕ) (w328.actReg (262272 : ℕ)), thread := w329.thread, cls := w329.cls, size := w329.size, aop := w329.aop, addr := BitVec.ofNat (52 : ℕ) (w328.hintBase + (64 : ℕ)), useK := w329.useK, reach := w329.reach : AgentMsg }.port { port := fieldN (w328.actReg (262272 : ℕ)) (2 : ℕ) (3 : ℕ), opc := (22 : BitVec (6 : ℕ)), tag := w329.tag, agent := BitVec.extractLsb' (0 : ℕ) (2 : ℕ) (w328.actReg (262272 : ℕ)), thread := w329.thread, cls := w329.cls, size := w329.size, aop := w329.aop, addr := BitVec.ofNat (52 : ℕ) (w328.hintBase + (64 : ℕ)), useK := w329.useK, reach := w329.reach : AgentMsg }.agent.toNat = true) ∧
      (ap0.credits { port := fieldN (w328.actReg (262272 : ℕ)) (2 : ℕ) (3 : ℕ), opc := (22 : BitVec (6 : ℕ)), tag := w329.tag, agent := BitVec.extractLsb' (0 : ℕ) (2 : ℕ) (w328.actReg (262272 : ℕ)), thread := w329.thread, cls := w329.cls, size := w329.size, aop := w329.aop, addr := BitVec.ofNat (52 : ℕ) (w328.hintBase + (64 : ℕ)), useK := w329.useK, reach := w329.reach : AgentMsg }.agent.toNat ≠ (0 : ℕ)) ∧
      (w329.cls.toNat < (5 : ℕ)) ∧
      (w328.agentRefusal { port := fieldN (w328.actReg (262272 : ℕ)) (2 : ℕ) (3 : ℕ), opc := (22 : BitVec (6 : ℕ)), tag := w329.tag, agent := BitVec.extractLsb' (0 : ℕ) (2 : ℕ) (w328.actReg (262272 : ℕ)), thread := w329.thread, cls := w329.cls, size := w329.size, aop := w329.aop, addr := BitVec.ofNat (52 : ℕ) (w328.hintBase + (64 : ℕ)), useK := w329.useK, reach := w329.reach : AgentMsg } false = none) ∧
      ((List.filter PortReq.buffers ap0.held).length < (32 : ℕ)) ∧
      (w329.reach = Reach.port)) := by
  and_intros <;> first
    | exact .head _
    | rfl
    | exact ⟨_, _, rfl⟩
    | exact .inl rfl
    | exact ⟨1, _, by decide, by decide, by decide, rfl, rfl⟩
    | exact .inr (.inl (by decide))
    | exact noReturns (by decide)
    | decide
    | exact fun h => absurd h.1 (by decide)
    | simp
    | (intro _ h; cases h)

/-- The hypotheses of ProbesTraceAndEventPorts, one line of conditions for each clause. -/
theorem witness_ProbesTraceAndEventPorts :
    (((0 : ℕ) < (12 : ℕ)) ∧
      (bitAt (w330.prb (0 : ℕ) (0 : ℕ)) (31 : ℕ) = true) ∧
      (linkIn w330.variant (fieldN (w330.prb (0 : ℕ) (0 : ℕ)) (13 : ℕ) (8 : ℕ)) = true) ∧
      (w330.probeHits (0 : ℕ) { lane := (0 : BitVec (2 : ℕ)), cycle := (0 : BitVec (10 : ℕ)), header := (0 : BitVec (128 : ℕ)), first := true, waited := (0 : ℕ) : Flit }.header = true) ∧
      (bitAt (w330.prb (0 : ℕ) (0 : ℕ)) (27 : ℕ) = false)) ∧
    ((bitAt (up.prb (0 : ℕ) (0 : ℕ)) (31 : ℕ) = false ∨ up.probeHits (0 : ℕ) { lane := (0 : BitVec (2 : ℕ)), cycle := (0 : BitVec (10 : ℕ)), header := (0 : BitVec (128 : ℕ)), first := true, waited := (0 : ℕ) : Flit }.header = false)) ∧
    (((0 : ℕ) < (12 : ℕ)) ∧
      (bitAt (w330t.prb 0 0) 31 = true) ∧
      (linkIn w330t.variant (fieldN (w330t.prb 0 0) 13 8) = true) ∧
      (w330t.probeHits 0 (0 : BitVec 128) = true) ∧
      (bitAt (w330t.prb 0 0) 27 = true) ∧
      (bitAt (w330t.actReg 0x50000) 31 = true)) ∧
    ((w331.traceAll.fb.probes[0]? = some ⟨Ctr48.zero, some ⟨0, 2⟩, 0, []⟩) ∧
      ((⟨Ctr48.zero, some ⟨0, 2⟩, 0, []⟩ : Probe).packet = some ⟨0, 2⟩) ∧
      (w331.traceAll.fb.trace = [] ++ [TraceWord.slot 0]) ∧
      (TraceWord.slot 0 ∉ nilOf TraceWord) ∧
      (TraceWord.slot 0 ∉ nilOf TraceWord)) ∧
    ((bitAt (w332.actReg 0x50000) 30 = true) ∧
      (w332.traceAll.fb.trace = [TraceWord.word 5])) ∧
    ((bitAt (up.actReg (327680 : ℕ)) (30 : ℕ) = false)) ∧
    ((w333.ev.fifo ≠ []) ∧
      (w333.ev.staleHalt = false) ∧
      (fieldN (w333.actReg (327712 : ℕ)) (10 : ℕ) (10 : ℕ) ≠ (0 : ℕ))) ∧
    ((up.ev.fifo = [] ∨ up.ev.staleHalt = true)) := by
  and_intros <;> first
    | exact .head _
    | rfl
    | exact ⟨_, _, rfl⟩
    | exact .inl rfl
    | exact ⟨1, _, by decide, by decide, by decide, rfl, rfl⟩
    | exact .inr (.inl (by decide))
    | exact noReturns (by decide)
    | decide
    | exact fun h => absurd h.1 (by decide)
    | simp
    | (intro _ h; cases h)

/-- The last slice's self-test ends the phase when every other slice has a result. -/
theorem witness_PowerOnResetsAndSelfTests_last :
    (w291.slice 16 = some (Slice.blank 16 8)) ∧ (w291.pins.blkPor = true) ∧ (16 < w291.variant.phys) ∧ (bitAt w291.pins.fuseOff 16 = false) ∧
    ((Slice.blank 16 8).ident.selfTest = none) ∧ (w291.gl.phase = 1) ∧
    (∀ (q : Nat) (x : Slice), q ≠ 16 → q < w291.variant.phys → bitAt w291.pins.fuseOff q = false → w291.slice q = some x →
      x.ident.selfTest ≠ none) := by
  refine ⟨rfl, rfl, by decide, rfl, rfl, rfl, ?_⟩
  intro q x h1 h2 _ h4
  change q < 17 at h2
  interval_cases q <;> first
    | exact absurd rfl h1
    | (cases h4; decide)

/-- A read of a root copy's header, answered with a valid one. -/
theorem witness_PersistentAnswersDriveRestartAndSave_header :
    (te5 (.persistRead 0 64) (.rootHdr false) dNear).teCmd 5 = some ⟨5, .persistRead 0 64, .rootHdr false⟩ ∧
      intact 0 rootLines = true ∧ rootBytes.length = 4096 ∧ headerValid rootBytes = true :=
  ⟨rfl, by decide, by decide, rootBytes_valid⟩

/-- A safe block with a command waiting, and the state after its step. -/
theorem witness_EveryStepKeepsTheBlockSafe :
    (upQ.safe) ∧ (step upQ = .next { upQ with pending := [], net := [] }) := by
  refine ⟨⟨by unfold State.partsOk; decide, ?_, by decide⟩, rfl⟩
  intro c hc
  cases hc with
  | head => rfl
  | tail _ h => cases h

/-- A block with all its parts, for EveryCommandCompletesAndKeepsTheParts. -/
theorem witness_EveryCommandCompletesAndKeepsTheParts : up.partsOk := by unfold State.partsOk; decide

/-- An entry in pointer mode and one in coarse mode. -/
theorem witness_SpillSlotsHoldTheirEntry :
    ((⟨0xA906CF1C1, .s, [3, 5], none, true, 1, false, false⟩ : Entry).opn = false ∧
      (⟨0xA906CF1C1, .s, [3, 5], none, true, 1, false, false⟩ : Entry).kpin = false ∧ 1 < 8 ∧ (∀ h ∈ [3, 5], h < 64) ∧
      [3, 5].length ≤ 5 ∧ ((none : Option (BitVec 32)).isSome = true → [3, 5] = [])) ∧
    ((⟨0xA906CF1C1, .s, [], some 0x10456, true, 1, false, false⟩ : Entry).opn = false ∧
      ((some 0x10456 : Option (BitVec 32)).isSome = true → ([] : List Nat) = [])) ∧ (0x7D : Game) ≠ 0x7A := by decide

/-- A near address of 48 bits, for ThePortFoldsTheNearAddress, and another that shares its port address. -/
theorem witness_ThePortFoldsTheNearAddress : 0x3F2A4100 < 2 ^ 48 ∧ 0x3F2A4200 < 2 ^ 48 := by decide

/-! ### WellFormed -/

/-- Commands whose every index is in range are well formed. -/
theorem test_wf_accepts : ∀ c ∈ ([
    .memRd (hm 0), .memRdData (hm 0), .memSpecRd (hm 0), .memInv (hm 0), .memInvNT (hm 0), .memClnEvct (hm 0), .memWr (hm 0) 0 false,
    .memWrPtl (hm 0) 0 0 false, .biConflict (hm 0), .hostUnsupported (hm 0) .req, .biRspI r0, .biRspS r0, .biRspE r0,
    .biRspIBlk r0 false, .biRspSBlk r0 false, .biRspEBlk r0 false, .hostLinkUp 0, .hostPortReset 0, .s2mDelivered 0 .ndr,
    .returnWindowExpiry 0, .hostSnoopTimeout 0, .expirySweepEnd 0, .rdShared (am 0), .rdOwn (am 0), .rdCur (am 0), .upgrade (am 0),
    .wbDirty (am 0) 0 false, .evictClean (am 0), .atomicOp (am 0) 0, .rdRes (am 0), .wrCond (am 0) 0, .fence (am 0),
    .agentPortSend 0 false .port, .fenceAtSlice 0 th, .fenceAnswer 0 th, .agentResponseArrival 0 0, .agentResponseDelivery th,
    .forwardedDataArrival 0 0 0 0 false false, .threadException th, .ringSnoopCopy 0 0 0 0, .agentPortSnoop 0 0,
    .agentSnoopAnswer 0 0 0, .agentSnoopTimeout 0 0, .rspI ⟨0, 0, 0, 0⟩, .rspS ⟨0, 0, 0, 0⟩, .rspFwd ⟨0, 0, 0, 0⟩,
    .rspWbData ⟨0, 0, 0, 0⟩ 0 false, .rspIW ⟨0, 0, 0, 0⟩, .memData 0 0 0 0 false false, .memAck (.mem 0 0), .memoryPortTimeout 0 0,
    .spillHit 0 0, .spillMiss 0 0 false, .migStart 0 0 .promotion, .migDone 0 0, .moveTick 0 0, .castleReplay 0, .selfCheck 0 false,
    .reeval 0 0, .issueSlot 0, .starvationLimit 0 0, .holdRelease 0 0, .kcreditIssue 0 0, .prefetchAccept 0, .writebackWalkTurn 0,
    .cacheDrainWalkTurn 0, .victimToWpq 0 0, .wpqIssue 0, .pendingKpinFill 0 0, .mirrorUpdate 0, .preloadWalkTurn 0, .wayRetire 0 0,
    .errorWindowRestart 0, .sfWayDisableWalk 0, .blindfoldSweepGroup 0, .promo 0 0, .dack 0 0, .dnote 0 0, .dirtyMark 0 0, .stamp 0 0,
    .heatReport 0 0 0, .pageMapFill 0 0 false, .slotEvictionClockStep 0, .cleanCommand 0 0, .cleanAck 0 0, .copyDone 0 0,
    .compressDone 0 0 0 0, .flushDone 0 0, .stagingStoreDone 0 0, .victimOfferResponse 0 0, .cleanCopyDone 0 0,
    .persistentWriteDone 0 0, .persistentReadDone 0 0 [], .savePageDone 0 0, .doorbell 0, .hintSlot 0, .listReadDone 0 [],
    .masterReadError 0 .errorStatus, .sliceFailureDeclared 0 0, .adoptionItemMove 0, .resyncComplete 0, .meshParityRefuse ⟨0, 0⟩,
    .ringParityFail 0 .header 0, .ringLossNotice (.slice 0), .ringInjectClaim 0, .probeMatch 0 ⟨0, 0, 0, true, 0⟩,
    .tracePacketGap 0, .fbPrbCtlClear 0 (ra 0), .slPmcClrCyc 0 (ra 0), .slPmcClrCnt 0 (ra 0), .slOccMaxRead 0 rr, .slPeekGo 0 (ra 0),
    .slMscPreStart 0 (ra 0), .slMscPreAbort 0 (ra 0), .dvsecConfigWrite 0 0, .atomicApertureAtomicOp 0 (am 0) 0,
    .selfTestDone 0 ⟨false, 0, false, true⟩, .adcSample 0 0, .drainWalkTurn 0, .p1Gate 0, .p1Ungate 0, .demotionToPersistentDone 0 0,
    .evictionFromCompressedDone 0 0] : List Instr), c.wf = true := by decide

/-- Every check of WellFormed refuses the first index out of range (1). -/
theorem test_wf_refuses_1 : ∀ c ∈ ([
    .memRd { hm 0 with port := 8 }, .memRdData { hm 0 with port := 8 }, .memSpecRd { hm 0 with port := 8 },
    .memInv { hm 0 with port := 8 }, .memInvNT { hm 0 with port := 8 }, .memClnEvct { hm 0 with port := 8 },
    .memWr { hm 0 with port := 8 } 0 false, .memWrPtl { hm 0 with port := 8 } 0 0 false, .biConflict { hm 0 with port := 8 },
    .hostUnsupported { hm 0 with port := 8 } .req, .biRspI { r0 with port := 8 }, .biRspS { r0 with port := 8 },
    .biRspE { r0 with port := 8 }, .biRspIBlk { r0 with port := 8 } false, .biRspSBlk { r0 with port := 8 } false,
    .biRspEBlk { r0 with port := 8 } false, .hostLinkUp 8, .hostPortReset 8, .s2mDelivered 8 .ndr, .returnWindowExpiry 64,
    .hostSnoopTimeout 64, .expirySweepEnd 64, .rdShared { am 0 with port := 8 }, .rdOwn { am 0 with port := 8 },
    .rdCur { am 0 with port := 8 }, .upgrade { am 0 with port := 8 }, .wbDirty { am 0 with port := 8 } 0 false,
    .evictClean { am 0 with port := 8 }, .atomicOp { am 0 with port := 8 } 0, .rdRes { am 0 with port := 8 },
    .wrCond { am 0 with port := 8 } 0, .fence { am 0 with port := 8 }, .agentPortSend 8 false .port, .fenceAtSlice 17 th,
    .fenceAtSlice 0 ⟨8, 0, 0⟩, .fenceAtSlice 0 ⟨0, 4, 0⟩, .fenceAtSlice 0 ⟨0, 0, 16⟩, .fenceAnswer 17 th, .fenceAnswer 0 ⟨8, 0, 0⟩,
    .fenceAnswer 0 ⟨0, 4, 0⟩, .fenceAnswer 0 ⟨0, 0, 16⟩, .agentResponseArrival 17 0, .agentResponseArrival 0 8,
    .agentResponseDelivery ⟨8, 0, 0⟩, .agentResponseDelivery ⟨0, 4, 0⟩] : List Instr), c.wf = false := by decide

/-- Every check of WellFormed refuses the first index out of range (2). -/
theorem test_wf_refuses_2 : ∀ c ∈ ([
    .agentResponseDelivery ⟨0, 0, 16⟩, .forwardedDataArrival 8 0 0 0 false false, .forwardedDataArrival 0 4 0 0 false false,
    .threadException ⟨8, 0, 0⟩, .threadException ⟨0, 4, 0⟩, .threadException ⟨0, 0, 16⟩, .ringSnoopCopy 8 0 0 0,
    .ringSnoopCopy 0 17 0 0, .ringSnoopCopy 0 0 192 0, .agentPortSnoop 8 0, .agentPortSnoop 0 32, .agentSnoopAnswer 8 0 0,
    .agentSnoopTimeout 8 0, .agentSnoopTimeout 0 4, .rspI ⟨17, 0, 0, 0⟩, .rspI ⟨0, 8, 0, 0⟩, .rspI ⟨0, 0, 192, 0⟩, .rspS ⟨17, 0, 0, 0⟩,
    .rspS ⟨0, 8, 0, 0⟩, .rspS ⟨0, 0, 192, 0⟩, .rspFwd ⟨17, 0, 0, 0⟩, .rspFwd ⟨0, 8, 0, 0⟩, .rspFwd ⟨0, 0, 192, 0⟩,
    .rspWbData ⟨17, 0, 0, 0⟩ 0 false, .rspWbData ⟨0, 8, 0, 0⟩ 0 false, .rspWbData ⟨0, 0, 192, 0⟩ 0 false, .rspIW ⟨17, 0, 0, 0⟩,
    .rspIW ⟨0, 8, 0, 0⟩, .rspIW ⟨0, 0, 192, 0⟩, .memData 16 0 0 0 false false, .memData 0 256 0 0 false false, .memAck (.mem 16 0),
    .memAck (.mem 0 256), .memAck (.mirror 17), .memAck (.stamp 17 0), .memAck (.dirtyMark 17 0), .memoryPortTimeout 16 0,
    .memoryPortTimeout 0 256, .spillHit 16 0, .spillHit 0 256, .spillMiss 16 0 false, .spillMiss 0 256 false,
    .migStart 17 0 .promotion, .migDone 17 0, .moveTick 17 0] : List Instr), c.wf = false := by decide

/-- Every check of WellFormed refuses the first index out of range (3). -/
theorem test_wf_refuses_3 : ∀ c ∈ ([
    .moveTick 0 192, .castleReplay 17, .selfCheck 17 false, .reeval 17 0, .reeval 0 192, .issueSlot 17, .starvationLimit 17 0,
    .starvationLimit 0 16, .holdRelease 17 0, .kcreditIssue 17 0, .kcreditIssue 0 16, .prefetchAccept 17, .writebackWalkTurn 17,
    .cacheDrainWalkTurn 17, .victimToWpq 17 0, .victimToWpq 0 32, .wpqIssue 17, .pendingKpinFill 17 0, .pendingKpinFill 0 192,
    .mirrorUpdate 17, .preloadWalkTurn 17, .wayRetire 17 0, .wayRetire 0 16, .errorWindowRestart 17, .sfWayDisableWalk 17,
    .blindfoldSweepGroup 17, .promo 17 0, .dack 17 0, .dnote 17 0, .dirtyMark 17 0, .stamp 17 0, .heatReport 17 0 0,
    .pageMapFill 17 0 false, .slotEvictionClockStep 3, .cleanCommand 17 0, .cleanAck 17 0, .copyDone 256 0, .compressDone 256 0 0 0,
    .compressDone 0 0 8192 0, .flushDone 256 0, .stagingStoreDone 256 0, .victimOfferResponse 256 0, .cleanCopyDone 256 0,
    .persistentWriteDone 256 0, .persistentReadDone 256 0 []] : List Instr), c.wf = false := by decide

/-- Every check of WellFormed refuses the first index out of range (4). -/
theorem test_wf_refuses_4 : ∀ c ∈ ([
    .savePageDone 256 0, .doorbell 16384, .hintSlot 16384, .listReadDone 256 [], .masterReadError 256 .errorStatus,
    .sliceFailureDeclared 17 0, .adoptionItemMove 17, .resyncComplete 17, .meshParityRefuse ⟨192, 0⟩,
    .ringParityFail 25 .header 0,
    .ringLossNotice (.slice 17), .ringLossNotice (.port 8), .ringInjectClaim 25, .probeMatch 12 ⟨0, 0, 0, true, 0⟩,
    .tracePacketGap 12, .fbPrbCtlClear 12 (ra 0), .slPmcClrCyc 17 (ra 0), .slPmcClrCnt 17 (ra 0), .slOccMaxRead 17 rr,
    .slPeekGo 17 (ra 0), .slMscPreStart 17 (ra 0), .slMscPreAbort 17 (ra 0), .dvsecConfigWrite 64 0,
    .atomicApertureAtomicOp 134217728 (am 0) 0, .atomicApertureAtomicOp 0 { am 0 with port := 8 } 0,
    .selfTestDone 17 ⟨false, 0, false, true⟩, .adcSample 8 0, .drainWalkTurn 17, .p1Gate 17, .p1Ungate 17,
    .demotionToPersistentDone 256 0, .evictionFromCompressedDone 256 0] : List Instr), c.wf = false := by decide

/-! ### Single operations and steps; the expected values are the manual's worked examples -/

/-- 02, homing a shipment-ledger page: key 0x7_1D2C_4A99, pages 0x0_2A41_B3C7 and 0x0_2A41_B3C8 have homes 5 and 0xA. -/
theorem test_homes : ({ up with cfg := { up.cfg with hashKey := 0x71D2C4A99 } } : State).homeOf 0x2A41B3C7 = 5 ∧
    ({ up with cfg := { up.cfg with hashKey := 0x71D2C4A99 } } : State).homeOf 0x2A41B3C8 = 0xA := by decide

/-- 02, a near address to a memory port, granule 256 B: ports 1 and 2, port address 0x3F2_A400. -/
theorem test_memory_ports : up.memPortOf 0x3F2A4100 = 1 ∧ up.portAddr 0x3F2A4100 = 0x3F2A400 ∧
    up.memPortOf 0x3F2A4200 = 2 ∧ up.portAddr 0x3F2A4200 = 0x3F2A400 := by decide

/-- 03, one lottery draw: LFSR 0xB3A5, tickets 40, 20, 60 and 8: input 9's class N wins. -/
theorem test_lottery : drawAmong (fun c => if c = ⟨2, .q⟩ then 40 else if c = ⟨2, .n⟩ then 20 else if c = ⟨9, .n⟩ then 60 else 8)
    0xB3A5 none [⟨2, .q⟩, ⟨2, .n⟩, ⟨9, .n⟩, ⟨13, .p⟩] = some ⟨9, .n⟩ := by decide

/-- 03, the same example: the LFSR steps from 0xB3A5 to 0xD9D2. -/
theorem test_lfsr : lfsrStep 0xB3A5 = 0xD9D2 := by decide

/-- 04, the entry of a shipment-ledger line: its set is 20,760, and HIDs 3 and 5 make SHARERS 0x0000_0143. -/
theorem test_entry : sfSet 0xA906CF1C1 = 20760 ∧ (⟨0xA906CF1C1, .s, [3, 5], none, true, 1, false, false⟩ : Entry).sharers = 0x143 := by
  decide

/-- 04, the same example: HIDs 9, 12, 20 and 33 make it coarse with SHARERS 0x0001_0456. -/
theorem test_entry_coarse : ([9, 12, 20, 33].foldl Entry.addSharer
    (⟨0xA906CF1C1, .s, [3, 5], none, true, 1, false, false⟩ : Entry)).sharers = 0x10456 := by decide

/-- 04, the bucket of a shipment-ledger line: bucket 0x56C_FB51 at near address 0x81_5B3E_D440. -/
theorem test_bucket :
    let s : State := { up with cfg := { up.cfg with hashKey := 0x71D2C4A99, spill := ⟨512, 16⟩ } }
    s.bucketNo 0xA906CF1C1 = 0x56CFB51 ∧ s.bucketAddr 0x56CFB51 = 0x815B3ED440 := by decide

/-- 11, reading the hold-up bank: raw 2,761, OFFSET -5 and GAIN 2,060 give k = 2,782; with RATIO 0x2C2C it reads 36,001 mV. -/
theorem test_bank : trimCode (0xFB ||| (2060 <<< 8)) 2761 = 2782 ∧
    ({ up with
       regs := ⟨[], [(0x2002C, 0x2C2C0000)]⟩
       eg := { up.eg with chans := List.replicate 8 ⟨[2782, 2782, 2782], 16 * 2782, true⟩ } } : State).egVolt 3 = 36001 := by decide

/-- 16, lowering the dirty budget, steps 1 and 2: the base view reads the value written, the value in force is the old one. -/
theorem test_dirty_pending :
    nextIs (exec (.registerWrite 0x030020 (ra 0x25B20010)) up)
      (fun t => t.baseReg 0x30020 == 0x25B20010 && t.actReg 0x30020 == 0x25B20020) = true := by decide

/-- 16, the same example, steps 3 to 5: after GL_COMMIT and the move boundary the value is in force. -/
theorem test_dirty_committed :
    nextIs (exec (.glCommit (ra 4)) { up with regs := ⟨[(0x30020, 0x25B20010)], []⟩ })
      (fun t => t.gl.anyCommit && nextIs (exec .moveBoundary t) fun u => u.actReg 0x30020 == 0x25B20010) = true := by decide

/-- 16, the same example: 0x10 written to the set alias of GL_INT_MASK1 keeps the bits already set. -/
theorem test_set_alias :
    nextIs (exec (.registerAliasWrite 0x1000054 (ra 0x10)) { up with regs := ⟨[(0x54, 1)], [(0x54, 1)]⟩ })
      (fun t => t.baseReg 0x54 == 0x11) = true := by decide

/-- CRC-32C of the ASCII digits 1 to 9 is 0xE306_9283, the code's published check value. -/
theorem test_crc : crc32c [0x31, 0x32, 0x33, 0x34, 0x35, 0x36, 0x37, 0x38, 0x39] = 0xE3069283 := by decide

/-- 11, a power failure, step 2: the feed lost in NORMAL goes to RIDE with the allowance frozen. -/
theorem test_ride :
    nextIs (exec (.endgameInputChange ⟨1, true, false, false, true⟩) up) (fun t => t.eg.pstate == .ride && t.eg.frozen) = true := by
  decide

/-- R542: a peek of a tracker corrects the correctable error of its word and counts it under CTL. -/
theorem test_peek_corrects :
    let s := up.modSlice 0 fun x => { x with obs := { x.obs with errs := [⟨.tracker, 0, false⟩] } }
    nextIs (exec (.slPeekGo 0 (ra 0x98000000)) s) (fun t => (sliceOf t).obs.errs.isEmpty && (sliceOf t).obs.ce.getD 3 0 == 1) = true := by
  decide

/-- R456: a fifth record that comes while its probe's buffer holds four is lost. -/
theorem test_probe_buffer :
    let r : TraceRec := ⟨0, 0, 0, 7⟩
    let s := (List.range 5).foldl (fun (s : State) _ => s.traceFlit 0 r) { up with fb := { up.fb with trTime := 7 } }
    (s.fb.probes[0]?).map (fun p => (p.buf.length, p.lost)) = some (4, 1) := by decide

/-- R178: a port reset makes its HIDs Absent. -/
theorem test_port_reset :
    nextIs (exec (.hostPortReset 0) up) (fun t => (t.hids[0]?).map Hid.st == some .absent) = true := by decide

/-- The queue is first in, first out: the second command waits behind the first. -/
theorem test_queue :
    nextIs (step { up with pending := [.rideTimeEnd, .heatDecay] }) (fun t => match t.pending with | [.heatDecay] => true | _ => false) = true := by decide

end Sys2Proof.Tests
end

/-! The scope of the model: every command completes and keeps the numbered parts, the queue's rest and the form of the spill
directory (R4, R137, R139). -/

namespace Sys2Proof.Machine

/-- What every command keeps of the state it runs on: the fixed part (R4), and the one form of the spill directory's list
(R137, R139) where it held before. -/
structure State.Keeps (s t : State) : Prop where
  fixed : t.fixed = s.fixed
  form : spillWf s.spill = true → spillWf t.spill = true

namespace State.Keeps

variable {s t u : State}

theorem refl (s : State) : s.Keeps s := ⟨rfl, id⟩

theorem trans (h : s.Keeps t) (k : t.Keeps u) : s.Keeps u := ⟨k.fixed.trans h.fixed, k.form ∘ h.form⟩

/-- Where the spill directory is left alone, so is its form. -/
theorem of_spill (hf : t.fixed = s.fixed) (hs : t.spill = s.spill) : s.Keeps t := ⟨hf, fun h => hs ▸ h⟩

theorem branch {c : Prop} [Decidable c] (ht : s.Keeps t) (hu : s.Keeps u) : s.Keeps (if c then t else u) := by
  split <;> assumption

/-- The hints that go on at the end of a command of the director keep what it kept. -/
theorem settled (h : s.Keeps t) : s.Keeps t.hintSettle :=
  h.trans ⟨State.hintSettle_fixed t, State.hintSettle_wf t⟩

/-- A message that arrives does what its treatment does, or nothing. -/
theorem onMsg (s : State) (m : NMsg) {f : State → State} (hf : ∀ s : State, s.Keeps (f s)) : s.Keeps (s.onMsg m f) :=
  ⟨State.onMsg_fixed s m f fun s => (hf s).fixed, State.onMsg_wf s m f fun s => (hf s).form⟩

theorem variant_eq (h : s.Keeps t) : t.variant = s.variant := congrArg (·.1) h.fixed

theorem pending_eq (h : s.Keeps t) : t.pending = s.pending := congrArg (·.2.1) h.fixed

/-- The block keeps its numbered parts (R4). -/
theorem partsOk (h : s.Keeps t) (hs : s.partsOk) : t.partsOk := by
  have hf := h.fixed
  simp only [State.fixed, Prod.mk.injEq] at hf
  obtain ⟨-, -, hh, hi, ha, hsl, hm⟩ := hf
  unfold State.partsOk
  rwa [hh, hi, ha, hsl, hm]

/-- A safe block stays safe: its queue is the one it had. -/
theorem safe (h : s.Keeps t) (hs : s.safe) : t.safe := by
  obtain ⟨hp, hq, hw⟩ := hs
  refine ⟨h.partsOk hp, ?_, h.form hw⟩
  unfold State.queueOk
  rwa [h.pending_eq]

end State.Keeps

/-! ### Every command -/

/-- The one case analysis over the table's rows. Each command is one or two operations of the block, and for each operation the
laws under Laws/ (the `simp` set) say that the fixed part stays and that the spill directory stays, or keeps its form. The rows are
grouped by which of the two holds of their operation, and by whether the director's waiting hints go on at their end. -/
theorem exec_keeps (c : Instr) (s : State) : ∃ t, exec c s = .next t ∧ s.Keeps t := by
  cases c with
  -- These leave the spill directory alone.
  | hostUnsupported | hostLinkUp | s2mDelivered | fenceAtSlice | fenceAnswer | agentResponseArrival
  | agentResponseDelivery | forwardedDataArrival | threadException | ringSnoopCopy | agentSnoopAnswer
  | agentSnoopTimeout | starvationLimit | wpqIssue | wayRetire | errorWindowRestart | heatDecay | ringParityFail
  | ringLossNotice | ringEscalation | ringInjectClaim | probeMatch | fbTraceDataRead | fbEvtPop | counterLowRead
  | wideRegisterLowRead | slOccMaxRead | readClearRegister | expansionRomRead | expansionRomWrite | fetchStepDone
  | rootOfTrustTimeout | egPorRelease | blkPorRelease | selfTestDone | slotHeadersRead | imageSlotLoaded | setupWalk
  | restartComplete | warmReq | warmReload | fabRst | endgameInputChange | adcSample | allowanceCompute
  | debounceComplete | rideTimeEnd | rideRecover | drainComplete | gpfPhase1 | gpfPhase1Ack | gpfPhase2
  | pmDstateD3hot | p2EntryComplete | pmDstateD0 | pmP3Req | p1Gate | p1Ungate | norEraseProgramTimeout =>
    exact ⟨_, rfl, .of_spill (by simp) (by simp)⟩
  -- These may write a bucket; the form stays.
  | memRd | memRdData | memSpecRd | memInv | memInvNT | memClnEvct | memWr | memWrPtl | biConflict | biRspI | biRspS
  | biRspE | biRspIBlk | biRspSBlk | biRspEBlk | hostPortReset | returnWindowExpiry | hostSnoopTimeout
  | expirySweepEnd | rdShared | rdOwn | rdCur | upgrade | wbDirty | evictClean | atomicOp | rdRes | wrCond | fence
  | agentPortSend | agentPortSnoop | rspI | rspS | rspFwd | rspWbData | rspIW | memData | memAck | memoryPortTimeout
  | spillHit | spillMiss | migStart | migDone | moveTick | castleReplay | selfCheck | reeval | issueSlot
  | kcreditIssue | moveBoundary | prefetchAccept | writebackWalkTurn | cacheDrainWalkTurn | victimToWpq
  | pendingKpinFill | mirrorUpdate | preloadWalkTurn | sfWayDisableWalk | blindfoldSweepGroup | pageMapFill
  | pageMapEntryUpdate | cleanCommand | victimOfferResponse | persistentReadDone | savePageDone | pdListStart
  | pdListAbort | pdRingCtlReset | sliceFailureDeclared | adoptionItemMove | resyncComplete | meshParityRefuse
  | fbTraceCtlFlush | fbPrbCtlClear | slPmcClrCyc | slPmcClrCnt | slPeekGo | slMscPreStart | slMscPreAbort | glCommit
  | glGameWrite | registerAliasWrite | registerWrite | atomicApertureAtomicOp | ldCmdFetch | ldCmdArmReload
  | ldCmdDisarm | ldCmdRetry | ldRotAccept | ldRotReject | egCtlShutdown | egCtlAcceptLoss | drainWalkTurn =>
    exact ⟨_, rfl, by simp, fun h => by simp [h]⟩
  -- Work of the director, after which the waiting hints go on.
  | dirtyMarkRelease | demotionClockStep | cleaningStart | gameSweeperStep | pageMapChunkLoad | ringPoll
  | pinComplete | listReadDone | masterReadError =>
    exact ⟨_, rfl, (State.Keeps.of_spill (by simp) (by simp)).settled⟩
  | copyDone | compressDone | flushDone | stagingStoreDone | cleanCopyDone | persistentWriteDone | hintSlot
  | demotionToPersistentDone | evictionFromCompressedDone =>
    exact ⟨_, rfl, State.Keeps.settled ⟨by simp, fun h => by simp [h]⟩⟩
  -- Messages to the director.
  | dack | dnote | dirtyMark | stamp | heatReport | cleanAck =>
    exact ⟨_, rfl, (State.Keeps.onMsg _ _ fun s => .of_spill (by simp) (by simp)).settled⟩
  -- Commands with a condition of their own.
  | holdRelease =>
    refine ⟨_, rfl, ?_⟩
    split
    · exact .branch ⟨by simp, fun h => by simp [h]⟩ ⟨by simp, fun h => by simp [h]⟩
    · exact .refl s
  | promo =>
    exact ⟨_, rfl, .branch (State.Keeps.onMsg _ _ fun s => .of_spill (by simp) (by simp)).settled (.refl s)⟩
  | doorbell =>
    exact ⟨_, rfl, (State.Keeps.onMsg _ _ fun s => .branch (.of_spill (by simp) (by simp)) (.refl s)).settled⟩
  | slotEvictionClockStep => exact ⟨_, rfl, .branch (State.Keeps.of_spill (by simp) (by simp)).settled (.refl s)⟩
  | tracePortTransfer =>
    refine ⟨_, rfl, .branch ?_ (.refl s)⟩
    dsimp only
    split <;> exact .of_spill rfl rfl
  | eventFifoStale => exact ⟨_, rfl, .branch (.refl s) (.of_spill rfl rfl)⟩
  | pmDstateReserved => exact ⟨_, rfl, .branch (.of_spill rfl rfl) (.refl s)⟩
  -- These change the fabric or the events alone, or nothing.
  | tracePacketGap | eventRequestAccept | dvsecConfigWrite => exact ⟨_, rfl, .of_spill rfl rfl⟩

/-- Settles O3: the fixed part holds the variant, the queue and the number of the parts. -/
theorem everyCommandCompletesAndKeepsTheParts : Obligations.EveryCommandCompletesAndKeepsTheParts := by
  intro c s
  obtain ⟨t, ht, hk⟩ := exec_keeps c s
  exact ⟨t, ht, hk.pending_eq, hk.variant_eq, hk.partsOk⟩

/-! ### A step -/

theorem step_of_pending_nil {s : State} (h : s.pending = []) : step s = .next s := by
  rw [step, h]

theorem step_of_pending_cons {s : State} {c : Instr} {rest : List Instr} (h : s.pending = c :: rest) :
    step s = exec c { s with pending := rest } := by
  rw [step, h]

/-- Taking the front command from the queue of a safe block leaves it safe. -/
theorem State.safe.of_pending_cons {s : State} {c : Instr} {rest : List Instr} (hs : s.safe) (h : s.pending = c :: rest) :
    { s with pending := rest }.safe := by
  obtain ⟨hp, hq, hw⟩ := hs
  exact ⟨hp, fun d hd => hq d (h ▸ List.mem_cons_of_mem c hd), hw⟩

/-- Settles O4: with the queue empty the block idles; otherwise the rest of the queue is safe, and the front command keeps it so. -/
theorem everyStepKeepsTheBlockSafe : Obligations.EveryStepKeepsTheBlockSafe := by
  intro s t hs ht
  cases hq : s.pending with
  | nil =>
    rw [step_of_pending_nil hq] at ht
    cases ht
    exact hs
  | cons c rest =>
    obtain ⟨u, hu, hk⟩ := exec_keeps c { s with pending := rest }
    rw [step_of_pending_cons hq, hu] at ht
    cases ht
    exact hk.safe (hs.of_pending_cons hq)

end Sys2Proof.Machine

/-! The architecture's commands: what reset leaves, the power-on releases and self-tests, page moves at a slice, the warm reset
(R26, R44, R58, R206, R214, R382). -/

namespace Sys2Proof.Machine

open Sys2Proof

/-! ### After reset (R44, R510) -/

theorem State.reset_safe : State.reset.safe :=
  ⟨⟨rfl, rfl, rfl, rfl, rfl⟩, fun _ hc => absurd hc List.not_mem_nil, rfl⟩

theorem State.reset_slices_blank {sl : Slice} (h : sl ∈ State.reset.slices) : sl = Slice.blank 16 8 := List.eq_of_mem_replicate h

theorem State.reset_hostPorts_blank {x : HostPort} (h : x ∈ State.reset.hostPorts) : x = HostPort.blank := List.eq_of_mem_replicate h

theorem State.reset_agentPorts_blank {x : AgentPort} (h : x ∈ State.reset.agentPorts) : x = AgentPort.blank 17 :=
  List.eq_of_mem_replicate h

/-- Settles O2: the single values are those of State.reset, and every slice and port is blank. -/
theorem resetLeavesTheBlockEmptyAndSafe : Obligations.ResetLeavesTheBlockEmptyAndSafe := by
  refine ⟨State.reset_safe, rfl, rfl, rfl, rfl, rfl, rfl, rfl, rfl, rfl, rfl, rfl, rfl, rfl, ?_, ?_, ?_⟩
  · intro sl hsl
    rw [State.reset_slices_blank hsl]
    exact ⟨rfl, rfl, rfl, rfl, rfl, rfl⟩
  · intro h hh
    rw [State.reset_hostPorts_blank hh]
    exact ⟨rfl, rfl⟩
  · intro a ha
    rw [State.reset_agentPorts_blank ha]
    exact ⟨rfl, rfl⟩

/-! ### Power-on resets (R44, R488) -/

/-- A part read from a list of parts that are all set to one value. -/
theorem eq_of_getElem?_map_const {α β : Type} {l : List α} {c x : β} {i : Nat} (h : (l.map fun _ => c)[i]? = some x) : x = c := by
  rw [List.getElem?_map, Option.map_eq_some_iff] at h
  obtain ⟨_, -, hx⟩ := h
  exact hx.symm

/-- A word that a register list keeps without the Endgame block's. -/
theorem kget_outside_endgame (o : Nat) (l : List (Nat × W32)) :
    kget o (l.filter fun x => !inEndgame x.1) = if inEndgame o then none else kget o l := by
  rw [kget_filter fun a => !inEndgame a]
  cases inEndgame o <;> rfl

/-- After blk_por_n a host port keeps its link's levels alone. -/
theorem State.hostPort_blkReset {s : State} {p : Nat} {h : HostPort} (hp : s.blkReset.hostPort p = some h) :
    ∃ h0, s.hostPort p = some h0 ∧ h = { HostPort.blank with linkUp := h0.linkUp, inReset := h0.inReset } := by
  rw [State.hostPort, State.blkReset, List.getElem?_map, Option.map_eq_some_iff] at hp
  obtain ⟨h0, h1, rfl⟩ := hp
  exact ⟨h0, h1, rfl⟩

/-! ### Self-tests (R58, R62) -/

section SelfTests

variable {s : State} {p : Nat} {sl : Slice}

/-- The slice with its self-test's result (R58). -/
def State.tested (s : State) (p : Nat) (pass : Bool) : State :=
  s.modSlice p fun x => { x with ident := { x.ident with selfTest := some pass } }

/-- The self-tests are done when each slice of the variant is fused off or has a result (R62). -/
theorem State.testsDone_iff (s : State) : s.testsDone = true ↔
    ∀ q x, q < s.variant.phys → bitAt s.pins.fuseOff q = false → s.slice q = some x → x.ident.selfTest ≠ none := by
  simp only [State.testsDone, List.all_eq_true, List.mem_range, Bool.or_eq_true]
  refine forall_congr' fun q => ?_
  cases hq : s.slice q with
  | none => simp
  | some x =>
    cases hf : bitAt s.pins.fuseOff q <;> simp [Option.isSome_iff_ne_none]

/-- With one slice's result in, the tests are done when every other slice has one. -/
theorem State.testsDone_tested_iff (hs : s.slice p = some sl) (b : Bool) : (s.tested p b).testsDone = true ↔
    ∀ q x, q ≠ p → q < s.variant.phys → bitAt s.pins.fuseOff q = false → s.slice q = some x → x.ident.selfTest ≠ none := by
  rw [State.testsDone_iff]
  refine forall_congr' fun q => ?_
  by_cases hq : q = p
  · subst hq
    have : (s.tested q b).slice q = some { sl with ident := { sl.ident with selfTest := some b } } := s.slice_modSlice q _ sl hs
    simp [this]
  · have : (s.tested p b).slice q = s.slice q := s.slice_modSlice_other hq _
    simp only [this, hq, ne_eq, not_false_eq_true, true_imp_iff]
    exact Iff.rfl

/-- No self-test's result is due: before the release, from a slice that the variant has not or that is fused off, or a second time. -/
def State.selfTestPast (s : State) (p : Nat) (sl : Slice) : Bool :=
  !s.pins.blkPor || s.variant.phys ≤ p || bitAt s.pins.fuseOff p || sl.ident.selfTest.isSome

theorem State.selfTest_eq (hs : s.slice p = some sl) (b : Bool) : s.selfTest p b =
    if s.selfTestPast p sl then s
    else if (s.tested p b).testsDone && s.gl.phase == 1 then { s.tested p b with gl := { s.gl with phase := 3 } }
    else s.tested p b := by
  rw [State.selfTest, hs]
  rfl

/-- A first result is kept; in phase 1 the last one ends the phase. -/
theorem State.selfTest_first (hs : s.slice p = some sl) (hb : s.pins.blkPor = true) (hp : p < s.variant.phys)
    (hf : bitAt s.pins.fuseOff p = false) (hn : sl.ident.selfTest = none) (hph : s.gl.phase = 1) (b : Bool) :
    s.selfTest p b = if (s.tested p b).testsDone then { s.tested p b with gl := { s.gl with phase := 3 } } else s.tested p b := by
  have due : s.selfTestPast p sl = false := by simp [State.selfTestPast, hb, hp, hf, hn]
  rw [State.selfTest_eq hs, due, hph]
  simp

/-- A second result, or one of a slice fused off, is no event. -/
theorem State.selfTest_idle (hs : s.slice p = some sl) (h : sl.ident.selfTest ≠ none ∨ bitAt s.pins.fuseOff p = true) (b : Bool) :
    s.selfTest p b = s := by
  have past : s.selfTestPast p sl = true := by
    rcases h with h | h
    · simp [State.selfTestPast, Option.isSome_iff_ne_none.mpr h]
    · simp [State.selfTestPast, h]
  rw [State.selfTest_eq hs, if_pos past]

end SelfTests

/-- Settles O40: the releases by the fields of the state they leave, the results of the self-tests by `State.testsDone_tested_iff`. -/
theorem powerOnResetsAndSelfTests : Obligations.PowerOnResetsAndSelfTests := by
  refine ⟨fun s => ⟨⟨s.egReset, rfl, rfl, fun o => ⟨kget_outside_endgame o _, kget_outside_endgame o _, kget_outside_endgame o _⟩⟩,
    s.blkReset, rfl, rfl, rfl, rfl, rfl, rfl, rfl, ?_, ?_, ?_, ?_, ?_,
    rfl, rfl, rfl, rfl, rfl, rfl, rfl, rfl, rfl, rfl, rfl, rfl, rfl⟩, fun s p found sl hs => ⟨?_, ?_⟩⟩
  · exact fun o => kget_filter inEndgame _ o
  · exact fun p sl h => eq_of_getElem?_map_const h
  · exact fun h x hx => eq_of_getElem?_map_const hx
  · exact fun p a h => eq_of_getElem?_map_const h
  · exact fun p h hp => State.hostPort_blkReset hp
  · intro hb hp hf hn hph
    have first := State.selfTest_first hs hb hp hf hn hph found.passes
    have all := State.testsDone_tested_iff hs found.passes
    refine ⟨?_, fun others => ?_⟩
    · rintro ⟨q, x, hq, hqp, hqf, hqs, hqn⟩
      rw [if_neg fun h => all.mp h q x hq hqp hqf hqs hqn] at first
      exact congrArg _ first
    · rw [if_pos (all.mpr others)] at first
      exact congrArg _ first
  · exact fun h => congrArg _ (State.selfTest_idle hs h found.passes)

/-! ### MigStart (R26, R206, R349) -/

section PageMoves

variable {s : State} {p : Nat} {pg : Page} {k : MigKind} {sl : Slice}

/-- A demotion of a page warmer than the threshold, of a move that is not forced, is declined (R349). -/
def State.declines (s : State) (sl : Slice) (pg : Page) (k : MigKind) : Prop :=
  k = .demotion ∧ (∃ m, s.moveOf pg = some m ∧ m.forced = false) ∧ ∃ n w, sl.pmFind pg = some (n, w) ∧ s.pdCold < w.heat.toNat

/-- The slice takes a MigStart that is on its way to it. -/
structure State.TakesMig (s : State) (p : Nat) (pg : Page) (k : MigKind) (sl : Slice) : Prop where
  slice : s.slice p = some sl
  live : sl.live = true
  noStall : sl.ident.adoptStall = false
  noDrain : s.eg.drainReq = false
  sent : s.net.contains (.migStart p pg k) = true

theorem migStart_room_iff : State.migStart.room sl = true ↔
    (sl.poolFree .maint = true ∨ sl.poolFree .shared = true) ∧ sl.holdFree = true := by
  simp [State.migStart.room]

/-- Without a tracker and a hold entry that it may use, MigStart stays at the slice's input (R26). -/
theorem State.migStart_of_not_room (hs : s.slice p = some sl) (hr : State.migStart.room sl = false) : s.migStart p pg k = s := by
  simp [State.migStart, hs, hr]

theorem State.TakesMig.passes (h : s.TakesMig p pg k sl) (hr : State.migStart.room sl = true) :
    (!sl.live || sl.ident.adoptStall || s.eg.drainReq || !(s.net.contains (.migStart p pg k)) || !State.migStart.room sl) = false := by
  simp only [h.live, h.noStall, h.noDrain, h.sent, hr, Bool.not_true, Bool.or_self]

theorem State.TakesMig.migStart_declined (h : s.TakesMig p pg k sl) (hr : State.migStart.room sl = true) {m : Move} {n : Nat}
    {w : PmWay} (hk : k = .demotion) (hm : s.moveOf pg = some m) (hf : m.forced = false) (hw : sl.pmFind pg = some (n, w))
    (hc : s.pdCold < w.heat.toNat) : s.migStart p pg k = (s.takeMsg (.migStart p pg k)).declineMove pg w.heat := by
  subst hk
  simp only [State.migStart, h.slice, h.passes hr, hm, hf, hw]
  exact if_pos hc

theorem State.TakesMig.migStart_go (h : s.TakesMig p pg k sl) (hr : State.migStart.room sl = true) (hd : ¬ s.declines sl pg k) :
    s.migStart p pg k = State.migStart.go p pg k (s.takeMsg (.migStart p pg k)) sl := by
  simp only [State.migStart, h.slice, h.passes hr]
  rw [if_neg Bool.false_ne_true]
  split
  case h_2 => rfl
  case h_1 n w hw =>
    obtain ⟨⟨hk, hf⟩, hw⟩ := Option.ite_none_right_eq_some.mp hw |>.imp_left (by simpa using ·)
    refine if_neg fun hc => hd ⟨hk, ?_, n, w, hw, hc⟩
    cases hm : s.moveOf pg with
    | none => simp [hm] at hf
    | some m => exact ⟨m, rfl, by simpa [hm] using hf⟩

end PageMoves

/-- A MigStart that is not declined: a maintenance tracker, else a shared one, or hold while the page is in use (R206). -/
theorem State.migStart_go_cases (s : State) (p : Nat) (pg : Page) (k : MigKind) (sl : Slice) :
    (sl.pageIdle pg = true → sl.poolFree .maint = true → State.migStart.go p pg k s sl = s.openMig p (migReq pg k) .maint) ∧
    (sl.pageIdle pg = true → sl.poolFree .maint = false → sl.poolFree .shared = true →
      State.migStart.go p pg k s sl = s.openMig p (migReq pg k) .shared) ∧
    (sl.pageIdle pg = false → State.migStart.go p pg k s sl = s.enterHold p (migReq pg k)) := by
  refine ⟨fun hi hm => ?_, fun hi hm hsh => ?_, fun hi => ?_⟩
  · simp only [State.migStart.go, hi, hm, Bool.and_self, if_true]
  · simp [State.migStart.go, hi, hm, hsh]
  · simp [State.migStart.go, hi]

/-! ### MigDone (R214 to R216) -/

/-- The trackers of a slice that wait in MG for the move of a page (R214). -/
def Slice.waitingMig (sl : Slice) (pg : Page) : List Tracker := sl.trk.filter fun t => t.st == .mg && pageOf t.req.line == pg

section MigDone

variable {s : State} {p : Nat} {pg : Page} {sl : Slice} {a b : List NMsg}

/-- What waits before the first message of a kind. -/
theorem takeWhile_ne_append {α : Type} [DecidableEq α] {a b : List α} {m : α} (h : m ∉ a) :
    ((a ++ m :: b).takeWhile fun x => x != m) = a := by
  rw [List.takeWhile_append_of_pos fun x hx => ?_]
  · simp
  · exact bne_iff_ne.mpr fun hxm => h (hxm ▸ hx)

/-- What a live slice does with the first MigDone for a page on its way (R214). -/
theorem State.migDone_eq (hs : s.slice p = some sl) (hl : sl.live = true) (hn : s.net = a ++ .migDone p pg :: b)
    (ha : .migDone p pg ∉ a) : s.migDone p pg =
      if .entry pg ∈ a then s
      else if sl.waitingMig pg = [] then
        if ∃ r ∈ s.cast.redirect, r.2 = p then s.takeMigDone p pg else (s.takeMigDone p pg).failSlice p .control
      else ((sl.waitingMig pg).foldl (fun s t => s.feed p t.num { inp := .migDone, line := t.req.line })
        (s.takeMigDone p pg)).settle p := by
  have before : (s.net.takeWhile fun m => m != .migDone p pg) = a := by rw [hn, takeWhile_ne_append ha]
  have sent : s.net.contains (.migDone p pg) = true := by simp [hn]
  simp only [State.migDone, hs, hl, sent, before, Slice.waitingMig, List.isEmpty_iff, Bool.not_true, Bool.false_or,
    List.contains_iff_mem, List.any_eq_true, beq_iff_eq]
  congr

end MigDone

/-- Settles O22: MigStart by what its slice has room for, MigDone by `State.migDone_eq`. -/
theorem pageMovesTakeTrackersAndEnd : Obligations.PageMovesTakeTrackersAndEnd := by
  refine ⟨fun s p pg k sl hs hl ha hd hn => ?_, fun s p pg sl a b hs hl hn ha => ?_⟩
  · have takes : s.TakesMig p pg k sl := ⟨hs, hl, ha, hd, hn⟩
    obtain ⟨goMaint, goShared, goHold⟩ := State.migStart_go_cases (s.takeMsg (.migStart p pg k)) p pg k sl
    refine ⟨fun hf hnd => ⟨fun hi hm => ?_, fun hi hm hsh => ?_, fun hi hp => ?_⟩, fun hno => ?_,
      fun n w m hf hp hk hm hfo hw hc => ?_⟩
    · exact congrArg _ ((takes.migStart_go (migStart_room_iff.mpr ⟨.inl hm, hf⟩) hnd).trans (goMaint hi hm))
    · exact congrArg _ ((takes.migStart_go (migStart_room_iff.mpr ⟨.inr hsh, hf⟩) hnd).trans (goShared hi hm hsh))
    · exact congrArg _ ((takes.migStart_go (migStart_room_iff.mpr ⟨hp, hf⟩) hnd).trans (goHold hi))
    · have full : State.migStart.room sl = false := by
        rw [← Bool.not_eq_true, migStart_room_iff]
        rcases hno with hh | ⟨hm, hsh⟩
        · simp [hh]
        · simp [hm, hsh]
      exact congrArg _ (State.migStart_of_not_room hs full)
    · exact congrArg _ (takes.migStart_declined (migStart_room_iff.mpr ⟨hp, hf⟩) hk hm hfo hw hc)
  · have done := State.migDone_eq hs hl hn ha
    refine ⟨fun he => ?_, fun he (hw : sl.waitingMig pg ≠ []) => ?_, fun he (hw : sl.waitingMig pg = []) hr => ?_,
      fun r hr he (hw : sl.waitingMig pg = []) hp => ?_⟩
    · rw [if_pos he] at done
      exact congrArg _ done
    · rw [if_neg he, if_neg hw] at done
      exact congrArg _ done
    · rw [if_neg he, if_pos hw, if_neg fun ⟨r, h, hp⟩ => hr r h hp] at done
      exact congrArg _ done
    · rw [if_neg he, if_pos hw, if_pos ⟨r, hr, hp⟩] at done
      exact congrArg _ done

/-! ### What the director leaves alone

The director's moves change its own tables, its messages, the mesh they are offered to, the event records and the counter of free
choices. `State.besideDirector` blanks these parts, so that each of its operations has one frame law for all the other fields. -/

/-- The block without what the director's own work changes. -/
def State.besideDirector (s : State) : State :=
  { s with free := 0, dir := Director.blank, dctl := DirCtl.blank, fb := Fabric.blank, net := [], ev := State.reset.ev }

/-- A fold of an operation that keeps a view of the state keeps it. -/
theorem foldl_keeps {α β γ : Type} (view : β → γ) {f : β → α → β} (hf : ∀ s a, view (f s a) = view s) (l : List α) (s : β) :
    view (l.foldl f s) = view s := by
  rw [← List.foldl_hom view (g₂ := fun v _ => v) fun s a => (hf s a).symm, List.foldl_fixed]

namespace State

variable (s : State) (p : Page) (m : Move)

theorem setEnt_beside (e : PEnt) : (s.setEnt p e).besideDirector = s.besideDirector := by
  unfold setEnt
  dsimp only
  split <;> rfl

theorem modEnt_beside (f : PEnt → PEnt) : (s.modEnt p f).besideDirector = s.besideDirector := setEnt_beside s p _

theorem newMove_beside (kind : MoveKind) (stage : MoveStage) (askers : List Nat) (frame : Nat) (forced : Bool) :
    (s.newMove p kind stage askers frame forced).besideDirector = s.besideDirector := modEnt_beside _ p _

theorem takeFrame_beside {s t : State} {p : Page} {heat : BitVec 8} {n : Nat} (h : s.takeFrame p heat = some (n, t)) :
    t.besideDirector = s.besideDirector := by
  unfold takeFrame at h
  split at h
  · cases h
  · cases h
    rfl

theorem startDemotion_beside (forced : Bool) : (s.startDemotion p forced).besideDirector = s.besideDirector := by
  unfold startDemotion
  split
  · exact newMove_beside s p ..
  · rfl

theorem makeRoom_beside : s.makeRoom.besideDirector = s.besideDirector := by
  unfold makeRoom
  split
  · rfl
  · split
    · exact startDemotion_beside _ _ true
    · rfl

theorem startPromotion_beside (phys : Nat) : (s.startPromotion phys p).besideDirector = s.besideDirector := by
  unfold startPromotion
  split
  · next f s1 hf =>
    have made := (newMove_beside s1 p .demandPromotion .copy [phys] f false).trans (takeFrame_beside hf)
    dsimp only
    split
    · exact made
    · exact made
  · exact makeRoom_beside _

theorem takePromo_beside (phys : Nat) : (s.takePromo phys p).besideDirector = s.besideDirector := by
  unfold takePromo
  split
  · next m _ => cases m.kind <;> rfl
  · split
    · rfl
    · split
      · exact startPromotion_beside s p phys
      · rfl

theorem kick_beside : s.kick.besideDirector = s.besideDirector := by
  refine (foldl_keeps besideDirector (fun s x => ?_) _ _).trans rfl
  exact takePromo_beside s x.2 x.1

theorem endMove_beside : (s.endMove m).besideDirector = s.besideDirector := by
  refine (kick_beside _).trans ((foldl_keeps besideDirector (fun s h => ?_) _ _).trans rfl)
  rfl

/-- A frame or slot that is released is the director's. -/
theorem abortMove_beside : (s.abortMove m).besideDirector = s.besideDirector := by
  refine (endMove_beside _ m).trans (Eq.trans ?_ (modEnt_beside s m.page fun e => { e with mig := false }))
  cases m.kind <;> cases m.slot <;> rfl

theorem abandonMoves_beside : s.abandonMoves.besideDirector = s.besideDirector := by
  refine foldl_keeps besideDirector (fun s m => ?_) _ _
  cases m.stage
  case quiesce => exact abortMove_beside s m
  all_goals rfl

theorem sweepIncrement_beside : s.sweepIncrement.besideDirector = s.besideDirector := by
  unfold sweepIncrement
  dsimp only
  split <;> rfl

theorem warmDirector_beside : s.warmDirector.besideDirector = s.besideDirector := abandonMoves_beside _

theorem persistWrites_beside (n : Nat) (a : Nat) (ls : List Line) :
    (persistWrites n s a ls).1.besideDirector = s.besideDirector := by
  induction n generalizing s a ls with
  | zero => rfl
  | succ n ih =>
    unfold persistWrites
    split
    · rfl
    · exact ih _ _ _

end State

/-! ### The warm reset (R44, R45, R146, R382) -/

/-- `t` is `s` with the warm reset's work done on the slices, the ring, the handshake and the game number (R44, R146). -/
structure State.WarmCleared (s t : State) : Prop where
  gl : t.gl = { s.gl with game := s.gl.game + 1, phase := 4, serving := false }
  pwr : t.pwr = { s.pwr with warm := false, warmAck := false }
  slices : t.slices = s.slices.map Slice.warmReset
  ring : t.ring = []
  ringSnoops : t.ringSnoops = []

namespace State.WarmCleared

variable {s t u : State}

theorem of_beside (h : u.besideDirector = t.besideDirector) (ht : s.WarmCleared t) : s.WarmCleared u where
  gl := (congrArg State.gl h).trans ht.gl
  pwr := (congrArg State.pwr h).trans ht.pwr
  slices := (congrArg State.slices h).trans ht.slices
  ring := (congrArg State.ring h).trans ht.ring
  ringSnoops := (congrArg State.ringSnoops h).trans ht.ringSnoops

/-- Credits dealt anew are the agent ports' (R226). -/
theorem dealCredits (l : List Nat) (ht : s.WarmCleared t) : s.WarmCleared (l.foldl State.dealCredits t) := by
  induction l generalizing t with
  | nil => exact ht
  | cons p l ih => exact ih ⟨ht.gl, ht.pwr, ht.slices, ht.ring, ht.ringSnoops⟩

theorem withRoot (r : Root) (ht : s.WarmCleared t) : s.WarmCleared { t with root := r } :=
  ⟨ht.gl, ht.pwr, ht.slices, ht.ring, ht.ringSnoops⟩

/-- The copy that is written is of the root record and the persistent tier (R394). -/
theorem writeRunning (ht : s.WarmCleared t) : s.WarmCleared t.writeRunning :=
  ((ht.withRoot _).of_beside (State.persistWrites_beside ..)).withRoot _

end State.WarmCleared

/-- The fabric reset after the acknowledged drain, with no reload armed (R44, R45). -/
theorem State.warmReset_cleared {s : State} (hw : s.pwr.warm = true) (ha : s.pwr.warmAck = true) (hr : s.ld.armed = false)
    (hb : s.ld.busy = false) : s.WarmCleared s.warmReset := by
  simp only [State.warmReset, hw, ha, hr, hb, Bool.and_self, Bool.not_true, Bool.or_self, Bool.false_eq_true, if_false]
  have cleared (t : State) (ht : s.WarmCleared t) :
      s.WarmCleared ((List.range s.variant.agents).foldl State.dealCredits t.warmDirector.sweepIncrement) :=
    .dealCredits _ (.of_beside ((State.sweepIncrement_beside _).trans (State.warmDirector_beside t)) ht)
  split
  · exact ((cleared _ ⟨rfl, rfl, rfl, rfl, rfl⟩).withRoot _).writeRunning
  · exact (cleared _ ⟨rfl, rfl, rfl, rfl, rfl⟩).withRoot _

/-- A class-K credit and what the slice held for itself go; the host requests at the inputs stay (R44; log 45). -/
theorem Slice.warmReset_input {sl : Slice} {i : InputQ} (h : i ∈ sl.warmReset.arb.inputs) :
    i.kcredit = none ∧ ∀ q ∈ i.waiting, q.hid.isSome = true := by
  obtain ⟨j, -, rfl⟩ := List.mem_map.mp h
  refine ⟨rfl, fun q hq => ?_⟩
  obtain ⟨r, hr, rfl⟩ := List.mem_map.mp hq
  exact (List.mem_filter.mp hr).2

section WarmRequest

variable {s : State}

theorem State.warmAsk_again (h : s.pwr.warm = true) : s.warmAsk = s := if_pos h

/-- In service a warm request starts the drain of the slices that serve (R45, R382). -/
theorem State.warmAsk_drains (hw : s.pwr.warm = false) (hn : s.eg.pstate = .normal) (hd : s.eg.drainReq = false)
    (hp : s.pwr.phase = .p0) : s.warmAsk = { s with
      pwr := { s.pwr with warm := true, warmAck := false }
      slices := s.slices.map fun sl => if sl.ident.role.serves && !sl.ident.isolated then sl.startDrain else sl } := by
  simp [State.warmAsk, State.warmDrain, hw, hn, hd, hp]

theorem State.drainDone_of_not_drained (h : s.drained = false) : s.drainDone = s := by
  simp [State.drainDone, h]

/-- In service the end of the drain is acknowledged to the warm request (R45). -/
theorem State.drainDone_acks (h : s.drained = true) (hw : s.pwr.warm = true) (hp : s.pwr.phase = .p0) (hn : s.eg.pstate = .normal) :
    s.drainDone = { s with
      pwr := { s.pwr with warmAck := true }
      slices := s.slices.map fun sl => { sl with ident := { sl.ident with draining := false } } } := by
  simp [State.drainDone, h, hw, hp, hn]

/-- In DRAIN the end of the drain begins the save (R382). -/
theorem State.drainDone_saves (h : s.drained = true) (hd : s.eg.pstate = .drain) : s.drainDone = ({ s with
      eg := { s.eg with pstate := .save }
      slices := s.slices.map fun (sl : Slice) => { sl with ident := { sl.ident with frozen := true, draining := false } } }).beginSave
        s.eg.causes.shutdown := by
  simp [State.drainDone, h, hd]

theorem State.warmReset_of_no_handshake (h : s.pwr.warm = false ∨ s.pwr.warmAck = false) : s.warmReset = s := by
  rcases h with h | h <;> simp [State.warmReset, h]

end WarmRequest

/-- Settles O45: the request, the drain's end and the reset by their cases; what the reset clears by `State.warmReset_cleared`. -/
theorem theWarmResetDrainsAcknowledgesAndClears : Obligations.TheWarmResetDrainsAcknowledgesAndClears := by
  refine fun s => ⟨fun h => congrArg _ (State.warmAsk_again h), fun hw hn hd hp => congrArg _ (State.warmAsk_drains hw hn hd hp),
    fun h hw hp hn => congrArg _ (State.drainDone_acks h hw hp hn), fun h hd => congrArg _ (State.drainDone_saves h hd),
    fun h => congrArg _ (State.drainDone_of_not_drained h), fun h => congrArg _ (State.warmReset_of_no_handshake h),
    fun hw ha hr hb => ?_⟩
  obtain ⟨hgl, hpwr, hsl, hring, hsnoops⟩ := State.warmReset_cleared hw ha hr hb
  refine ⟨s.warmReset, rfl, by rw [hpwr], by rw [hpwr], by rw [hgl], by rw [hgl], by rw [hgl], hring, hsnoops, fun p sl hp => ?_⟩
  rw [State.slice, hsl, List.getElem?_map, Option.map_eq_some_iff] at hp
  obtain ⟨x, -, rfl⟩ := hp
  exact ⟨rfl, rfl, rfl, rfl, rfl, rfl, rfl, fun i hi => Slice.warmReset_input hi⟩

end Sys2Proof.Machine

/-! Slices and addresses: the homing hash and the memory-port map are folds (R54, R75); the setup walk numbers the slices (R59). -/

namespace Sys2Proof.Machine

open Sys2Proof

/-! ### The fold F (R54) -/

theorem Variant.bits_pos (v : Variant) : 0 < v.bits := by cases v <;> decide

theorem Variant.bits_le (v : Variant) : v.bits ≤ 4 := by cases v <;> decide

section Fold

variable {n len : Nat} (q r : Nat)

theorem fold_succ (n len : Nat) :
    fold n (len + 1) q = fold n len q ^^^ ((if q.testBit len then 1 else 0) <<< (len % n)) := by
  simp [fold, List.range_succ]

/-- One bit shifted to place j is seen in place j only. -/
theorem testBit_placed (b : Bool) (j i : Nat) : ((if b then 1 else 0) <<< j).testBit i = (j == i && b) := by
  cases b
  · simp
  · rw [if_pos rfl, Bool.and_true, Nat.one_shiftLeft, Nat.testBit_two_pow, ← beq_eq_decide]

/-- Bit i of a fold is the parity of the argument bits in the places j with j mod n = i. -/
theorem testBit_fold (n len i : Nat) : (fold n len q).testBit i =
    decide (((List.range len).filter fun j => j % n == i && q.testBit j).length % 2 = 1) := by
  induction len with
  | zero => simp [fold]
  | succ len ih =>
    rw [fold_succ, Nat.testBit_xor, testBit_placed, ih, List.range_succ, List.filter_append, List.length_append]
    cases h : len % n == i && q.testBit len
    · simp [h]
    · simp [h, ← decide_not, Nat.succ_mod_two_eq_one_iff]

theorem fold_lt (hn : 0 < n) (len : Nat) : fold n len q < 2 ^ n := by
  refine Nat.lt_pow_two_of_testBit _ fun i hi => ?_
  have none_there : ∀ j, (j % n == i && q.testBit j) = false := fun j => by
    simp [((Nat.mod_lt j hn).trans_le hi).ne]
  simp [testBit_fold, none_there]

/-- The fold is linear. -/
theorem fold_xor (n len : Nat) : fold n len (q ^^^ r) = fold n len q ^^^ fold n len r := by
  induction len with
  | zero => simp [fold]
  | succ len ih =>
    have placed_xor : (if (q ^^^ r).testBit len then 1 else 0) =
        (if q.testBit len then 1 else 0) ^^^ (if r.testBit len then 1 else 0) := by
      rw [Nat.testBit_xor]
      cases q.testBit len <;> cases r.testBit len <;> rfl
    rw [fold_succ, fold_succ, fold_succ, ih, placed_xor, Nat.shiftLeft_xor_distrib]
    ac_rfl

/-- While a fold has taken no more than n bits, each stands in its own place. -/
theorem fold_eq_mod_two_pow (h : len ≤ n) : fold n len q = q % 2 ^ len := by
  induction len with
  | zero => simp [fold, Nat.mod_one]
  | succ len ih =>
    rw [fold_succ, ih (by omega), Nat.mod_eq_of_lt (by omega : len < n)]
    refine Nat.eq_of_testBit_eq fun i => ?_
    rw [Nat.testBit_xor, testBit_placed, Nat.testBit_mod_two_pow, Nat.testBit_mod_two_pow]
    rcases lt_trichotomy i len with hi | rfl | hi
    · simp [hi, beq_false_of_ne hi.ne', hi.trans (Nat.lt_succ_self len)]
    · simp
    · simp [hi.ne, hi.not_gt, Nat.not_lt.mpr (Nat.succ_le_of_lt hi)]

/-- A number of at most n bits is its own fold into n bits. -/
theorem fold_eq_self {d : Nat} (hd : d < 2 ^ n) (hl : n ≤ len) : fold n len d = d := by
  induction len, hl using Nat.le_induction with
  | base => rw [fold_eq_mod_two_pow d le_rfl, Nat.mod_eq_of_lt hd]
  | succ len hl ih =>
    have high : d.testBit len = false := Nat.testBit_lt_two_pow (hd.trans_le (Nat.pow_le_pow_right two_pos hl))
    simp [fold_succ, ih, high]

/-- Numbers that agree from bit n on differ by the difference of their folds, so the fold tells them apart. -/
theorem eq_of_fold_eq {q r : Nat} (hl : n ≤ len) (high : q / 2 ^ n = r / 2 ^ n) (hf : fold n len q = fold n len r) : q = r := by
  have small : q ^^^ r < 2 ^ n := by
    rw [← Nat.div_eq_zero_iff_lt (Nat.two_pow_pos n), Nat.xor_div_two_pow, high, Nat.xor_self]
  refine Nat.xor_eq_zero_iff.mp ?_
  rw [← fold_eq_self small hl, fold_xor, hf, Nat.xor_self]

end Fold

/-- Settles O6: the home is a fold of the page number XOR the key. -/
theorem theHomeFoldsThePageNumber : Obligations.TheHomeFoldsThePageNumber := by
  refine fun s p => ⟨by cases s.variant <;> rfl, fold_lt _ s.variant.bits_pos 36, fun i _ => ?_⟩
  simp only [State.homeOf, logicalHome, testBit_fold, BitVec.testBit_toNat]

/-! ### Memory ports (R73, R75) -/

theorem granuleBits_le (g : BitVec 2) : granuleBits g ≤ 12 := by
  unfold granuleBits
  split_ifs <;> decide

/-- Bit i of the memory port is the parity of the near address's bits from the granule on, in steps of the port number's width. -/
theorem State.testBit_memPortOf (s : State) (na i : Nat) : (s.memPortOf na).testBit i =
    decide (((List.range (48 - granuleBits s.cfg.granule)).filter fun j =>
      j % s.variant.bits == i && na.testBit (granuleBits s.cfg.granule + j)).length % 2 = 1) := by
  simp only [State.memPortOf, testBit_fold, Nat.testBit_div_two_pow, Nat.add_comm]

/-- The port address leaves out the bits [g + m - 1 : g] of the near address. -/
theorem State.testBit_portAddr (s : State) (na i : Nat) : (s.portAddr na).testBit i =
    if i < granuleBits s.cfg.granule then na.testBit i else na.testBit (i + s.variant.bits) := by
  generalize hg : granuleBits s.cfg.granule = g
  rw [State.portAddr, hg, Nat.mul_comm, Nat.testBit_two_pow_mul_add _ (Nat.mod_lt _ (Nat.two_pow_pos g))]
  split_ifs with hi
  · simp [hi]
  · rw [Nat.testBit_div_two_pow]
    congr 1
    omega

/-- The port address begins with the near address's bits above those that choose the port. -/
theorem State.portAddr_div (s : State) (na : Nat) : s.portAddr na / 2 ^ granuleBits s.cfg.granule =
    na / 2 ^ granuleBits s.cfg.granule / 2 ^ s.variant.bits := by
  rw [State.portAddr, Nat.div_div_eq_div_mul, ← Nat.pow_add, Nat.mul_comm,
    Nat.mul_add_div (Nat.two_pow_pos _), Nat.mod_div_self, Nat.add_zero]

/-- The port address ends with the near address's offset in its granule. -/
theorem State.portAddr_mod (s : State) (na : Nat) :
    s.portAddr na % 2 ^ granuleBits s.cfg.granule = na % 2 ^ granuleBits s.cfg.granule := by
  rw [State.portAddr, Nat.mul_add_mod', Nat.mod_mod]

/-- The memory port and the port address determine the near address. -/
theorem State.near_eq_of_port_eq {s : State} {na nb : Nat} (hp : s.memPortOf na = s.memPortOf nb)
    (ha : s.portAddr na = s.portAddr nb) : na = nb := by
  have high := s.portAddr_div na
  rw [ha, State.portAddr_div] at high
  have offset := s.portAddr_mod na
  rw [ha, State.portAddr_mod] at offset
  have fits : s.variant.bits ≤ 48 - granuleBits s.cfg.granule := by
    have := granuleBits_le s.cfg.granule
    have := s.variant.bits_le
    omega
  have granule := eq_of_fold_eq fits high.symm hp
  rw [← Nat.div_add_mod na (2 ^ granuleBits s.cfg.granule), granule, ← offset, Nat.div_add_mod]

/-- Settles O7: the port is a fold of the near address's granule number, with the bits that the port address leaves out. -/
theorem thePortFoldsTheNearAddress : Obligations.ThePortFoldsTheNearAddress :=
  fun s na _ => ⟨rfl, fold_lt _ s.variant.bits_pos _, fun i _ => s.testBit_memPortOf na i, s.testBit_portAddr na,
    fun _ _ => State.near_eq_of_port_eq⟩

/-! ### The setup walk (R59) -/

theorem Variant.active_le (v : Variant) : v.active ≤ 16 := by cases v <;> decide

/-- What the walk writes into a slice: its outcome, the slice's role and its logical number. -/
def Slice.walked (v : Walk × Role × Nat) (sl : Slice) : Slice :=
  { sl with ident := { sl.ident with walk := v.1, role := v.2.1, logA := v.2.2 } }

/-- The slice may take part (R58, R60). -/
def State.mayServe (s : State) (q : Nat) : Bool := (s.eligible q s.cfg.excl).isNone

/-- Eligible slices along the chain before a position. -/
def State.mayServeBelow (s : State) (m : Nat) : Nat := Nat.count (fun q => s.mayServe q = true) m

/-- What the walk gives the slice at a position: to one that is not eligible the reason, to the first N that are a number, and the
next one is the reserve (R59, R60). -/
def State.verdict (s : State) (q : Nat) : Walk × Role × Nat :=
  match s.eligible q s.cfg.excl with
  | some w => (w, .none, 0)
  | none =>
    if s.mayServeBelow q < s.variant.active then (.active, .active, s.mayServeBelow q)
    else if s.mayServeBelow q = s.variant.active then (.reserve, .reserve, 0)
    else (.excluded, .none, 0)

/-- The state of the walk before position m: the token holds the number of eligible slices passed, up to N, and says whether
the reserve is taken; the slices behind have their verdicts and their homes, those ahead are as they were. -/
structure State.WalkedTo (s : State) (m : Nat) (st : State × Nat × Bool) : Prop where
  pins : st.1.pins = s.pins
  cfg : st.1.cfg = s.cfg
  variant : st.1.variant = s.variant
  ahead : ∀ q, m ≤ q → st.1.slice q = s.slice q
  behind : ∀ q < m, st.1.slice q = (s.slice q).map (Slice.walked (s.verdict q))
  homes : st.1.cast.homes.length = s.cast.homes.length
  home : ∀ q < m, s.mayServe q = true → s.mayServeBelow q < s.variant.active →
    st.1.cast.homes[s.mayServeBelow q]? = some ⟨true, false, false, q⟩
  next : st.2.1 = min (s.mayServeBelow m) s.variant.active
  reserve : st.2.2 = decide (s.variant.active < s.mayServeBelow m)

/-- A slice after a change to it. -/
theorem State.slice_modSlice_map (s : State) (p : Nat) (f : Slice → Slice) : (s.modSlice p f).slice p = (s.slice p).map f := by
  simp [State.slice, State.modSlice]

section Walk

variable {s t : State} {m : Nat} {st : State × Nat × Bool}

theorem State.eligible_congr (hp : t.pins = s.pins) (hs : t.slice m = s.slice m) (excl : BitVec 17) :
    t.eligible m excl = s.eligible m excl := by
  simp only [State.eligible, hp, hs]

theorem State.mayServeBelow_succ (s : State) (m : Nat) :
    s.mayServeBelow (m + 1) = s.mayServeBelow m + if s.mayServe m = true then 1 else 0 := Nat.count_succ ..

theorem State.mayServeBelow_lt {q : Nat} (hq : s.mayServe q = true) (h : q < m) : s.mayServeBelow q < s.mayServeBelow m :=
  Nat.count_strict_mono hq h

/-- The homes after the walk has passed a position: a slice that gets a number is the home of that number. -/
def State.homesPast (s : State) (m : Nat) (homes : List Home) : List Home :=
  if s.mayServe m = true ∧ s.mayServeBelow m < s.variant.active then homes.set (s.mayServeBelow m) ⟨true, false, false, m⟩
  else homes

theorem State.homesPast_of_not (h : ¬ (s.mayServe m = true ∧ s.mayServeBelow m < s.variant.active)) (homes : List Home) :
    s.homesPast m homes = homes := if_neg h

section Token

variable {next : Nat} {res : Bool} {w : Walk}

theorem State.walkOne_ineligible (h : t.eligible m t.cfg.excl = some w) :
    State.walkOne (t, next, res) m = (t.modSlice m (Slice.walked (w, .none, 0)), next, res) := by
  simp only [State.walkOne, h]
  rfl

theorem State.walkOne_active (h : t.eligible m t.cfg.excl = none) (hn : next < t.variant.active) :
    State.walkOne (t, next, res) m = ({ t.modSlice m (Slice.walked (.active, .active, next)) with
      cast := { t.cast with homes := t.cast.homes.set next ⟨true, false, false, m⟩ } }, next + 1, res) := by
  simp only [State.walkOne, h, if_pos hn]
  rfl

theorem State.walkOne_reserve (h : t.eligible m t.cfg.excl = none) (hn : ¬ next < t.variant.active) :
    State.walkOne (t, next, false) m = (t.modSlice m (Slice.walked (.reserve, .reserve, 0)), next, true) := by
  simp only [State.walkOne, h, if_neg hn]
  rfl

theorem State.walkOne_surplus (h : t.eligible m t.cfg.excl = none) (hn : ¬ next < t.variant.active) :
    State.walkOne (t, next, true) m = (t.modSlice m (Slice.walked (.excluded, .none, 0)), next, true) := by
  simp only [State.walkOne, h, if_neg hn]
  rfl

end Token

theorem State.verdict_ineligible {w : Walk} (h : s.eligible m s.cfg.excl = some w) : s.verdict m = (w, .none, 0) := by
  simp [State.verdict, h]

theorem State.verdict_active (he : s.mayServe m = true) (hk : s.mayServeBelow m < s.variant.active) :
    s.verdict m = (.active, .active, s.mayServeBelow m) := by
  simp [State.verdict, Option.isNone_iff_eq_none.mp he, hk]

theorem State.verdict_reserve (he : s.mayServe m = true) (hk : s.mayServeBelow m = s.variant.active) :
    s.verdict m = (.reserve, .reserve, 0) := by
  simp [State.verdict, Option.isNone_iff_eq_none.mp he, hk]

theorem State.verdict_surplus (he : s.mayServe m = true) (hk : s.variant.active < s.mayServeBelow m) :
    s.verdict m = (.excluded, .none, 0) := by
  simp [State.verdict, Option.isNone_iff_eq_none.mp he, hk.not_gt, hk.ne']

/-- One chain position of the walk: the slice gets its verdict, and the token goes on. -/
theorem State.WalkedTo.walkOne_eq (h : s.WalkedTo m st) : State.walkOne st m =
    ({ st.1.modSlice m (Slice.walked (s.verdict m)) with cast := { st.1.cast with homes := s.homesPast m st.1.cast.homes } },
      min (s.mayServeBelow (m + 1)) s.variant.active, decide (s.variant.active < s.mayServeBelow (m + 1))) := by
  obtain ⟨t, next, res⟩ := st
  have here : t.eligible m t.cfg.excl = s.eligible m s.cfg.excl := by
    rw [h.cfg, State.eligible_congr h.pins (h.ahead m le_rfl)]
  have hv : t.variant.active = s.variant.active := congrArg _ h.variant
  have hn : next = min (s.mayServeBelow m) s.variant.active := h.next
  have hr : res = decide (s.variant.active < s.mayServeBelow m) := h.reserve
  have count := s.mayServeBelow_succ m
  cases he : s.eligible m s.cfg.excl with
  | some w =>
    have no : s.mayServe m = false := by simp [State.mayServe, he]
    rw [State.walkOne_ineligible (here.trans he), State.verdict_ineligible he, State.homesPast_of_not (by simp [no]), count, no,
      hn, hr]
    rfl
  | none =>
    have yes : s.mayServe m = true := by simp [State.mayServe, he]
    rw [yes, if_pos rfl] at count
    rcases lt_trichotomy (s.mayServeBelow m) s.variant.active with hk | hk | hk
    · have hn : next = s.mayServeBelow m := by omega
      rw [State.walkOne_active (here.trans he) (by omega), State.verdict_active yes hk, State.homesPast, if_pos ⟨yes, hk⟩,
        hn, hr, count, min_eq_left hk, decide_eq_false hk.not_gt, decide_eq_false (by omega)]
    · obtain rfl : res = false := by simp [hr, hk]
      rw [State.walkOne_reserve (here.trans he) (by omega), State.verdict_reserve yes hk, State.homesPast_of_not (by omega),
        hn, count, hk, min_self, min_eq_right (by omega), decide_eq_true (by omega)]
      rfl
    · obtain rfl : res = true := by simp [hr, hk]
      rw [State.walkOne_surplus (here.trans he) (by omega), State.verdict_surplus yes hk, State.homesPast_of_not (by omega),
        hn, count, min_eq_right hk.le, min_eq_right (by omega), decide_eq_true (by omega)]
      rfl

theorem State.WalkedTo.start (s : State) : s.WalkedTo 0 (s, 0, false) where
  pins := rfl
  cfg := rfl
  variant := rfl
  ahead _ _ := rfl
  behind _ h := absurd h (Nat.not_lt_zero _)
  homes := rfl
  home _ h := absurd h (Nat.not_lt_zero _)
  next := by simp [State.mayServeBelow]
  reserve := by simp [State.mayServeBelow]

theorem State.homesPast_length (s : State) (m : Nat) (homes : List Home) : (s.homesPast m homes).length = homes.length := by
  unfold State.homesPast
  split <;> simp

/-- The slice that gets a number is its home. -/
theorem State.homesPast_here {homes : List Home} (hl : s.variant.active ≤ homes.length) (hm : s.mayServe m = true)
    (hk : s.mayServeBelow m < s.variant.active) :
    (s.homesPast m homes)[s.mayServeBelow m]? = some ⟨true, false, false, m⟩ := by
  rw [State.homesPast, if_pos ⟨hm, hk⟩, List.getElem?_set_self (hk.trans_le hl)]

/-- The homes of lower numbers stay. -/
theorem State.homesPast_below {homes : List Home} {k : Nat} (hk : k < s.mayServeBelow m) : (s.homesPast m homes)[k]? = homes[k]? := by
  unfold State.homesPast
  split
  · exact List.getElem?_set_ne hk.ne'
  · rfl

/-- One chain position of the walk keeps the invariant. -/
theorem State.WalkedTo.succ (hl : s.variant.active ≤ s.cast.homes.length) (h : s.WalkedTo m st) :
    s.WalkedTo (m + 1) (State.walkOne st m) := by
  rw [h.walkOne_eq]
  exact {
    pins := h.pins
    cfg := h.cfg
    variant := h.variant
    ahead := fun q hq => (State.slice_modSlice_other st.1 (by omega) _).trans (h.ahead q (by omega))
    behind := fun q hq => by
      rcases Nat.lt_succ_iff_lt_or_eq.mp hq with hq | rfl
      · exact (State.slice_modSlice_other st.1 hq.ne _).trans (h.behind q hq)
      · exact (st.1.slice_modSlice_map q _).trans (congrArg _ (h.ahead q le_rfl))
    homes := (s.homesPast_length m _).trans h.homes
    home := fun q hq he hk => by
      rcases Nat.lt_succ_iff_lt_or_eq.mp hq with hq | rfl
      · exact (State.homesPast_below (State.mayServeBelow_lt he hq)).trans (h.home q hq he hk)
      · exact State.homesPast_here (h.homes ▸ hl) he hk
    next := rfl
    reserve := rfl }

/-- The walk's token past the first positions of the chain. -/
theorem State.walkedTo_foldl (hl : s.variant.active ≤ s.cast.homes.length) (m : Nat) :
    s.WalkedTo m ((List.range m).foldl State.walkOne (s, 0, false)) := by
  induction m with
  | zero => exact .start s
  | succ m ih =>
    rw [List.range_succ, List.foldl_append]
    exact ih.succ hl

/-- A change of health is no change of the slices. -/
@[simp] theorem State.setHealth_slices (s : State) (f : Gl → Gl) : (s.setHealth f).slices = s.slices := by
  unfold State.setHealth
  dsimp only
  split <;> simp

/-- A change of health is no change of the homes. -/
@[simp] theorem State.setHealth_cast (s : State) (f : Gl → Gl) : (s.setHealth f).cast = s.cast := by
  unfold State.setHealth
  dsimp only
  split <;> simp

/-- With enough eligible slices the walk ends as the token leaves the chain. -/
theorem State.walk_of_enough (hl : s.variant.active ≤ s.cast.homes.length)
    (enough : s.variant.active ≤ s.mayServeBelow s.variant.phys) :
    ∃ st, s.WalkedTo s.variant.phys st ∧ s.walk.slices = st.1.slices ∧ s.walk.cast.homes = st.1.cast.homes := by
  have walked := State.walkedTo_foldl hl s.variant.phys
  have all := walked.next.trans (min_eq_right enough)
  refine ⟨_, walked, ?_⟩
  simp only [State.walk, if_pos all]
  split
  · exact ⟨rfl, rfl⟩
  · exact ⟨State.setHealth_slices .., (congrArg Cast.homes (State.setHealth_cast ..)).trans rfl⟩

theorem State.mayServeBelow_eq_length (s : State) (m : Nat) :
    s.mayServeBelow m = ((List.range m).filter fun q => (s.eligible q s.cfg.excl).isNone).length := by
  rw [State.mayServeBelow, Nat.count, List.countP_eq_length_filter]
  exact congrArg List.length (List.filter_congr fun _ _ => Bool.decide_eq_true)

end Walk

/-- Settles O42: each slice has its verdict when the token leaves the chain, and a slice with a number is that number's home. -/
theorem theWalkNumbersTheEligibleSlices : Obligations.TheWalkNumbersTheEligibleSlices := by
  intro s p sl hsl hp hlen el k enough
  have hk : s.mayServeBelow p = k := s.mayServeBelow_eq_length p
  obtain ⟨st, walked, slices, homes⟩ :=
    State.walk_of_enough (hlen ▸ s.variant.active_le) (enough.trans_eq (s.mayServeBelow_eq_length _).symm)
  have here : s.walk.slice p = some (sl.walked (s.verdict p)) := by
    rw [State.slice, slices, ← State.slice, walked.behind p hp, hsl, Option.map_some]
  refine ⟨_, here, fun he hlt => ?_, fun he heq => ?_, fun he => ?_⟩
  · rw [← hk] at hlt ⊢
    rw [State.verdict_active he hlt]
    exact ⟨rfl, rfl, homes ▸ walked.home p hp he hlt⟩
  · rw [State.verdict_reserve he (hk.trans heq)]
    rfl
  · obtain ⟨w, hw⟩ := Option.isSome_iff_exists.mp (Option.isNone_eq_false_iff.mp he)
    rw [State.verdict_ineligible hw]
    rfl

end Sys2Proof.Machine

/-! The move frame: slot kinds, issue slots, credits and hold release (R25, R89 to R98), a slice's ticks, self-check and gating
(R29, R80, R81, R502), the boundary (R77 to R79), and the register writes that commit and command (R79, R145, R509). -/

namespace Sys2Proof.Machine

open Sys2Proof

/-! ### Slot kinds (R89) -/

/-- The cycles of the three reserved kinds exclude each other. -/
theorem slotKind_cases (c : Nat) :
    (slotKind c = .k ∧ c % 8 = 0 ∧ c % 4 ≠ 2 ∧ c % 16 ≠ 5) ∨ (slotKind c = .q ∧ c % 8 ≠ 0 ∧ c % 4 = 2 ∧ c % 16 ≠ 5) ∨
    (slotKind c = .maint ∧ c % 8 ≠ 0 ∧ c % 4 ≠ 2 ∧ c % 16 = 5) ∨ (slotKind c = .lottery ∧ c % 8 ≠ 0 ∧ c % 4 ≠ 2 ∧ c % 16 ≠ 5) := by
  unfold slotKind
  split_ifs <;> simp <;> omega

/-- Settles O24: each kind holds exactly the cycles of its own case. -/
theorem everyCycleHasOneSlotKind : Obligations.EveryCycleHasOneSlotKind := by
  intro c _
  rcases slotKind_cases c with ⟨hk, h8, h4, h16⟩ | ⟨hk, h8, h4, h16⟩ | ⟨hk, h8, h4, h16⟩ | ⟨hk, h8, h4, h16⟩ <;>
    simp [hk, h8, h4, h16]

/-! ### Changes of one slice -/

/-- Two changes that agree on the slice that a block has there are one change. -/
theorem State.modSlice_congr {s : State} {p : Nat} {sl : Slice} (hs : s.slice p = some sl) {f g : Slice → Slice}
    (h : f sl = g sl) : s.modSlice p f = s.modSlice p g := by
  have slices : s.slices.modify p f = s.slices.modify p g := by
    refine List.ext_getElem? fun i => ?_
    rw [List.getElem?_modify, List.getElem?_modify]
    by_cases e : p = i
    · rw [← e, show s.slices[p]? = some sl from hs]
      simpa using h
    · simp only [if_neg e]
  rw [State.modSlice, slices]
  rfl

/-- What a slice that is live is (R412, R383). -/
theorem Slice.live_iff (sl : Slice) : sl.live = true ↔
    sl.ident.isolated = false ∧ sl.ident.failed = none ∧ sl.ident.asleep = false ∧ sl.ident.frozen = false := by
  simp [Slice.live, and_assoc]

section Turns

variable {s : State} {p n : Nat} {sl : Slice} {t : Tracker}

/-- A live slice that fails takes the cause (R412). -/
theorem State.failSlice_of_live (hs : s.slice p = some sl) (hl : sl.live = true) (c : FailCause) :
    s.failSlice p c = s.modSlice p fun x => { x with ident := { x.ident with failed := some c } } := by
  obtain ⟨-, hf, -, -⟩ := (Slice.live_iff sl).mp hl
  exact State.modSlice_congr hs (by simp only [hf])

/-! ### MoveTick (R81) -/

/-- The tracker whose turn for MoveTick it is: the first that had armed it. -/
def Slice.tickTurn (sl : Slice) : Option Tracker := sl.trk.find? fun t => t.armed && t.tickDue

theorem Slice.tickTurn_eq_some {u v : List Tracker} (h : sl.trk = u ++ t :: v) (hu : ∀ x ∈ u, x.armed = false ∨ x.tickDue = false)
    (ha : t.armed = true) (hd : t.tickDue = true) : sl.tickTurn = some t := by
  refine List.find?_eq_some_iff_append.mpr ⟨by simp [ha, hd], u, v, h, fun x hx => ?_⟩
  simpa using hu x hx

theorem Slice.tickTurn_eq_none (h : ∀ x ∈ sl.trk, x.armed = false ∨ x.tickDue = false) : sl.tickTurn = none := by
  refine List.find?_eq_none.mpr fun x hx => ?_
  rcases h x hx with h | h <;> simp [h]

theorem State.moveTick_of_turn (hs : s.slice p = some sl) (ht : sl.tickTurn = some t) : s.moveTick p n =
    if t.num = n then (((s.modTrk p n fun x => { x with tickDue := false }).count p 0x4E none).feed p n
      { inp := .moveTick, line := t.req.line }).settle p else s := by
  rw [Slice.tickTurn] at ht
  simp only [State.moveTick, hs, ht, bne_iff_ne, ne_eq, ite_not]

theorem State.moveTick_of_no_turn (hs : s.slice p = some sl) (ht : sl.tickTurn = none) : s.moveTick p n = s := by
  rw [Slice.tickTurn] at ht
  simp only [State.moveTick, hs, ht]

/-! ### Self-check, re-evaluation, gating (R29, R80, R200, R502) -/

/-- Once the slot of the self-check has come, no further slot is given for it. -/
theorem State.toSelfSlot_of_selfSlot (hs : s.slice p = some sl) (hf : sl.arb.selfSlot = true) (k : Nat) :
    State.toSelfSlot k s p = s := by
  cases k <;> simp [State.toSelfSlot, hs, hf]

theorem State.selfCheck_of_selfSlot (hs : s.slice p = some sl) (hl : sl.live = true) (hf : sl.arb.selfSlot = true) (ok : Bool) :
    s.selfCheck p ok =
      if sl.arb.selfDone = true then s
      else if ok = true then s.modSlice p fun x =>
        { x with arb := { x.arb with selfDone := true }, ident := { x.ident with beatThisMove := true, beats := x.ident.beats + 1 } }
      else s.modSlice p fun x => { x with ident := { x.ident with failed := some .mismatch } } := by
  simp only [State.selfCheck, State.toSelfSlot_of_selfSlot hs hf, hs, hl, hf, State.failSlice_of_live hs hl]
  cases sl.arb.selfDone <;> cases ok <;> rfl

theorem State.reeval_of_live (hs : s.slice p = some sl) (hl : sl.live = true) (ht : s.tracker p n = some t) : s.reeval p n =
    if t.reevalDue = true ∧ t.stall = none then (s.lookupPump p n).settle p else s := by
  simp only [State.reeval, hs, ht, hl, Bool.true_and, Bool.and_eq_true, Option.isNone_iff_eq_none]

theorem State.p1Gate_eq (hs : s.slice p = some sl) : s.p1Gate p =
    if (bitAt (s.actReg 0x010) 29 = true ∧ s.pwr.phase = .p0 ∧ sl.live = true ∧ sl.beating = true ∧ sl.idle = true ∧
      sl.arb.selfDone = true ∧ sl.ident.busyMove = false ∧ s.p1Idle ≤ sl.ident.idleMoves)
    then s.modSlice p fun x => { x with ident := { x.ident with gated := true } } else s := by
  simp only [State.p1Gate, hs, Bool.and_eq_true, beq_iff_eq, Bool.not_eq_true', decide_eq_true_eq, and_assoc]

end Turns

/-- Settles O23: MoveTick by whose turn it is, the others by the condition of each. -/
theorem ticksChecksReevaluationsAndGating : Obligations.TicksChecksReevaluationsAndGating := by
  refine ⟨fun s p n sl t u v hs hl => ⟨fun htrk hu ha hd => ?_, fun hno => ?_, fun hf hd => ?_, fun hf hd => ?_, fun hf hd ok => ?_,
    fun ht hr hst => ?_, fun ht hr => ?_⟩, fun s p sl hs => ⟨fun hen hph hl hb hi hd hq hidle => ?_, fun h => ?_, rfl⟩⟩
  · have turn := Slice.tickTurn_eq_some htrk hu ha hd
    exact ⟨congrArg _ ((State.moveTick_of_turn hs turn).trans (if_pos rfl)),
      fun hn => congrArg _ ((State.moveTick_of_turn hs turn).trans (if_neg hn.symm))⟩
  · exact congrArg _ (State.moveTick_of_no_turn hs (Slice.tickTurn_eq_none hno))
  · exact congrArg _ ((State.selfCheck_of_selfSlot hs hl hf true).trans (by rw [hd]; rfl))
  · exact congrArg _ ((State.selfCheck_of_selfSlot hs hl hf false).trans (by rw [hd]; rfl))
  · exact congrArg _ ((State.selfCheck_of_selfSlot hs hl hf ok).trans (if_pos hd))
  · exact congrArg _ ((State.reeval_of_live hs hl ht).trans (if_pos ⟨hr, hst⟩))
  · exact congrArg _ ((State.reeval_of_live hs hl ht).trans (if_neg (by simp [hr])))
  · exact congrArg _ ((State.p1Gate_eq hs).trans (if_pos ⟨hen, hph, hl, hb, hi, hd, hq, hidle⟩))
  · refine congrArg _ ((State.p1Gate_eq hs).trans (if_neg ?_))
    rcases h with h | h <;> simp [h]

/-! ### Issue slots (R80, R90, R91, R95) -/

section IssueSlot

variable {s : State} {p n : Nat} {sl : Slice}

/-- A slice that is not live, or whose clock is gated, has no cycle (R502). -/
theorem State.issueSlot_of_stopped (hs : s.slice p = some sl) (h : sl.live = false ∨ sl.ident.gated = true) : s.issueSlot p = s := by
  rcases h with h | h <;> simp [State.issueSlot, hs, h]

/-- A cycle of a running slice is its slot, with the draws that serve it, and the cycle's end. -/
theorem State.issueSlot_eq (hs : s.slice p = some sl) (hl : sl.live = true) (hg : sl.ident.gated = false) : s.issueSlot p =
    ((s.cycleCounts p sl).slot p sl (slotKind (sl.arb.cyc % 1024))
      (if s.variant = .yzh16 then sl.arb.pipeQ else s.drawQ p sl)
      (if s.variant = .yzh16 then sl.arb.pipeL else s.drawLottery p sl)).cycleEnd p sl (slotKind (sl.arb.cyc % 1024))
        ((s.cands sl fun _ => true).map fun c => c.input)
        (if s.variant = .yzh16 then s.drawQ p sl else none) (if s.variant = .yzh16 then s.drawLottery p sl else none) := by
  simp only [State.issueSlot, hs, hl, hg, beq_iff_eq]
  rfl

theorem State.slot_of_k_or_lottery {kind : SlotKind} (h : kind = .k ∨ kind = .lottery) (dq dl : Option Cand) :
    s.slot p sl kind dq dl = s.lotterySlot p sl dl := by
  rcases h with rfl | rfl <;> rfl

/-- A Q slot without a candidate is a lottery slot (R91). -/
theorem State.slot_of_no_q {kind : SlotKind} {dq : Option Cand} (hk : kind ≠ .maint) (h : dq = none ∨ kind ≠ .q) (dl : Option Cand) :
    s.slot p sl kind dq dl = s.lotterySlot p sl dl := by
  cases kind with
  | k => rfl
  | lottery => rfl
  | maint => exact absurd rfl hk
  | q =>
    obtain rfl : dq = none := h.resolve_right fun h => h rfl
    rfl

theorem State.lotterySlot_of_kPick {q : Req} (h : s.kPick sl = some (n, q)) (dl : Option Cand) :
    s.lotterySlot p sl dl = s.accept p n q := by
  simp only [State.lotterySlot, h]

/-- A lottery slot that finds nothing is counted (R90). -/
theorem State.lotterySlot_of_nothing (hk : s.kPick sl = none) (hf : s.forcedPick sl = none) (hm : s.maintWaits p sl = false) :
    s.lotterySlot p sl none = s.count p 0x07 none := by
  simp only [State.lotterySlot, hk, hf, hm]
  rfl

/-- A drawn candidate with tickets whose port was not reset since presents its request (R95). -/
theorem State.grant_of_candReq {c : Cand} {may first : Req → Bool} {q : Req} (hr : s.resetSince sl c.input = false)
    (hq : s.candReq sl c may first = some q) (ht : s.tickets p c ≠ 0) : s.grant p sl c may first = s.accept p c.input q := by
  simp [State.grant, hr, hq, ht]

theorem State.slot_of_first_maint (h : sl.arb.selfSlot = false) (dq dl : Option Cand) :
    s.slot p sl .maint dq dl = s.modArb p fun a => { a with selfSlot := true } := by
  simp [State.slot, h]

end IssueSlot

/-! ### Starvation limits and credits (R92, R98) -/

section Credits

variable {s : State} {p n : Nat} {sl : Slice} {i : InputQ}

theorem State.starved_eq (hs : s.slice p = some sl) (hi : sl.arb.inputs[n]? = some i) : s.starved p n =
    if s.starveLimit p n ≠ 0 ∧ s.starveLimit p n ≤ i.starve ∧ i.forced = false then s.modSlice p fun x =>
      { x with arb := { x.arb with starved := setBit x.arb.starved n true,
                                   inputs := x.arb.inputs.modify n fun y => { y with forced := true } } }
    else s := by
  simp only [State.starved, hs, Option.bind_some, hi, Bool.and_eq_true, bne_iff_ne, decide_eq_true_eq, Bool.not_eq_true', and_assoc]
  rfl

theorem State.kcredit_of_pool {o : Pool} (hs : s.slice p = some sl) (hi : sl.arb.inputs[n]? = some i) (ho : sl.creditPool = some o) :
    s.kcredit p n =
      if s.variant.hasInput n = true ∧ sl.live = true ∧ sl.ident.role.serves = true ∧ i.kcredit = none then
        (s.modSlice p fun x =>
          { x with arb := { x.arb with inputs := x.arb.inputs.modify n fun y => { y with kcredit := some o } } }).portRelease n
      else s := by
  simp only [State.kcredit, hs, hi, ho, Bool.and_eq_true, Option.isNone_iff_eq_none, and_assoc]
  rfl

/-- Without a tracker and a hold entry for it no credit is issued (R26, R92). -/
theorem State.kcredit_of_no_pool (hs : s.slice p = some sl) (ho : sl.creditPool = none) : s.kcredit p n = s := by
  simp only [State.kcredit, hs, ho]
  cases sl.arb.inputs[n]? <;> rfl

end Credits

/-! ### Hold release (R25, R27) -/

section Hold

variable {s : State} {p : Nat} {l : LineAddr} {sl : Slice} {h : HoldEnt}

/-- An entry of a line goes before every other one of the line: class K first, then order of arrival. -/
def Slice.HeldFirst (sl : Slice) (l : LineAddr) (h : HoldEnt) : Prop :=
  ∀ x ∈ sl.hold, x.req.line = l → x ≠ h → (x.req.cls = .k → h.req.cls = .k) ∧ ((x.req.cls = .k ↔ h.req.cls = .k) → h.order < x.order)

/-- In a list of entries in which one is earlier than every other, it is found. -/
theorem find?_earliest {c : List HoldEnt} (hc : h ∈ c) (first : ∀ x ∈ c, x ≠ h → h.order < x.order) :
    (c.find? fun y => c.all fun x => y.order ≤ x.order) = some h := by
  have earliest : (c.all fun x => h.order ≤ x.order) = true := by
    refine List.all_eq_true.mpr fun x hx => decide_eq_true ?_
    by_cases hxh : x = h
    · exact hxh ▸ le_rfl
    · exact (first x hx hxh).le
  cases hf : c.find? fun y => c.all fun x => y.order ≤ x.order with
  | none => exact absurd earliest (List.find?_eq_none.mp hf h hc)
  | some y =>
    have found := List.find?_some hf
    have le : y.order ≤ h.order := of_decide_eq_true (List.all_eq_true.mp found h hc)
    by_contra hy
    exact absurd (first y (List.mem_of_find?_eq_some hf) fun e => hy (congrArg some e)) le.not_gt

theorem Slice.dueHold_eq (hm : h ∈ sl.hold) (hl : h.req.line = l) (first : sl.HeldFirst l h) : sl.dueHold l = some h := by
  have mem : ∀ x, x ∈ (sl.hold.filter fun y => y.req.line == l) ↔ x ∈ sl.hold ∧ x.req.line = l := fun x => by simp
  have memK : ∀ x, x ∈ ((sl.hold.filter fun y => y.req.line == l).filter fun y => y.req.cls == .k) ↔
      (x ∈ sl.hold ∧ x.req.line = l) ∧ x.req.cls = .k := fun x => by rw [List.mem_filter, mem, beq_iff_eq]
  unfold Slice.dueHold
  dsimp only
  split
  case isTrue empty =>
    have noK : ∀ x ∈ sl.hold, x.req.line = l → x.req.cls ≠ .k := fun x hx hxl hk =>
      List.ne_nil_of_mem ((memK x).mpr ⟨⟨hx, hxl⟩, hk⟩) (List.isEmpty_iff.mp empty)
    refine find?_earliest ((mem h).mpr ⟨hm, hl⟩) fun x hx hne => ?_
    obtain ⟨hx, hxl⟩ := (mem x).mp hx
    exact (first x hx hxl hne).2 (iff_of_false (noK x hx hxl) (noK h hm hl))
  case isFalse some_k =>
    have hk : h.req.cls = .k := by
      obtain ⟨y, hy⟩ := List.exists_mem_of_ne_nil _ (mt List.isEmpty_iff.mpr some_k)
      obtain ⟨⟨hy, hyl⟩, hyk⟩ := (memK y).mp hy
      by_cases e : y = h
      · exact e ▸ hyk
      · exact (first y hy hyl e).1 hyk
    refine find?_earliest ((memK h).mpr ⟨⟨hm, hl⟩, hk⟩) fun x hx hne => ?_
    obtain ⟨⟨hx, hxl⟩, hxk⟩ := (memK x).mp hx
    exact (first x hx hxl hne).2 (iff_of_true hxk hk)

/-- An access in a slice that holds no error meets none (R404). -/
theorem State.meetErr_of_no_errs (hs : s.slice p = some sl) (he : sl.obs.errs = []) (arr : ErrArr) (ev : Option Nat) (ce : Nat)
    (hit : Nat → Bool) : s.meetErr p arr ev ce hit = (s, false) := by
  simp [State.meetErr, hs, he]

/-- A request that is no MigStart and is due for its line is released as such. -/
theorem exec_holdRelease_of_due (hs : s.slice p = some sl) (hd : sl.dueHold l = some h) (hk : h.req.kind ≠ .migStart) :
    exec (.holdRelease p l) s = .next (s.holdRelease p l) := by
  have kind : (h.req.kind == Inp.migStart) = false := beq_false_of_ne hk
  show execHoldRelease p l s = _
  simp only [execHoldRelease, hs, Option.bind_some, hd, kind]
  rfl

theorem State.holdRelease_of_pool {o : Pool} (hs : s.slice p = some sl) (hl : sl.live = true) (he : sl.obs.errs = [])
    (ht : sl.holderTrk l = none) (hr : s.replaying p l = false) (hd : sl.dueHold l = some h) (ho : s.releasePool sl h.req = some o) :
    s.holdRelease p l = (((s.modSlice p fun x => { x with hold := x.hold.filter fun y => y.num != h.num }).openTracker p
      h.req o true).noteOcc p).settleIn p := by
  simp only [State.holdRelease, hs, hl, ht, hr, hd, ho, State.meetErr_of_no_errs hs he]
  rfl

theorem State.holdRelease_of_holder (hs : s.slice p = some sl) (ht : (sl.holderTrk l).isSome = true) : s.holdRelease p l = s := by
  simp [State.holdRelease, hs, ht]

end Hold

/-- Settles O25: a cycle by the slot of its kind, limits and credits by their conditions, a release by the entry that is due. -/
theorem slotsCreditsAndHold : Obligations.SlotsCreditsAndHold := by
  refine ⟨fun s p sl hs => ⟨fun h => congrArg _ (State.issueSlot_of_stopped hs h), fun hl hg => ?_⟩,
    fun s p n sl i hs hi => ⟨fun h0 hle hf => ?_, fun hlt => ?_, fun o ho hin hl hr hc => ?_, fun h => ?_⟩,
    fun s p l sl h o hs hl he hm hline hk first => ⟨fun ht hr ho => ?_, fun ht => ?_⟩⟩
  · have cycle := State.issueSlot_eq hs hl hg
    intro kind had q1 l1 dq dl s1
    have slot {t : State} (ht : s1.slot p sl kind dq dl = t) : exec (.issueSlot p) s = .next (t.cycleEnd p sl kind had q1 l1) :=
      congrArg _ (cycle.trans (congrArg (fun t => t.cycleEnd p sl kind had q1 l1) ht))
    refine ⟨fun n q hk hq => slot ?_, fun c q hk hc hr hq ht => slot ?_, fun hk hf => slot ?_, fun hk hkp hfp hq hdl hm => slot ?_⟩
    · exact (State.slot_of_k_or_lottery hk dq dl).trans (State.lotterySlot_of_kPick hq dl)
    · rw [hk, hc]
      exact State.grant_of_candReq hr hq ht
    · rw [hk]
      exact State.slot_of_first_maint hf dq dl
    · rw [State.slot_of_no_q hk hq, hdl]
      exact State.lotterySlot_of_nothing hkp hfp hm
  · exact congrArg _ ((State.starved_eq hs hi).trans (if_pos ⟨h0, hle, hf⟩))
  · exact congrArg _ ((State.starved_eq hs hi).trans (if_neg fun ⟨_, hle, _⟩ => absurd hle hlt.not_ge))
  · exact congrArg _ ((State.kcredit_of_pool hs hi ho).trans (if_pos ⟨hin, hl, hr, hc⟩))
  · cases hp : sl.creditPool with
    | none => exact congrArg _ (State.kcredit_of_no_pool hs hp)
    | some o =>
      have taken : i.kcredit ≠ none := Option.isSome_iff_ne_none.mp (h.resolve_left (by simp [hp]))
      exact congrArg _ ((State.kcredit_of_pool hs hi hp).trans (if_neg fun ⟨_, _, _, hc⟩ => taken hc))
  · have due : sl.dueHold l = some h := Slice.dueHold_eq hm hline first
    exact (exec_holdRelease_of_due hs due hk).trans (congrArg _ (State.holdRelease_of_pool hs hl he ht hr due ho))
  · have due : sl.dueHold l = some h := Slice.dueHold_eq hm hline first
    exact (exec_holdRelease_of_due hs due hk).trans (congrArg _ (State.holdRelease_of_holder hs ht))

/-! ### The boundary (R77 to R79) -/

section Boundary

variable {s : State}

/-- The count goes up, and the limits of records start anew (R77, R164, R252, R434). -/
def State.nextMove (s : State) : State :=
  { s with
    gl := { s.gl with move := s.gl.move + 1 }
    hostPorts := s.hostPorts.map fun h => { h with logged := [] }
    ev := { s.ev with escLogged := [], poisonDir := 0 } }

/-- The move begins in every slice, and what the director does by the move comes due; `offs`: the registers of the commit. -/
def State.movesBegun (s : State) (offs : List Nat) : State :=
  (((List.range s.variant.phys).foldl (fun (s : State) p => s.sliceBoundary offs p) s).probesFollow).rootTick.directorDue

theorem State.moveBoundary_in_reset (h : s.pins.blkPor = false) : s.moveBoundary = s := by
  simp [State.moveBoundary, h]

theorem State.moveBoundary_in_p2 (h : s.pins.blkPor = true) (hp : s.pwr.phase = .p2) : s.moveBoundary = s.nextMove := by
  rw [State.moveBoundary, if_neg (by simp [h])]
  exact if_pos (beq_iff_eq.mpr hp)

theorem State.moveBoundary_awake (h : s.pins.blkPor = true) (hp : s.pwr.phase ≠ .p2) : s.moveBoundary =
    s.nextMove.meshMove.ctlSettle.commitForce.movesBegun (s.gl.commit.map (·.1)) := by
  rw [State.moveBoundary, if_neg (by simp [h])]
  exact if_neg (mt beq_iff_eq.mp hp)

theorem State.commitForce_of_none (h : s.gl.anyCommit = false) : s.commitForce = s := by
  simp [State.commitForce, h]

theorem State.commitForce_of_any (h : s.gl.anyCommit = true) : s.commitForce =
    (s.gl.commit.foldl (fun (s : State) x => s.putForce x.1 x.2) { s with gl := { s.gl with commit := [], anyCommit := false } }).inForce
      s (s.gl.commit.map (·.1)) := by
  simp [State.commitForce, h]

end Boundary

/-- Settles O30: what the boundary does by the state of reset and power, and by whether a commit is pending. -/
theorem aMoveBoundaryStartsTheMoveInEverySlice : Obligations.AMoveBoundaryStartsTheMoveInEverySlice := by
  intro s s1 s2 begun
  have boundary (h : s.pins.blkPor = true) (hp : s.pwr.phase ≠ .p2) :
      s.moveBoundary = begun s2.commitForce (s.gl.commit.map (·.1)) := State.moveBoundary_awake h hp
  refine ⟨fun h => congrArg _ (State.moveBoundary_in_reset h), fun h hp => congrArg _ (State.moveBoundary_in_p2 h hp),
    fun h hp hc => ?_, fun h hp hc => ?_⟩
  · exact congrArg _ ((boundary h hp).trans (by rw [State.commitForce_of_none hc]))
  · exact congrArg Host.Outcome.next ((boundary h hp).trans (by rw [State.commitForce_of_any hc]))

/-! ### Command fields (R509) -/

/-- A row that sets a mask of one bit in a register is the register's write with that bit set. -/
theorem exec_eq_registerWrite {c : Instr} {s : State} {w : RegAcc} {o i : Nat} {m : W32}
    (h : exec c s = .next (s.writeAt o (withBits w m))) (hm : m = 1#32 <<< i) :
    exec c s = exec (.registerWrite (BitVec.ofNat 27 o) { w with data := setBit w.data i true }) s := by
  subst hm
  exact h

/-- The same in a slice, whose registers are counted from its own base (R533). -/
theorem exec_eq_registerWrite_slice {c : Instr} {s : State} {w : RegAcc} {p r i : Nat} {m : W32}
    (h : exec c s = .next (s.writeSl p r (withBits w m))) (hm : m = 1#32 <<< i) :
    exec c s = exec (.registerWrite (BitVec.ofNat 27 (r + 0x800000 + 0x40000 * p)) { w with data := setBit w.data i true }) s := by
  refine exec_eq_registerWrite (h.trans ?_) hm
  rw [State.writeSl, slBase, Nat.add_comm, Nat.add_assoc]

/-- Settles O50: each row's mask is its field's bit. -/
theorem commandFieldsAreWritesOfTheirRegister : Obligations.CommandFieldsAreWritesOfTheirRegister := by
  intro s w n _
  have clrCyc := exec_eq_registerWrite_slice (c := .slPmcClrCyc n w) (s := s) (i := 8) rfl rfl
  have peek := exec_eq_registerWrite_slice (c := .slPeekGo n w) (s := s) (i := 31) rfl rfl
  have start := exec_eq_registerWrite_slice (c := .slMscPreStart n w) (s := s) (i := 31) rfl rfl
  have abort := exec_eq_registerWrite_slice (c := .slMscPreAbort n w) (s := s) (i := 30) rfl rfl
  simp only [List.forall_mem_cons]
  refine ⟨?_, ?_, ?_, ?_, ?_, clrCyc, peek, start, abort, ?_, ?_, ?_, ?_, ?_, ?_, ?_, ?_, List.forall_mem_nil _⟩ <;>
    exact exec_eq_registerWrite rfl rfl

/-! ### Commits (R79, R145) -/

/-- A list of values for registers, written one after another. -/
def ksetAll (c : List (Nat × W32)) (l : List (Nat × W32)) : List (Nat × W32) := c.foldl (fun l x => kset x.1 x.2 l) l

theorem kget_ksetAll_of_not_mem {c : List (Nat × W32)} {o : Nat} (h : ∀ x ∈ c, x.1 ≠ o) (l : List (Nat × W32)) :
    kget o (ksetAll c l) = kget o l := by
  induction c generalizing l with
  | nil => rfl
  | cons x c ih =>
    exact (ih (fun y hy => h y (.tail _ hy)) _).trans (kget_kset_other (h x (.head _)).symm x.2 l)

/-- The values of a list whose keys rise are all there after it is written. -/
theorem kget_ksetAll_of_mem {c : List (Nat × W32)} {x : Nat × W32} (hs : ksorted c = true) (hx : x ∈ c) (l : List (Nat × W32)) :
    kget x.1 (ksetAll c l) = some x.2 := by
  induction c generalizing l with
  | nil => cases hx
  | cons y c ih =>
    obtain ⟨above, hs⟩ := (ksorted_cons y.1 y.2 c).mp hs
    rcases List.mem_cons.mp hx with rfl | hx
    · exact (kget_ksetAll_of_not_mem (fun z hz => (above z hz).ne') _).trans (kget_kset_same x.1 x.2 l)
    · exact ih hs hx _

theorem ksorted_filter {α : Type} (f : Nat × α → Bool) {l : List (Nat × α)} (h : ksorted l = true) : ksorted (l.filter f) = true := by
  induction l with
  | nil => rfl
  | cons x l ih =>
    obtain ⟨above, hl⟩ := (ksorted_cons x.1 x.2 l).mp h
    rw [List.filter_cons]
    split
    · exact (ksorted_cons x.1 x.2 _).mpr ⟨fun y hy => above y (List.mem_filter.mp hy).1, ih hl⟩
    · exact ih hl

theorem mem_of_kget {α : Type} {o : Nat} {v : α} {l : List (Nat × α)} (h : kget o l = some v) : (o, v) ∈ l := by
  induction l with
  | nil => cases h
  | cons x l ih =>
    obtain ⟨a, y⟩ := x
    rw [kget] at h
    split at h
    · next e => cases h; exact e ▸ .head _
    · exact .tail _ (ih h)

section Commit

variable {s : State} {m : W32}

/-- A register's pending value is captured by a commit: its block is named, and it has fields that a commit brings into force. -/
def State.captures (s : State) (m : W32) (o : Nat) : Bool :=
  s.commitBlock m o && (match regDef s.variant o with | some d => d.rwb != 0 | none => false)

theorem State.captures_eq_false {o : Nat} (h : (∀ d, regDef s.variant o = some d → d.rwb = 0) ∨ s.commitBlock m o = false) :
    s.captures m o = false := by
  rcases h with h | h
  · cases hd : regDef s.variant o with
    | none => simp [State.captures, hd]
    | some d => simp [State.captures, hd, h d hd]
  · simp [State.captures, h]

theorem State.captures_eq_true {o : Nat} {d : RegDef} (hd : regDef s.variant o = some d) (hr : d.rwb ≠ 0)
    (hb : s.commitBlock m o = true) : s.captures m o = true := by
  simp only [State.captures, hd, hb, Bool.true_and]
  exact bne_iff_ne.mpr hr

theorem State.commit_of_no_block (h : m &&& 0x01FFFF3F = 0) : s.commit m = s := by
  simp only [State.commit, h, bne_self_eq_false]
  rfl

theorem State.commit_of_block (h : m &&& 0x01FFFF3F ≠ 0) : s.commit m = { s with
    gl := { s.gl with anyCommit := true, commit := ksetAll (s.regs.base.filter fun x => s.captures m x.1) s.gl.commit } } := by
  simp only [State.commit, bne_iff_ne.mpr h]
  rfl

end Commit

/-- A write of a register that the base view has, in a block that is not isolated (R492, R509, R517). -/
theorem State.writeAt_eq {s : State} {w : RegAcc} {o : Nat} (ho : o < 0x1000000) (hd : s.defined o = true) : s.writeAt o w =
    let s1 : State := { s with pins := { s.pins with regUr := false } }
    if (s.offIsolated o || isEvtData o) = true then s1
    else ((if (gsBits o != 0 && !(w.priv && w.sec)) = true then s1.guarded true (BitVec.ofNat 27 o) else s1).touchSlice o).baseWrite o w := by
  have here : (BitVec.ofNat 27 o).toNat = o := by rw [BitVec.toNat_ofNat]; omega
  simp only [State.writeAt, State.regWrite, here, Nat.mod_eq_of_lt ho, Nat.div_eq_of_lt ho, hd]
  rfl

/-- A whole write of GL_COMMIT or GL_GAME, which hold no stored field, is their command (R509). -/
theorem State.writeAt_command {s : State} {w : RegAcc} {o : Nat} (ho : o = 0x008 ∨ o = 0x014) (hw : w.be = 15) :
    s.writeAt o w = ({ s with pins := { s.pins with regUr := false } }).regCommand o w.data := by
  have defined : s.defined o = true := by rcases ho with rfl | rfl <;> simp [State.defined, State.report, State.glReport]
  have noField (v : Variant) : regDef v o = none := by rcases ho with rfl | rfl <;> rfl
  have noSlice : sliceOfOff o = none := by rcases ho with rfl | rfl <;> rfl
  have noEvt : isEvtData o = false := by rcases ho with rfl | rfl <;> rfl
  have noGs : gsBits o = 0 := by rcases ho with rfl | rfl <;> rfl
  have whole : w.data &&& writeMask o w = w.data := by
    rw [writeMask, hw, noGs, show beMask 15 = BitVec.allOnes 32 from rfl, show ~~~(0 : W32) = BitVec.allOnes 32 from rfl, ite_self,
      BitVec.and_self, BitVec.and_allOnes]
  rw [State.writeAt_eq (by omega) defined]
  simp only [State.offIsolated, noSlice, noEvt, noGs, State.touchSlice, State.baseWrite, noField, whole]
  rfl

/-- Settles O55: a commit by what it captures from the pending values, GL_GAME by its command. -/
theorem commitsGatherTheNamedBlocks : Obligations.CommitsGatherTheNamedBlocks := by
  intro s w hw
  let s1 : State := { s with pins := { s.pins with regUr := false } }
  have commit : exec (.glCommit w) s = .next (s1.commit w.data) := congrArg _ (State.writeAt_command (.inl rfl) hw)
  have game : exec (.glGameWrite w) s = .next (s1.regCommand 0x014 w.data) :=
    congrArg Host.Outcome.next (State.writeAt_command (.inr rfl) hw)
  refine ⟨fun hm => commit.trans (congrArg _ (State.commit_of_no_block hm)), fun hm => ?_, game⟩
  refine ⟨_, commit.trans (congrArg _ (State.commit_of_block hm)), rfl, fun o h => ?_, fun o d v hd hr hb hs hv => ?_⟩
  · have no : s1.captures w.data o = false := State.captures_eq_false h
    refine kget_ksetAll_of_not_mem (fun x hx e => ?_) _
    obtain ⟨-, hx⟩ := List.mem_filter.mp hx
    rw [e, no] at hx
    cases hx
  · have yes : s1.captures w.data o = true := State.captures_eq_true hd hr hb
    exact kget_ksetAll_of_mem (ksorted_filter _ hs) (List.mem_filter.mpr ⟨mem_of_kget hv, yes⟩) _

end Sys2Proof.Machine

/-! The coherence directory: spill entries in their slots (R138, R139), and the slices' copies of the page map with the stamps and the
heat that they carry (R147, R295, R334, R335, R348, R423). -/

namespace Sys2Proof.Machine

open Sys2Proof

/-! ### The SHARERS field (R116, R117) -/

/-- A word gathered by OR has the bits of its parts. -/
theorem getLsbD_foldl_or {w : Nat} (l : List (BitVec w)) (b : BitVec w) (i : Nat) :
    (l.foldl (· ||| ·) b).getLsbD i = (b.getLsbD i || l.any fun x => x.getLsbD i) := by
  induction l generalizing b with
  | nil => simp
  | cons x l ih => rw [List.foldl_cons, ih, BitVec.getLsbD_or, List.any_cons, Bool.or_assoc]

/-- Of a pointer in place `k`, the six bits of place `i` show its own bits where `i` is `k`, and nothing elsewhere. -/
theorem getLsbD_pointer {h i j k : Nat} (hj : j < 6) (hi : i < 5) :
    (BitVec.ofNat 32 (h % 64) <<< (6 * k)).getLsbD (6 * i + j) = (decide (k = i) && h.testBit j) := by
  have low (n : Nat) : (h % 64).testBit n = (decide (n < 6) && h.testBit n) := Nat.testBit_mod_two_pow h 6 n
  rw [BitVec.getLsbD_shiftLeft, BitVec.getLsbD_ofNat, low]
  rcases lt_trichotomy k i with hk | rfl | hk
  · have : ¬ 6 * i + j - 6 * k < 6 := by omega
    simp [this, hk.ne]
  · have inWord : 6 * k + j < 32 := by omega
    have inHost : j < 32 := by omega
    simp [inWord, inHost, hj]
  · have : 6 * i + j < 6 * k := by omega
    simp [this, hk.ne']

section Pointers

variable {e : Entry} {i : Nat}

theorem Entry.getLsbD_sharers (hc : e.coarse = none) (hi : i < e.ptrs.length) (h5 : i < 5) {j : Nat} (hj : j < 6) :
    e.sharers.getLsbD (6 * i + j) = e.ptrs[i].testBit j := by
  simp only [sharers, hc, getLsbD_foldl_or, BitVec.ofNat_eq_ofNat, BitVec.getLsbD_zero, Bool.false_or]
  rw [Bool.eq_iff_iff, List.any_eq_true]
  constructor
  · rintro ⟨x, hx, hb⟩
    obtain ⟨k, hk, rfl⟩ := List.mem_mapIdx.mp hx
    rw [getLsbD_pointer hj h5, Bool.and_eq_true, decide_eq_true_eq] at hb
    obtain ⟨rfl, hb⟩ := hb
    exact hb
  · intro hb
    refine ⟨_, List.mem_mapIdx.mpr ⟨i, hi, rfl⟩, ?_⟩
    rw [getLsbD_pointer hj h5, hb, decide_eq_true rfl, Bool.true_and]

theorem Entry.fieldN_sharers (hc : e.coarse = none) (h64 : ∀ h ∈ e.ptrs, h < 64) (hi : i < e.ptrs.length) (h5 : i < 5) :
    fieldN e.sharers (6 * i) 6 = e.ptrs[i] := by
  refine Nat.eq_of_testBit_eq fun j => ?_
  rw [fieldN, BitVec.testBit_toNat, BitVec.getLsbD_extractLsb']
  by_cases hj : j < 6
  · rw [Entry.getLsbD_sharers hc hi h5 hj, decide_eq_true hj, Bool.true_and]
  · have small : e.ptrs[i] < 2 ^ j := (h64 _ (List.getElem_mem hi)).trans_le (Nat.pow_le_pow_right (n := 2) (by decide) (not_lt.mp hj))
    rw [Nat.testBit_lt_two_pow small, decide_eq_false hj, Bool.false_and]

/-- Up to five precise pointers are read back from the SHARERS field. -/
theorem ptrsOf_sharers (hc : e.coarse = none) (h64 : ∀ h ∈ e.ptrs, h < 64) (h5 : e.ptrs.length ≤ 5) :
    ptrsOf e.sharers e.ptrs.length = e.ptrs := by
  refine List.ext_getElem (by simp [ptrsOf, h5]) fun i _ hi => ?_
  rw [← Entry.fieldN_sharers hc h64 hi (by omega)]
  simp [ptrsOf]

end Pointers

/-! ### The fields of a spill slot (R138) -/

/-- A bit is a field of one bit. -/
theorem bitAt_eq_extract {w : Nat} (x : BitVec w) (i : Nat) : bitAt x i = bitAt (x.extractLsb' i 1) 0 := by
  simp [bitAt]

theorem bitAt_b1 (b : Bool) : bitAt (b1 b) 0 = b := by cases b <;> rfl

section SpillSlot

variable (g : Game) (e : Entry)

/-- A slot's fields, highest first, in a word whose width is written as the sum of theirs: the library's laws of a field of an
appended word match a sum, so the field lemmas below keep `simp` from adding it up. -/
theorem extract_spillBits (i n : Nat) : (spillBits g e).extractLsb' i n = BitVec.extractLsb' i n ((1 : BitVec 1) ++ g ++ e.line ++
    e.st.bits ++ b1 e.coarse.isSome ++ BitVec.ofNat 3 e.ptrs.length ++ e.sharers ++ b1 e.amh ++ BitVec.ofNat 3 e.fwd ++
    (0 : BitVec 35)) := rfl

theorem bitAt_spillBits_valid : bitAt (spillBits g e) 127 = true := by
  rw [bitAt_eq_extract, extract_spillBits]
  simp [-Nat.reduceAdd, BitVec.extractLsb'_append_eq_ite, bitAt]

theorem spillBits_game : (spillBits g e).extractLsb' 119 8 = g := by
  simp [-Nat.reduceAdd, extract_spillBits, BitVec.extractLsb'_append_eq_ite]

theorem slotLine_spillBits : slotLine (spillBits g e) = e.line := by
  simp [-Nat.reduceAdd, slotLine, extract_spillBits, BitVec.extractLsb'_append_eq_ite]

theorem spillBits_state : (spillBits g e).extractLsb' 75 2 = e.st.bits := by
  simp [-Nat.reduceAdd, extract_spillBits, BitVec.extractLsb'_append_eq_ite]

theorem bitAt_spillBits_coarse : bitAt (spillBits g e) 74 = e.coarse.isSome := by
  rw [bitAt_eq_extract, extract_spillBits]
  simp [-Nat.reduceAdd, BitVec.extractLsb'_append_eq_ite, bitAt_b1]

theorem spillBits_count : fieldN (spillBits g e) 71 3 = e.ptrs.length % 8 := by
  rw [fieldN, extract_spillBits]
  simp [-Nat.reduceAdd, BitVec.extractLsb'_append_eq_ite]

theorem spillBits_sharers : (spillBits g e).extractLsb' 39 32 = e.sharers := by
  simp [-Nat.reduceAdd, extract_spillBits, BitVec.extractLsb'_append_eq_ite]

theorem bitAt_spillBits_amh : bitAt (spillBits g e) 38 = e.amh := by
  rw [bitAt_eq_extract, extract_spillBits]
  simp [-Nat.reduceAdd, BitVec.extractLsb'_append_eq_ite, bitAt_b1]

theorem spillBits_fwd : fieldN (spillBits g e) 35 3 = e.fwd % 8 := by
  rw [fieldN, extract_spillBits]
  simp [-Nat.reduceAdd, BitVec.extractLsb'_append_eq_ite]

end SpillSlot

theorem HState.ofBits_bits (st : HState) : HState.ofBits st.bits = st := by cases st <;> rfl

/-- A slot of a spill entry is occupied in the entry's own game alone (R139). -/
theorem slotOccupied_spillBits (g g' : Game) (e : Entry) : slotOccupied g' (spillBits g e) = (g == g') := by
  rw [slotOccupied, bitAt_spillBits_valid, spillBits_game, Bool.true_and]

/-- The holders that a slot gives back are the entry's: precise ones from their places, coarse ones as the field stands. -/
theorem slotEntry_spillBits {g : Game} {e : Entry} (hopn : e.opn = false) (hkpin : e.kpin = false) (hfwd : e.fwd < 8)
    (h64 : ∀ h ∈ e.ptrs, h < 64) (h5 : e.ptrs.length ≤ 5) (hco : e.coarse.isSome = true → e.ptrs = []) :
    slotEntry (spillBits g e) = e := by
  obtain ⟨line, st, ptrs, coarse, amh, fwd, opn, kpin⟩ := e
  subst hopn hkpin
  have count : ptrs.length % 8 = ptrs.length := Nat.mod_eq_of_lt (h5.trans_lt (by decide))
  have port : fwd % 8 = fwd := Nat.mod_eq_of_lt hfwd
  simp only [slotEntry, slotLine_spillBits, spillBits_state, HState.ofBits_bits, bitAt_spillBits_coarse, spillBits_count,
    spillBits_sharers, bitAt_spillBits_amh, spillBits_fwd, count, port]
  cases coarse with
  | none => exact congrArg (Entry.mk line st · none amh fwd false false) (ptrsOf_sharers rfl h64 h5)
  | some b => exact congrArg (Entry.mk line st · (some b) amh fwd false false) (hco rfl).symm

/-- Settles O5: the slot's fields are the entry's, and its game is compared. -/
theorem spillSlotsHoldTheirEntry : Obligations.SpillSlotsHoldTheirEntry := by
  intro g e hopn hkpin hfwd h64 h5 hco
  refine ⟨slotEntry_spillBits hopn hkpin hfwd h64 h5 hco, ?_, fun g' hg => ?_⟩
  · rw [slotOccupied_spillBits, beq_self_eq_true]
  · rw [slotOccupied_spillBits, beq_eq_false_iff_ne]
    exact hg.symm

/-! ### Messages between the director and the slices -/

section Messages

variable {s : State} {p : Nat} {pg : Page}

theorem State.onMsg_eq {m : NMsg} (hn : s.net.contains m = true) (f : State → State) : s.onMsg m f = f (s.takeMsg m) := if_pos hn

/-- A stamp gives the entry, and the copy of the slice that sent it, the current game (R147). -/
theorem State.takeStamp_eq : s.takeStamp p pg = ((s.setEnt pg { s.pageEnt pg with game := s.gl.game }).modSlice p fun sl =>
    { sl with pm := sl.pm.map fun x => if x.2.page = pg then (x.1, { x.2 with ent := { x.2.ent with game := s.gl.game } }) else x }).send
      (.stampAck p pg) := by
  simp only [State.takeStamp, beq_iff_eq]
  rfl

theorem State.putHeat_eq {f : Nat} (h : BitVec 8) (hf : s.entFrame (s.pageEnt pg) = some f) :
    s.putHeat pg h = { s with dir := { s.dir with frames := kset f ⟨pg, h⟩ s.dir.frames } } := by
  rw [State.putHeat, hf]

theorem State.heatDecay_of_not_due (h : s.dctl.decayDue = false) : s.heatDecay = s := by
  simp only [State.heatDecay, h]
  rfl

theorem State.heatDecay_of_due (h : s.dctl.decayDue = true) : s.heatDecay = { s with
    dctl := { s.dctl with decayDue := false }
    slices := s.slices.map fun sl => { sl with pm := sl.pm.map fun x => (x.1, { x.2 with heat := x.2.heat >>> 1 }) } } := by
  simp only [State.heatDecay, h]
  rfl

end Messages

section PageMap

variable {s : State} {p : Nat} {pg : Page}

/-- What a read of a page's entry finds (R332): the entry, and whether it is corrupt. -/
def State.readOf (pg : Page) (s : State) : PEnt × Bool := (s.pageEnt pg, s.entBad pg)

theorem State.pmRequest_readOf (s : State) (p : Nat) (q : Page) : (s.pmRequest p q).readOf pg = s.readOf pg := by
  unfold State.pmRequest
  split
  · rfl
  · split <;> rfl

theorem State.kpLoads_readOf (s : State) : s.kpLoads.readOf pg = s.readOf pg :=
  (foldl_keeps (State.readOf pg) (fun s (x : Nat × Page × Bool) => State.pmRequest_readOf s x.1 x.2.1) _ _).trans rfl

theorem State.kpLoaded_readOf (s : State) (p : Nat) (q : Page) : (s.kpLoaded p q).readOf pg = s.readOf pg := by
  unfold State.kpLoaded
  split
  · rfl
  · exact State.kpLoads_readOf _

/-- A live slice, with a read of the page's entry under way; `again` is set when an update has overtaken the read (R335). -/
structure State.Fills (s : State) (p : Nat) (pg : Page) (sl : Slice) (again : Bool) : Prop where
  slice : s.slice p = some sl
  chunk : s.chunkIn pg = true
  sent : s.net.contains (.pmRead p pg) = true
  live : sl.live = true
  out : (sl.pmOut.find? fun x => x.1 == pg) = some (pg, again)

theorem State.Fills.again {sl : Slice} (h : s.Fills p pg sl true) (ue : Bool) :
    s.pageMapFill p pg ue = ((s.takeMsg (.pmRead p pg)).modSlice p fun x =>
      { x with pmOut := x.pmOut.map fun y => if y.1 == pg then (pg, false) else y }).send (.pmRead p pg) := by
  have slice : (s.takeMsg (.pmRead p pg)).slice p = some sl := h.slice
  rw [State.pageMapFill, h.chunk, State.onMsg_eq h.sent, slice]
  simp only [h.out, h.live]
  rfl

/-- The block once a read of the page's entry for a slice has come: the read is no longer out, and the next entry that a castling has
still to load is asked for (R423). -/
def State.readCame (s : State) (p : Nat) (pg : Page) : State :=
  ((s.takeMsg (.pmRead p pg)).modSlice p fun x => { x with pmOut := x.pmOut.filter fun y => y.1 != pg }).kpLoaded p pg

theorem State.readCame_readOf (s : State) : (s.readCame p pg).readOf pg = s.readOf pg :=
  (State.kpLoaded_readOf _ p pg).trans rfl

/-- The entry that is installed is the one that the director holds: asking for the next of a castling changes no entry. -/
theorem State.Fills.install {sl : Slice} (h : s.Fills p pg sl false) {w : Nat} (hb : s.entBad pg = false) (hw : sl.pmWay pg = some w) :
    s.pageMapFill p pg false = (((s.readCame p pg).pmInstall p pg (s.pageEnt pg) w).pmWake p pg).settle p := by
  have slice : (s.takeMsg (.pmRead p pg)).slice p = some sl := h.slice
  obtain ⟨entry, bad⟩ := Prod.mk.inj (State.readCame_readOf (p := p) (pg := pg) s)
  rw [hb, State.readCame] at bad
  rw [← entry, State.pageMapFill, h.chunk, State.onMsg_eq h.sent, slice]
  simp only [h.out, h.live, hw, bad, Bool.not_true, Bool.or_self, Bool.false_eq_true, if_false]
  rfl

theorem State.pageMapUpdate_eq (hn : s.net.contains (.entry pg) = true) (hh : s.homeSlice pg = some p) :
    s.pageMapUpdate pg = (s.takeMsg (.entry pg)).modSlice p fun x => Slice.kFollow { x with
      pm := x.pm.map fun y => if y.2.page == pg then (y.1, { y.2 with ent := s.pageEnt pg }) else y
      pmOut := x.pmOut.map fun y => if y.1 == pg then (pg, true) else y } pg (s.pageEnt pg).kpin := by
  have home : (s.takeMsg (.entry pg)).homeSlice pg = some p := hh
  rw [State.pageMapUpdate, State.onMsg_eq hn, home]
  rfl

end PageMap

/-- Settles O35: each message by what its part does with it, a fill by whether an update has overtaken its read. -/
theorem stampsHeatAndPageMapCopies : Obligations.StampsHeatAndPageMapCopies := by
  refine ⟨fun s p f pg h => ⟨fun hn => ?_, fun hn hf => ?_, fun hd => ?_, fun hd => ?_⟩,
    fun s p pg sl hs => ⟨fun hc hn hl again ho => ⟨fun ha ue => ?_, fun w ha hb hw => ?_⟩, fun hn hh => ?_⟩⟩
  · have done := (State.onMsg_eq hn fun t => t.takeStamp p pg).trans State.takeStamp_eq
    exact congrArg (fun t => Host.Outcome.next (State.hintSettle t)) done
  · have done := (State.onMsg_eq hn fun t => t.putHeat pg h).trans (State.putHeat_eq h hf)
    exact congrArg (fun t => Host.Outcome.next (State.hintSettle t)) done
  · exact congrArg _ (State.heatDecay_of_not_due hd)
  · exact congrArg _ (State.heatDecay_of_due hd)
  · subst ha
    exact congrArg _ (State.Fills.again ⟨hs, hc, hn, hl, ho⟩ ue)
  · subst ha
    exact congrArg _ (State.Fills.install ⟨hs, hc, hn, hl, ho⟩ hb hw)
  · exact congrArg _ (State.pageMapUpdate_eq hn hh)

end Sys2Proof.Machine

/-! The host ports: requests and their error responses (R61, R92, R151 to R164), answers to back-invalidate snoops (R165 to R167),
links and host identities (R44, R168, R177 to R183). -/

namespace Sys2Proof.Machine

open Sys2Proof

/-! ### Changes of list entries -/

section Modify

variable {α : Type} {l : List α} {i : Nat} {f g : α → α}

/-- Changes that agree on what stands in a place are one change of it. -/
theorem modify_congr_at (h : ∀ x, l[i]? = some x → f x = g x) : l.modify i f = l.modify i g := by
  refine List.ext_getElem? fun j => ?_
  rw [List.getElem?_modify, List.getElem?_modify]
  split
  · next e => exact Option.map_congr fun x hx => h x (e ▸ hx)
  · rfl

/-- A change that leaves what stands in a place is none. -/
theorem modify_of_fixed_at (h : ∀ x, l[i]? = some x → f x = x) : l.modify i f = l :=
  (modify_congr_at h).trans (List.modify_id i l)

/-- A property that every entry has, and that a change keeps, every entry has afterwards. -/
theorem forall_mem_modify {P : α → Prop} (hl : ∀ x ∈ l, P x) (hf : ∀ x, P x → P (f x)) : ∀ x ∈ l.modify i f, P x := by
  intro y hy
  obtain ⟨j, hj⟩ := List.mem_iff_getElem?.mp hy
  rw [List.getElem?_modify] at hj
  obtain ⟨x, hx, rfl⟩ := Option.map_eq_some_iff.mp hj
  have before := hl x (List.mem_of_getElem? hx)
  split
  · exact hf x before
  · exact before

/-- The first `n` entries changed, one after the other. -/
theorem foldl_modify_range (l : List α) (f : α → α) (n : Nat) :
    (List.range n).foldl (fun l i => l.modify i f) l = l.mapIdx fun i x => if i < n then f x else x := by
  refine List.ext_getElem? fun j => ?_
  rw [List.getElem?_mapIdx]
  induction n with
  | zero => simp
  | succ n ih =>
    rw [List.range_succ, List.foldl_append, List.foldl_cons, List.foldl_nil, List.getElem?_modify, ih]
    rcases lt_trichotomy j n with hj | rfl | hj
    · simp [hj.ne', hj, hj.trans (Nat.lt_succ_self n)]
    · simp
    · simp [hj.ne, hj.not_gt, show ¬ j < n + 1 by omega]

/-- All entries changed, one after the other. -/
theorem foldl_modify_all (l : List α) (f : α → α) : (List.range l.length).foldl (fun l i => l.modify i f) l = l.map f := by
  rw [foldl_modify_range]
  refine List.ext_getElem? fun j => ?_
  rw [List.getElem?_mapIdx, List.getElem?_map]
  exact Option.map_congr fun x hx => if_pos (List.getElem?_eq_some_iff.mp hx).1

end Modify

/-! ### Requests and the responses that refuse them (R61, R151 to R164) -/

/-- The commands that present a message as a request: its kind, its data, its byte enables, and whether the data is poisoned. -/
def hostCommands (m : HostMsg) (d : Line) (be : BitVec 64) (po : Bool) : List (Instr × Inp × Line × BitVec 64 × Bool) :=
  [(.memRd m, .memRd, 0, 0, false), (.memRdData m, .memRdData, 0, 0, false), (.memSpecRd m, .memSpecRd, 0, 0, false),
   (.memInv m, .memInv, 0, 0, false), (.memInvNT m, .memInvNT, 0, 0, false), (.memClnEvct m, .memClnEvct, 0, 0, false),
   (.memWr m d po, .memWr, d, BitVec.allOnes 64, po), (.memWrPtl m d be po, .memWrPtl, d, be, po),
   (.biConflict m, .biConflict, 0, 0, false)]

section Requests

variable {s : State} {m : HostMsg} {d : Line} {be : BitVec 64} {po : Bool} {c : Instr} {k : Inp} {h : Nat} {hp : HostPort}

theorem exec_of_mem_hostCommands {x : Instr × Inp × Line × BitVec 64 × Bool} (hx : x ∈ hostCommands m d be po) (s : State) :
    exec x.1 s = .next (s.hostRequest x.2.1 m x.2.2.1 x.2.2.2.1 x.2.2.2.2) := by
  revert x
  simp only [hostCommands, List.forall_mem_cons]
  exact ⟨rfl, rfl, rfl, rfl, rfl, rfl, rfl, rfl, rfl, fun _ h => absurd h List.not_mem_nil⟩

/-- A command of the list with its kind presents its message so, with some data. -/
theorem exec_of_hostCommand (hc : (c, k) ∈ (hostCommands m d be po).map fun x => (x.1, x.2.1)) :
    ∃ d be po, ∀ s, exec c s = .next (s.hostRequest k m d be po) := by
  obtain ⟨x, hx, e⟩ := List.mem_map.mp hc
  obtain ⟨rfl, rfl⟩ := Prod.mk.inj e
  exact ⟨_, _, _, exec_of_mem_hostCommands hx⟩

/-- The HID as which the error response of a message goes: that of its sender, 64 for none. -/
def State.sender (s : State) (m : HostMsg) : Nat := (s.hidOf m.port m.ldid m.spid).getD 64

/-- The messages of the error response (R163). -/
def State.errorResponse (s : State) (k : Inp) (m : HostMsg) : List S2M :=
  (hostErrorBodies k m.tag.toNat).map fun b => ⟨s.sender m, lineOf m.addr, none, b, false, 0⟩

/-- The port gives a message the error response of its kind (R163). -/
def State.respondError (s : State) (k : Inp) (m : HostMsg) : State :=
  s.modHostPort m.port fun x => { x with egress := x.egress ++ s.errorResponse k m }

/-- The condition of R163 under which an unsupported opcode is refused. -/
def State.opcodeRefusal (s : State) (m : HostMsg) : Nat :=
  if s.addrOk m.addr = false then 0 else if (s.hidOf m.port m.ldid m.spid).isNone then 1 else 2

theorem State.hostUp_of_hostTakes {port : Nat} (h : s.hostTakes port = true) : s.hostUp port = true := by
  simp only [State.hostTakes, Bool.and_eq_true, and_assoc] at h
  exact h.1

theorem State.hostError_respondError (hu : s.hostUp m.port = true) :
    s.hostError m.port (s.sender m) k m.tag.toNat (lineOf m.addr) = s.respondError k m :=
  State.hostError_eq s m.port _ k _ _ hu

/-- Counting an error condition leaves the link as it is. -/
theorem State.hostUp_hostErr (port w : Nat) : (s.hostErr port w).hostUp port = s.hostUp port := by
  unfold State.hostErr
  split
  · rfl
  · dsimp only
    split <;> exact State.hostUp_modHostPort s port _ fun _ => ⟨rfl, rfl⟩

/-- A host port that has counted an error condition, with its first of the move noted, and has more messages to send. -/
def HostPort.erred (w : Nat) (said : List S2M) (x : HostPort) : HostPort :=
  { x with errs := x.errs.modify (errCounter w) satInc, logged := if x.logged.contains w then x.logged else x.logged ++ [w],
           egress := x.egress ++ said }

/-- The response of a refused message: the port counts the condition, logs its first of the move, and answers (R163, R164). -/
theorem State.refuse_eq (port : s.hostPort m.port = some hp) (hu : s.hostUp m.port = true) (w : Nat) :
    (s.hostErr m.port w).hostError m.port (s.sender m) k m.tag.toNat (lineOf m.addr) =
      { s with hostPorts := s.hostPorts.modify m.port (HostPort.erred w (s.errorResponse k m))
               ev := if hp.logged.contains w then s.ev else (s.logEv 0x20 0 srcHost m.port (BitVec.ofNat 64 w)).ev } := by
  rw [State.hostError_eq _ _ _ _ _ _ ((State.hostUp_hostErr _ _).trans hu), State.hostErr_eq s _ w hp port]
  simp only [State.modHostPort, List.modify_modify_eq]
  rfl

theorem State.hostRequest_of_walkFailed (hw : s.walkFailed = true) (hu : s.hostUp m.port = true) (hv : m.port < s.variant.hosts) :
    s.hostRequest k m d be po = s.respondError k m := by
  rw [← State.hostError_respondError hu]
  simp [State.hostRequest, State.sender, hw, hu, hv]

theorem State.hostRequest_of_not_takes (hw : s.walkFailed = false) (ht : s.hostTakes m.port = false) :
    s.hostRequest k m d be po = s := by
  simp [State.hostRequest, hw, ht]

theorem State.hostRequest_of_refusal (hw : s.walkFailed = false) (ht : s.hostTakes m.port = true) {w : Nat}
    (hr : s.hostRefusal k m = some w) :
    s.hostRequest k m d be po = (s.hostErr m.port w).hostError m.port (s.sender m) k m.tag.toNat (lineOf m.addr) := by
  simp [State.hostRequest, State.sender, hw, ht, hr]

/-! An unsupported opcode on Req or RwD is answered as a MemInv would be (R163). -/

theorem exec_hostUnsupported (hc : c = .hostUnsupported m .req ∨ c = .hostUnsupported m .rwd) (s : State) :
    exec c s = .next (State.hostOpcode.go m s) := by
  rcases hc with rfl | rfl <;> rfl

theorem State.hostOpcode_of_walkFailed (hw : s.walkFailed = true) (hu : s.hostUp m.port = true) (hv : m.port < s.variant.hosts) :
    State.hostOpcode.go m s = s.respondError .memInv m := by
  rw [← State.hostError_respondError hu]
  simp [State.hostOpcode.go, State.sender, hw, hu, hv]

theorem State.hostOpcode_of_not_takes (hw : s.walkFailed = false) (ht : s.hostTakes m.port = false) :
    State.hostOpcode.go m s = s := by
  simp [State.hostOpcode.go, hw, ht]

theorem State.hostOpcode_of_takes (hw : s.walkFailed = false) (ht : s.hostTakes m.port = true) :
    State.hostOpcode.go m s =
      (s.hostErr m.port (s.opcodeRefusal m)).hostError m.port (s.sender m) .memInv m.tag.toNat (lineOf m.addr) := by
  simp [State.hostOpcode.go, State.sender, State.opcodeRefusal, hw, ht]

end Requests

/-- Settles O9: a refused request and an unsupported opcode get the same response, `State.refuse_eq`. -/
theorem hostErrorResponse : Obligations.HostErrorResponse := by
  intro s m d be po c k hp port said errs request other
  have refused (w : Nat) (hu : s.hostUp m.port = true)
      (hx : exec c s = .next ((s.hostErr m.port w).hostError m.port (s.sender m) k m.tag.toNat (lineOf m.addr))) : errs w := by
    rw [State.refuse_eq port hu] at hx
    refine ⟨_, hp.erred w said, hx, rfl, fun q hq => ?_, ?_, rfl, rfl, rfl⟩
    · exact State.hostPort_modHostPort_other s hq _
    · exact (State.hostPort_modHostPort s m.port _).trans (congrArg (Option.map _) port)
  have ofRequest (hc : request) : ∃ d be po, ∀ s, exec c s = .next (s.hostRequest k m d be po) :=
    exec_of_hostCommand (d := d) (be := be) (po := po) hc
  have ofOther (hc : other) : k = .memInv ∧ (c = .hostUnsupported m .req ∨ c = .hostUnsupported m .rwd) := by
    rcases List.mem_pair.mp hc with hc | hc
    · exact (Prod.mk.inj hc).symm.imp_right .inl
    · exact (Prod.mk.inj hc).symm.imp_right .inr
  refine ⟨fun hw ht => ⟨fun w hc hr => ?_, fun hc => ?_⟩, fun hw hu hv hc => ?_⟩
  · obtain ⟨d, be, po, run⟩ := ofRequest hc
    exact refused w (State.hostUp_of_hostTakes ht) ((run s).trans (congrArg _ (State.hostRequest_of_refusal hw ht hr)))
  · obtain ⟨rfl, opcode⟩ := ofOther hc
    exact refused _ (State.hostUp_of_hostTakes ht)
      ((exec_hostUnsupported opcode s).trans (congrArg _ (State.hostOpcode_of_takes hw ht)))
  · rcases hc with hc | hc
    · obtain ⟨d, be, po, run⟩ := ofRequest hc
      exact (run s).trans (congrArg _ (State.hostRequest_of_walkFailed hw hu hv))
    · obtain ⟨rfl, opcode⟩ := ofOther hc
      exact (exec_hostUnsupported opcode s).trans (congrArg _ (State.hostOpcode_of_walkFailed hw hu hv))

/-- A host port that has counted an opcode on BIRsp: as one that it does not support, and as an answer to no BISnp (R163, R167). -/
def HostPort.strayed (x : HostPort) : HostPort := { x.erred 2 [] with biUnmatched := satInc x.biUnmatched }

/-- The block when an unsupported opcode has been logged: its first of the move at the port (R163), and always as an answer to no
BISnp (R167). -/
def State.logStray (s : State) (hp : HostPort) (m : HostMsg) : State :=
  (if hp.logged.contains 2 then s else s.logEv 0x20 0 srcHost m.port 2).logEv 0x21 0 srcHost (s.sender m)
    (addrDetail (lineOf m.addr) 0)

theorem State.hostOpcode_birsp {s : State} {m : HostMsg} {hp : HostPort} (port : s.hostPort m.port = some hp)
    (hu : s.hostUp m.port = true) (hs : s.eg.pstate ≠ .save) (hd : s.eg.pstate ≠ .saved) :
    s.hostOpcode m .birsp = { s with hostPorts := s.hostPorts.modify m.port HostPort.strayed, ev := (s.logStray hp m).ev } := by
  have counted : s.hostOpcode m .birsp = (s.hostErr m.port 2).unmatched m.port (s.sender m) (lineOf m.addr) := by
    simp [State.hostOpcode, State.sender, hu, hs, hd]
  have once : (HostPort.strayed : HostPort → HostPort) = (fun x => { x with biUnmatched := satInc x.biUnmatched }) ∘ fun x =>
      { x with errs := x.errs.modify (errCounter 2) satInc
               logged := if x.logged.contains 2 then x.logged else x.logged ++ [2] } := by
    funext x
    simp [HostPort.strayed, HostPort.erred]
  rw [counted, State.hostErr_eq s _ 2 hp port, State.unmatched, State.logStray, once, ← List.modify_modify_eq]
  split <;> rfl

/-- Settles O10: without credits a request changes nothing; an opcode on BIRsp is counted twice at its port and logged. -/
theorem portsThatTakeNothing : Obligations.PortsThatTakeNothing := by
  refine fun s m d be po => ⟨fun hw ht => ?_, fun hp port hu hs hd => ?_⟩
  · have idle : ∀ c ∈ ((hostCommands m d be po).map fun x => x.1) ++ [.hostUnsupported m .req, .hostUnsupported m .rwd],
        exec c s = .next s := by
      intro c hc
      rcases List.mem_append.mp hc with hc | hc
      · obtain ⟨x, hx, rfl⟩ := List.mem_map.mp hc
        exact (exec_of_mem_hostCommands hx s).trans (congrArg _ (State.hostRequest_of_not_takes hw ht))
      · exact (exec_hostUnsupported (by simpa using hc) s).trans (congrArg _ (State.hostOpcode_of_not_takes hw ht))
    exact idle
  · refine ⟨_, hp.strayed, congrArg Host.Outcome.next (State.hostOpcode_birsp port hu hs hd), rfl, fun q hq => ?_, ?_, rfl, rfl, ?_⟩
    · exact State.hostPort_modHostPort_other s hq _
    · exact (State.hostPort_modHostPort s m.port _).trans (congrArg (Option.map _) port)
    · exact List.append_nil _

/-! ### The way of a request to its home (R92, R156, R161) -/

section Accepted

variable {s : State} {m : HostMsg} {d : Line} {be : BitVec 64} {po : Bool} {k : Inp} {h p n : Nat} {hp : HostPort}
  {q : Req} {sl : Slice}

/-- A host port accepts a request of a kind from a host identity. -/
structure State.Accepts (s : State) (k : Inp) (m : HostMsg) (h : Nat) (hp : HostPort) : Prop where
  walk : s.walkFailed = false
  takes : s.hostTakes m.port = true
  legal : s.hostRefusal k m = none
  hid : s.hidOf m.port m.ldid m.spid = some h
  port : s.hostPort m.port = some hp

/-- An earlier message for the line of a request is kept at the port (R156). -/
def HostPort.keepsLine (hp : HostPort) (m : HostMsg) : Bool := hp.waiting.any fun x => x.line == lineOf m.addr

theorem State.hostReqOf_biConflict : (s.hostReqOf k m h d be po).kind = .biConflict ↔ k = .biConflict := by
  simp only [State.hostReqOf]
  split
  · next hk =>
    obtain ⟨-, hk⟩ := Bool.and_eq_true_iff.mp hk
    simp [eq_of_beq hk]
  · rfl

theorem State.sendTo_eq (ht : s.targetOf q.line = some p) (hs : s.slice p = some sl) (hn : q.src.input = some n) :
    s.sendTo q = if q.kind = .biConflict ∨ s.portClass q ≠ .k ∨ sl.creditIdle n = true then some p else none := by
  simp [State.sendTo, ht, hs, hn, Option.filter, or_assoc]

theorem State.sendTo_of_no_target (ht : s.targetOf q.line = none) : s.sendTo q = none := by
  rw [State.sendTo, ht]
  rfl

theorem State.arriveBy_eq (hs : s.slice p = some sl) (hn : q.src.input = some n) (home : Bool) :
    s.arriveBy p q home = if home then State.slotsFor 4 (s.arrive p q) p n sl.arb.seq else s.arrive p q := by
  simp only [State.arriveBy, hs, hn]

theorem State.Accepts.sent (a : s.Accepts k m h hp) (hr : m.reach ≠ .port) (hl : hp.keepsLine m = false)
    (hq : s.sendTo (s.hostReqOf k m h d be po) = some p) :
    s.hostRequest k m d be po = s.arriveBy p (s.hostReqOf k m h d be po) (m.reach == .home) := by
  have goes : (m.reach == .port || hp.waiting.any fun x => x.line == (s.hostReqOf k m h d be po).line) = false :=
    Bool.or_eq_false_iff.mpr ⟨beq_false_of_ne hr, hl⟩
  simp only [State.hostRequest, a.walk, a.takes, a.legal, a.hid, a.port, goes, hq]
  rfl

theorem State.Accepts.kept (a : s.Accepts k m h hp)
    (hk : m.reach = .port ∨ hp.keepsLine m = true ∨ s.sendTo (s.hostReqOf k m h d be po) = none) :
    s.hostRequest k m d be po =
      if k = .memSpecRd then s
      else s.modHostPort m.port fun x => { x with waiting := x.waiting ++ [s.hostReqOf k m h d be po] } := by
  have stays : (if m.reach == .port || hp.waiting.any fun x => x.line == (s.hostReqOf k m h d be po).line then none
      else s.sendTo (s.hostReqOf k m h d be po)) = none := by
    rcases hk with hk | hk | hk
    · rw [hk]
      rfl
    · exact if_pos (Bool.or_eq_true_iff.mpr (.inr hk))
    · rw [hk, ite_self]
  simp only [State.hostRequest, a.walk, a.takes, a.legal, a.hid, a.port, stays, beq_iff_eq]
  rfl

end Accepted

/-- Settles O8: `State.Accepts.sent` and `State.arrive_joins` for a request that leaves, `State.Accepts.kept` for one that stays. -/
theorem hostRequestJoinsItsHome : Obligations.HostRequestJoinsItsHome := by
  intro s m d be po c k h hp hc hw ht hr hh port q asK same
  have a : s.Accepts k m h hp := ⟨hw, ht, hr, hh, port⟩
  have run : exec c s = .next (s.hostRequest k m d be po) := exec_of_mem_hostCommands hc s
  have conflict : q.kind = .biConflict ↔ k = .biConflict := State.hostReqOf_biConflict
  have input : q.src.input = some m.port := rfl
  have line : q.line = lineOf m.addr := rfl
  refine ⟨fun p sl hreach hsame hd hs hk => ?_, fun hstay => run.trans (congrArg _ (a.kept ?_))⟩
  · intro s1 t u
    have sends : s.sendTo q = some p := by
      rw [State.sendTo_eq (line ▸ hd) hs input, if_pos (hk.imp_left conflict.mpr)]
    have kind : (q.kind != .biConflict) = (k != .biConflict) := Bool.eq_iff_iff.mpr (by simp only [bne_iff_ne, ne_eq, conflict])
    have joins : s.arrive p q = u := by
      rw [State.arrive_joins s p m.port q sl hs input]
      simp only [conflict, kind]
      rfl
    rw [run, a.sent hreach hsame sends, State.arriveBy_eq hs input, joins]
    simp only [beq_iff_eq]
  · rcases hstay with hstay | hstay | hstay | ⟨p, sl, hd, hs, hb, hk, hi⟩
    · exact .inl hstay
    · exact .inr (.inl hstay)
    · exact .inr (.inr (State.sendTo_of_no_target (line ▸ hstay)))
    · refine .inr (.inr ((State.sendTo_eq (line ▸ hd) hs input).trans (if_neg ?_)))
      rintro (h | h | h)
      · exact hb (conflict.mp h)
      · exact h hk
      · simp [hi] at h

/-! ### Answers to back-invalidate snoops (R165 to R167) -/

section Answers

variable {s : State} {r : BiRsp} {c : Instr} {ans : Inp} {ls : List LineAddr} {h p port n : Nat} {l : LineAddr} {sl : Slice}
  {t : Tracker} {x : HSnpOut}

/-- The lines that an answer for `n` aligned lines names, in ascending order (R165, R166). -/
def answeredLines (n : Nat) (l : LineAddr) : List LineAddr :=
  (List.range n).map fun i => (l &&& ~~~(BitVec.ofNat 42 (n - 1))) + BitVec.ofNat 42 i

theorem answeredLines_one (l : LineAddr) : answeredLines 1 l = [l] := by
  have whole : ~~~(BitVec.ofNat 42 (1 - 1)) = BitVec.allOnes 42 := rfl
  simp only [answeredLines, whole, BitVec.and_allOnes]
  simp

theorem answeredLines_block (four : Bool) (l : LineAddr) : answeredLines (blkLines four) l = blockOf four l := by
  cases four <;> rfl

/-- Each BIRsp command presents its answer for the lines that its form names. -/
theorem exec_of_biRsp {four : Bool}
    (hc : (c, ans, ls) ∈ [(.biRspI r, .biRspI, [r.line]), (.biRspS r, .biRspS, [r.line]), (.biRspE r, .biRspE, [r.line]),
      (.biRspIBlk r four, .biRspI, blockOf four r.line), (.biRspSBlk r four, .biRspS, blockOf four r.line),
      (.biRspEBlk r four, .biRspE, blockOf four r.line)]) :
    ∃ n, answeredLines n r.line = ls ∧ exec c s = .next (s.birsp r ans n) := by
  have one := answeredLines_one r.line
  have block := answeredLines_block four r.line
  simp only [List.mem_cons, List.not_mem_nil, or_false, Prod.mk.injEq] at hc
  rcases hc with ⟨rfl, rfl, rfl⟩ | ⟨rfl, rfl, rfl⟩ | ⟨rfl, rfl, rfl⟩ | ⟨rfl, rfl, rfl⟩ | ⟨rfl, rfl, rfl⟩ | ⟨rfl, rfl, rfl⟩
  · exact ⟨1, one, rfl⟩
  · exact ⟨1, one, rfl⟩
  · exact ⟨1, one, rfl⟩
  · exact ⟨_, block, rfl⟩
  · exact ⟨_, block, rfl⟩
  · exact ⟨_, block, rfl⟩

/-- A host port takes answers: its link is up, and credits are not withheld as in SAVE (R383). -/
structure State.TakesAnswers (s : State) (port : Nat) : Prop where
  up : s.hostUp port = true
  noSave : s.eg.pstate ≠ .save
  notSaved : s.eg.pstate ≠ .saved

theorem State.TakesAnswers.birsp_of_hid (a : s.TakesAnswers r.port) (hh : s.hidOf r.port r.ldid r.spid = some h) :
    s.birsp r ans n = (answeredLines n r.line).foldl (fun s l => s.hostAnswer r.port h l ans) s := by
  simp [State.birsp, answeredLines, a.up, a.noSave, a.notSaved, hh]

theorem State.TakesAnswers.birsp_of_no_hid (a : s.TakesAnswers r.port) (hh : s.hidOf r.port r.ldid r.spid = none) :
    s.birsp r ans n = s.unmatched r.port 64 r.line := by
  simp [State.birsp, a.up, a.noSave, a.notSaved, hh]

theorem legalAns_eq_true {k : HSnp} (hl : ans = .biRspI ∨ (ans = .biRspS ∧ k ≠ .inv) ∨ (ans = .biRspE ∧ k = .cur)) :
    legalAns k ans = true := by
  rcases hl with rfl | ⟨rfl, hk⟩ | ⟨rfl, rfl⟩
  · rfl
  · cases k
    case inv => exact absurd rfl hk
    all_goals rfl
  · rfl

theorem legalAns_eq_false {k : HSnp} (hl : (ans = .biRspS ∧ k = .inv) ∨ (ans = .biRspE ∧ k ≠ .cur)) : legalAns k ans = false := by
  rcases hl with ⟨rfl, rfl⟩ | ⟨rfl, hk⟩
  · rfl
  · cases k
    case cur => exact absurd rfl hk
    all_goals rfl

theorem State.hostAnswer_of_no_slice (ha : s.answerSlice l = none) : s.hostAnswer port h l ans = s.unmatched port h l := by
  simp only [State.hostAnswer, ha]

/-- The answer travels to a slice. -/
def State.meshAnswer (s : State) (port h p : Nat) (l : LineAddr) (ans : Inp) : State :=
  s.meshSend { meshMsg (.host port) (.slice p) ans.code .p l 0 with peer := h }

/-- An answer for one line, as it is presented to the tracker whose BISnp it answers. -/
def answerMsg (port h : Nat) (l : LineAddr) (ans : Inp) (t : Tracker) (x : HSnpOut) : InMsg :=
  { inp := ans, vic := t.isVic l, line := l, who := some (.host port h), ownerAns := x.owner, hKind := some x.kind }

/-- A legal answer is presented to the tracker as it is (R165). -/
theorem State.hostAnswer_of_legal (ha : s.answerSlice l = some p) (hs : s.slice p = some sl) (hx : sl.snooped h l = some (t, x))
    (hl : legalAns x.kind ans = true) : s.hostAnswer port h l ans =
      (((s.meshAnswer port h p l ans).count p 0x31 (some t.req.cls)).feed p t.num (answerMsg port h l ans t x)).settleIn p := by
  have slice (m : MeshMsg) : (s.meshSend m).slice p = some sl := hs
  simp only [State.hostAnswer, ha, slice, Option.bind_some, hx, hl]
  rfl

/-- An illegal one is presented as BIRspI, and its sender is fenced (R167). -/
theorem State.hostAnswer_of_illegal (ha : s.answerSlice l = some p) (hs : s.slice p = some sl) (hx : sl.snooped h l = some (t, x))
    (hl : legalAns x.kind ans = false) : s.hostAnswer port h l ans =
      ((((s.meshAnswer port h p l ans).count p 0x31 (some t.req.cls)).feed p t.num
        { answerMsg port h l ans t x with inp := .biRspI, illegal := true }).markFenced h 0).settleIn p := by
  have slice (m : MeshMsg) : (s.meshSend m).slice p = some sl := hs
  simp only [State.hostAnswer, ha, slice, Option.bind_some, hx, hl]
  rfl

theorem State.recordFor_of_no_replay (hr : s.cast.replays = []) (hit : Tracker → Bool) : s.recordFor p hit = none := by
  rw [State.recordFor, hr]
  rfl

/-- One that no BISnp awaits is discarded at the slice (R167). -/
theorem State.hostAnswer_of_not_snooped (ha : s.answerSlice l = some p) (hs : s.slice p = some sl) (hx : sl.snooped h l = none)
    (hr : s.cast.replays = []) :
    s.hostAnswer port h l ans = ((s.meshAnswer port h p l ans).unmatched port h l).count p 0x37 none := by
  have slice (m : MeshMsg) : (s.meshSend m).slice p = some sl := hs
  have noRecord (m : MeshMsg) (hit : Tracker → Bool) : (s.meshSend m).recordFor p hit = none := State.recordFor_of_no_replay hr hit
  simp only [State.hostAnswer, ha, slice, Option.bind_some, hx, noRecord]
  rfl

end Answers

/-- Settles O11: the lines of each form by `exec_of_biRsp`, one line's answer by what its slice awaits. -/
theorem biRspAnswersItsLinesOrIsDiscarded : Obligations.BIRspAnswersItsLinesOrIsDiscarded := by
  refine ⟨fun s r four c ans ls hc hu hs hd => ?_, ?_⟩
  · have takes : s.TakesAnswers r.port := ⟨hu, hs, hd⟩
    obtain ⟨n, rfl, run⟩ := exec_of_biRsp (s := s) hc
    exact ⟨fun h hh => run.trans (congrArg _ (takes.birsp_of_hid hh)), fun hh => run.trans (congrArg _ (takes.birsp_of_no_hid hh))⟩
  · intro s r h p sl c ans hc hu hs hd hh lost
    have run : exec c s = .next (s.hostAnswer r.port h r.line ans) := by
      have takes : s.TakesAnswers r.port := ⟨hu, hs, hd⟩
      have one : s.birsp r ans 1 = s.hostAnswer r.port h r.line ans := by
        rw [takes.birsp_of_hid hh, answeredLines_one]
        rfl
      rw [← one]
      simp only [List.mem_cons, List.not_mem_nil, or_false, Prod.mk.injEq] at hc
      rcases hc with ⟨rfl, rfl⟩ | ⟨rfl, rfl⟩ | ⟨rfl, rfl⟩
      · rfl
      · rfl
      · rfl
    refine ⟨fun ha => run.trans (congrArg _ (State.hostAnswer_of_no_slice ha)), fun ha hsl =>
      ⟨fun t x hx => ⟨fun hl => ?_, fun hl => ?_⟩, fun hx hr => ?_⟩⟩
    · exact run.trans (congrArg _ (State.hostAnswer_of_legal ha hsl hx (legalAns_eq_true hl)))
    · exact run.trans (congrArg _ (State.hostAnswer_of_illegal ha hsl hx (legalAns_eq_false hl)))
    · exact run.trans (congrArg _ (State.hostAnswer_of_not_snooped ha hsl hx hr))

/-! ### Links (R44, R177 to R181) -/

section Links

variable {s : State} {p h n : Nat} {hp : HostPort} {x : Hid}

/-- The host identities that a port serves. -/
def State.portHids (s : State) (p : Nat) : List Nat :=
  (List.range s.hids.length).filter fun h => match s.hid h with | some x => bitAt x.portMask p | none => false

theorem State.mem_portHids : h ∈ s.portHids p ↔ ∃ x, s.hid h = some x ∧ bitAt x.portMask p = true := by
  rw [State.portHids, List.mem_filter, List.mem_range]
  cases hx : s.hid h with
  | none => simp
  | some x => simp [(List.getElem?_eq_some_iff.mp hx).1]

/-- The port with its link up. -/
def State.portUp (s : State) (p : Nat) : State := s.modHostPort p fun h => { h with linkUp := true, inReset := false }

theorem State.linkUp_eq (hv : p < s.variant.hosts) : s.linkUp p = (s.portHids p).foldl State.bindHid (s.portUp p) :=
  if_neg hv.not_ge

/-- Binding touches the host identities of the port alone. -/
theorem State.foldl_bindOne (s : State) (p : Nat) :
    (s.portHids p).foldl (fun l h => l.modify h (Hid.bindOne p)) s.hids = s.hids.map (Hid.bindOne p) := by
  have nodup : (s.portHids p).Nodup := List.nodup_range.filter _
  refine List.ext_getElem? fun i => ?_
  rw [modify_foldl _ _ nodup, List.getElem?_map]
  split
  · rfl
  · next hi =>
    cases hx : s.hids[i]? with
    | none => rfl
    | some x =>
      have other : bitAt x.portMask p = false := by
        rw [← Bool.not_eq_true]
        exact fun hb => hi (State.mem_portHids.mpr ⟨x, hx, hb⟩)
      simp [Hid.bindOne, other]

/-- With the return queues empty a link that comes up changes the port and binds its host identities (R177). -/
theorem State.linkUp_of_no_queue (hv : p < s.variant.hosts) (port : s.hostPort p = some hp) (hq : ∀ sl ∈ s.slices, sl.retq = []) :
    s.linkUp p = { s.portUp p with hids := s.hids.map (Hid.bindOne p) } := by
  have up : (s.portUp p).hostUp p = true := by simp [State.hostUp, State.portUp, port]
  have bind := State.bindHid_foldl p (s.portHids p) (s.portUp p) (fun h hh => State.mem_portHids.mp hh) up hq
  rw [State.linkUp_eq hv, bind, ← State.foldl_bindOne]
  rfl

/-- One of the host identity's ports is up (R177). -/
def State.reaches (s : State) (x : Hid) : Bool := (List.range s.hostPorts.length).any fun q => bitAt x.portMask q && s.hostUp q

theorem State.hidUp_eq (hx : s.hid h = some x) : s.hidUp h = s.reaches x := by
  rw [Bool.eq_iff_iff, State.reaches, List.any_eq_true]
  simp only [State.hidUp, State.snoopPort, hx, List.find?_isSome]
  rfl

/-- Losing its last port, at one entry of the host-ID table: a Bound host identity becomes Absent (R177). -/
def Hid.unbindOne (up : Hid → Bool) (x : Hid) : Hid :=
  if x.st == .bound && !up x then { x with st := .absent, windowLeft := BitVec.ofNat 15 x.windowMs } else x

theorem Hid.unbindOne_leaving (up : Hid → Bool) (hl : x.st.leaving = false) : (x.unbindOne up).st.leaving = false := by
  unfold Hid.unbindOne
  split
  · rfl
  · exact hl

theorem State.unbindHid_eq (s : State) (h : Nat) :
    s.unbindHid h = { s with hids := s.hids.modify h (Hid.unbindOne s.reaches) } := by
  cases hx : s.hid h with
  | none =>
    have same : s.hids.modify h (Hid.unbindOne s.reaches) = s.hids :=
      modify_of_fixed_at fun x e => nomatch hx.symm.trans e
    rw [State.unbindHid, hx, same]
  | some x =>
    have entry (f : Hid → Hid) (hf : x.unbindOne s.reaches = f x) : s.hids.modify h (Hid.unbindOne s.reaches) = s.hids.modify h f :=
      modify_congr_at fun y e => by
        obtain rfl : x = y := Option.some.inj (hx.symm.trans e)
        exact hf
    simp only [State.unbindHid, hx, State.hidUp_eq hx]
    split
    · next hc =>
      rw [entry (fun y => { y with st := .absent, windowLeft := BitVec.ofNat 15 x.windowMs }) (if_pos hc)]
      rfl
    · next hc => rw [entry id (if_neg hc), List.modify_id]

theorem State.foldl_unbindHid (ks : List Nat) (s : State) :
    ks.foldl State.unbindHid s = { s with hids := ks.foldl (fun l h => l.modify h (Hid.unbindOne s.reaches)) s.hids } := by
  induction ks generalizing s with
  | nil => rfl
  | cons k ks ih =>
    rw [List.foldl_cons, State.unbindHid_eq, ih]
    rfl

/-- No host identity is leaving: nothing is left to do for one at a command's end. -/
theorem State.fenceSettle_quiet (hl : ∀ x ∈ s.hids, x.st.leaving = false) : s.fenceSettle = s := by
  refine fold_same _ _ s fun h _ => ?_
  cases hx : s.hid h with
  | none => rfl
  | some x => simp [hl x (List.mem_of_getElem? hx)]

/-- A host port in reset, its buffers gone (R44). -/
def HostPort.down (x : HostPort) : HostPort :=
  { x with linkUp := false, inReset := true, egress := [], linkDowns := satInc x.linkDowns }

/-- A slice whose credit for a port is gone where no request of it uses it (R44, R92). -/
def Slice.portGone (p : Nat) (sl : Slice) : Slice := sl.modInput p fun i =>
  { i with kcredit := if i.waiting.any fun q => q.withK then i.kcredit else none, wasReset := true }

/-- Another port of the host identity is up. -/
def State.reachesBeside (s : State) (p : Nat) (x : Hid) : Bool :=
  (List.range s.hostPorts.length).any fun q => q != p && bitAt x.portMask q && s.hostUp q

/-- The block once a port is in reset and its host identities without another port are Absent (R44, R177). -/
def State.portGone (s : State) (p : Nat) : State :=
  { s with hostPorts := s.hostPorts.modify p HostPort.down
           slices := s.slices.map (Slice.portGone p)
           hids := s.hids.map (Hid.unbindOne (s.reachesBeside p)) }

theorem State.hostUp_down (s : State) (p q : Nat) : (s.modHostPort p HostPort.down).hostUp q = (q != p && s.hostUp q) := by
  by_cases e : q = p
  · subst e
    rw [State.hostUp, State.hostPort_modHostPort]
    cases s.hostPort q <;> simp [HostPort.down]
  · rw [State.hostUp, State.hostPort_modHostPort_other s e, bne_iff_ne.mpr e]
    rfl

theorem State.reaches_down (s : State) (p : Nat) (x : Hid) :
    (s.modHostPort p HostPort.down).reaches x = s.reachesBeside p x := by
  simp only [State.reaches, State.reachesBeside, State.hostUp_down, State.modHostPort_hostPorts, List.length_modify,
    Bool.and_left_comm, Bool.and_assoc]

/-- What a port reset does before it turns to the messages that were not delivered. -/
theorem State.portReset_unbinds (s : State) (p : Nat) :
    (List.range s.hids.length).foldl State.unbindHid
      { s.modHostPort p HostPort.down with slices := s.slices.map (Slice.portGone p) } = s.portGone p := by
  rw [State.foldl_unbindHid]
  have reaches :
      State.reaches { s.modHostPort p HostPort.down with slices := s.slices.map (Slice.portGone p) } = s.reachesBeside p :=
    funext (s.reaches_down p)
  rw [reaches, State.portGone, ← foldl_modify_all s.hids]
  rfl

/-- What becomes of a message that was not delivered: it goes out on its snoop port, or into its slice's return queue (R178,
R180). -/
def State.undelivered (s : State) (p : Nat) (m : S2M) : State :=
  match m.phys with
  | none => s
  | some n =>
    let s := s.meshSend { meshMsg (.host p) (.slice n) 0x58 .p m.line m.ord with peer := m.hid }
    match s.snoopPort m.hid with
    | some q => s.emitS2M q m
    | none => s.queueReturn m

theorem State.portReset_eq (hv : p < s.variant.hosts) (port : s.hostPort p = some hp) :
    s.portReset p =
      ((hp.egress.foldl (fun l m => insOrd m l) []).foldl (fun s m => s.undelivered p m) (s.portGone p)).fenceSettle := by
  rw [← State.portReset_unbinds, State.portReset, port]
  exact if_neg hv.not_ge

theorem State.portGone_leaving (hl : ∀ x ∈ s.hids, x.st.leaving = false) : ∀ x ∈ (s.portGone p).hids, x.st.leaving = false := by
  intro y hy
  obtain ⟨x, hx, rfl⟩ := List.mem_map.mp hy
  exact Hid.unbindOne_leaving _ (hl x hx)

theorem State.undelivered_sent {m : S2M} {q : Nat} (hm : m.phys = some n) (hq : s.snoopPort m.hid = some q) :
    s.undelivered p m = (s.meshSend { meshMsg (.host p) (.slice n) 0x58 .p m.line m.ord with peer := m.hid }).emitS2M q m := by
  have snoop (x : MeshMsg) : (s.meshSend x).snoopPort m.hid = some q := hq
  simp only [State.undelivered, hm, snoop]

theorem State.undelivered_queued {m : S2M} (hm : m.phys = some n) (hq : s.snoopPort m.hid = none) :
    s.undelivered p m = (s.meshSend { meshMsg (.host p) (.slice n) 0x58 .p m.line m.ord with peer := m.hid }).queueReturn m := by
  have snoop (x : MeshMsg) : (s.meshSend x).snoopPort m.hid = none := hq
  simp only [State.undelivered, hm, snoop]

/-- The oldest message of a channel leaves the port (R179). -/
theorem State.delivered_eq {c : S2MChan} {a b : List S2M} {m : S2M} (port : s.hostPort p = some hp) (he : hp.egress = a ++ m :: b)
    (ha : ∀ x ∈ a, x.body.chan ≠ c) (hm : m.body.chan = c) :
    s.delivered p c = s.modHostPort p fun h => { h with egress := a ++ b } := by
  have oldest : eraseFirst (fun m => m.body.chan == c) hp.egress = a ++ b := by
    rw [he]
    exact eraseFirst_append _ a b m (fun x hx => beq_false_of_ne (ha x hx)) (beq_iff_eq.mpr hm)
  refine congrArg (fun l => { s with hostPorts := l }) (modify_congr_at fun x hx => ?_)
  obtain rfl : hp = x := Option.some.inj (port.symm.trans hx)
  rw [oldest]

end Links

/-- Settles O12: a link that comes up by the binding of its host identities, a reset by the block it leaves, `State.portGone`, with
the one message that was not delivered. -/
theorem hostPortsBindResetAndDeliver : Obligations.HostPortsBindResetAndDeliver := by
  refine ⟨fun s p hp hv port => ⟨congrArg _ (State.linkUp_eq hv), fun hq => ?_⟩, ?_, ?_⟩
  · exact congrArg _ (State.linkUp_of_no_queue hv port hq)
  · intro s p hp hv port hl s1
    have reset := State.portReset_eq hv port
    refine ⟨fun he => ?_, fun m n he hm => ⟨fun q hq => ?_, fun hq => ?_⟩⟩
    · rw [he] at reset
      exact congrArg _ (reset.trans (State.fenceSettle_quiet (State.portGone_leaving hl)))
    · rw [he] at reset
      exact congrArg _ (reset.trans (congrArg _ (State.undelivered_sent hm hq)))
    · rw [he] at reset
      exact congrArg _ (reset.trans (congrArg _ (State.undelivered_queued hm hq)))
  · exact fun s p hp c a b m port he ha hm => congrArg _ (State.delivered_eq port he ha hm)

/-! ### Expiry and fencing (R168, R177, R183) -/

section Expiry

variable {s : State} {h p : Nat} {x : Hid}

/-- A slice without its queued messages for a host identity (R183). -/
def Slice.dropFor (h : Nat) (sl : Slice) : Slice := { sl with retq := sl.retq.filter fun m => m.hid != h }

/-- No Cmp-E for the host identity is queued at the slice. -/
def Slice.GrantsNone (h : Nat) (sl : Slice) : Prop := ∀ m ∈ sl.retq, m.hid = h → ∀ t, m.body ≠ .ndr .cmpE t

theorem Slice.GrantsNone.dropFor {sl : Slice} (hg : sl.GrantsNone h) : (sl.dropFor h).GrantsNone h :=
  fun m hm => hg m (List.mem_of_mem_filter hm)

/-- Without a Cmp-E among them, the messages are discarded and no record changes. -/
theorem State.dropQueue_of_no_grant (hg : ∀ sl ∈ s.slices, sl.GrantsNone h) : s.dropQueue h p = s.modSlice p (Slice.dropFor h) := by
  cases hs : s.slice p with
  | none =>
    have same : s.slices.modify p (Slice.dropFor h) = s.slices := modify_of_fixed_at fun x e => nomatch hs.symm.trans e
    rw [State.dropQueue, hs]
    exact (congrArg (fun l => { s with slices := l }) same).symm
  | some sl =>
    rw [State.dropQueue, hs]
    refine fold_same _ _ _ fun m hm => ?_
    obtain ⟨hm, hh⟩ := List.mem_filter.mp hm
    have noGrant := hg sl (List.mem_of_getElem? hs) m hm (eq_of_beq hh)
    split
    · next t e => exact absurd e (noGrant t)
    · rfl

theorem State.foldl_dropQueue (ps : List Nat) (s : State) (hg : ∀ sl ∈ s.slices, sl.GrantsNone h) :
    ps.foldl (fun s p => s.dropQueue h p) s = { s with slices := ps.foldl (fun l p => l.modify p (Slice.dropFor h)) s.slices } := by
  induction ps generalizing s with
  | nil => rfl
  | cons p ps ih =>
    rw [List.foldl_cons, State.dropQueue_of_no_grant hg, ih]
    · rfl
    · exact forall_mem_modify hg fun sl h => h.dropFor

/-- Where no tracker awaits the host identity and no Cmp-E for it is queued, its expiry discards its queued messages alone
(R183). -/
theorem State.expireHid_of_no_wait (hw : ∀ sl ∈ s.slices, sl.waitsFor h = []) (hg : ∀ sl ∈ s.slices, sl.GrantsNone h) :
    s.expireHid h = { s with slices := s.slices.mapIdx fun p sl => if p < s.variant.phys then sl.dropFor h else sl } := by
  have drop := State.foldl_dropQueue (List.range s.variant.phys) s hg
  rw [foldl_modify_range] at drop
  rw [State.expireHid, drop]
  refine fold_same _ _ _ fun p _ => State.answerFor_quiet _ h p fun sl hsl => ?_
  obtain ⟨i, hi, rfl⟩ := List.mem_mapIdx.mp hsl
  have before := hw _ (List.getElem_mem hi)
  split
  · exact before
  · exact before

/-- Nothing of the host identity is recorded: the sweep changes nothing (R183). -/
theorem State.sweepHid_quiet (hl : ∀ sl ∈ s.slices, sl.hidLines h = []) (hs : s.spill = []) : s.sweepHid h = s := by
  rw [State.sweepHid, hs]
  refine fold_same _ _ s fun p _ => ?_
  cases hsl : s.slice p with
  | none => rfl
  | some sl =>
    dsimp only
    rw [hl sl (List.mem_of_getElem? hsl)]
    rfl

theorem State.windowEnd_eq (hx : s.hid h = some x) (ha : x.st = .absent) (hp : s.pwr.phase ≠ .p2) : s.windowEnd h =
    ((s.modHid h fun y => { y with st := .expiring, windowLeft := 0 }).logEv 0x22 1 srcHost h 0).expireHid h := by
  simp [State.windowEnd, hx, ha, hp]

theorem State.sweepEnd_eq (hx : s.hid h = some x) (hl : x.st.leaving = true) : s.sweepEnd h =
    ((s.expireHid h).sweepHid h).modHid h fun y =>
      { y with st := if ((s.expireHid h).sweepHid h).hidUp h then .bound else .unbound } := by
  simp only [State.sweepEnd, hx, hl, if_true]

/-- A Bound host identity that leaves a BISnp unanswered is fenced (R168). -/
theorem State.snoopLate_eq {sl : Slice} (hx : s.hid h = some x) (hb : x.st = .bound) (hp : s.pwr.phase ≠ .p2) (hs : sl ∈ s.slices)
    (hw : sl.waitsFor h ≠ []) : s.snoopLate h =
      ((s.modHid h fun y => { y with st := .fenced, windowLeft := 0 }).logEv 0x23 2 srcHost h 1).expireHid h := by
  have late : (s.slices.any fun sl => !(sl.waitsFor h).isEmpty) = true := List.any_eq_true.mpr ⟨sl, hs, by simpa using hw⟩
  simp [State.snoopLate, State.markFenced, hx, hb, hp, late]

end Expiry

/-- Settles O13: each clock by what it does to its host identity, then what the slices hold for it. -/
theorem hidsExpireAndAreFenced : Obligations.HidsExpireAndAreFenced := by
  refine ⟨fun s h x hx => ⟨fun ha hp => ?_, fun hl => ?_⟩, fun s h x sl hx hb hp hs hw =>
    congrArg _ (State.snoopLate_eq hx hb hp hs hw)⟩
  · intro s1
    have expires : exec (.returnWindowExpiry h) s = .next (s1.expireHid h) := congrArg _ (State.windowEnd_eq hx ha hp)
    refine ⟨expires, fun quiet => expires.trans (congrArg _ (State.expireHid_of_no_wait (fun sl hsl => ?_) fun sl hsl => ?_))⟩
    · exact (quiet sl hsl).1
    · exact (quiet sl hsl).2
  · have swept : exec (.expirySweepEnd h) s = _ := congrArg Host.Outcome.next (State.sweepEnd_eq hx hl)
    refine ⟨swept, fun quiet hs => ?_⟩
    have expired : s.expireHid h = s := State.expireHid_quiet s h fun sl hsl => (quiet sl hsl).imp_right And.left
    have noRecord : s.sweepHid h = s := State.sweepHid_quiet (fun sl hsl => (quiet sl hsl).right.right) hs
    rw [expired, noRecord] at swept
    exact swept

end Sys2Proof.Machine

/-! What comes back to a slice or a thread: fences and responses (R216, R226, R232 to R237, R257, R283), the agent ports' snoop answers
(R208, R211, R254), responses and acknowledgements of the memory ports (R207, R212, R213, R410, R550), and the items of a replay (R215,
R415, R420, R426). -/

namespace Sys2Proof.Machine

open Sys2Proof

/-! ### Flits that leave the ring (R254) -/

/-- The first flit of the ring leaves its slot. -/
theorem State.ringEject_head {s : State} {f : RingFlit} {rest : List RingFlit} {hit : RingFlit → Bool} (hr : s.ring = f :: rest)
    (hf : hit f = true) : s.ringEject hit = { s with ring := rest }.slotFreed (some (f.esc, f.dst s.variant)) := by
  simp only [State.ringEject, hr, eraseFirst, List.find?_cons_of_pos hf, hf, if_true, Option.map_some]

/-! ### Fences (R216, R232) -/

section Fences

variable {s : State} {p : Nat} {t : ThreadId} {sl : Slice} {ap : AgentPort} {r : PortReq}

theorem State.fenceAt_of_owed (hs : s.slice p = some sl) (ha : s.agentPort t.port = some ap) (hl : sl.live = true)
    (hf : ap.fenceOf p t = some r) (hn : sl.dir.fences.contains t = false) :
    s.fenceAt p t = s.modSlice p fun x => { x with dir := { x.dir with fences := x.dir.fences ++ [t] } } := by
  simp only [State.fenceAt, hs, ha, hl, hf, hn]
  rfl

/-- A noted fence is answered once no write of its thread is left in the slice. -/
theorem State.fenceDone_of_no_writes (hs : s.slice p = some sl) (ha : s.agentPort t.port = some ap) (hl : sl.live = true)
    (hf : ap.fenceOf p t = some r) (hn : sl.dir.fences.contains t = true) (hst : sl.ident.adoptStall = false)
    (hw : sl.threadWrites t = false) : s.fenceDone p t =
      (s.modSlice p fun x => { x with dir := { x.dir with fences := x.dir.fences.filter fun y => y != t } }).putARsp t.port
        ⟨p, .cmp, BitVec.ofNat 7 r.req.tag, t.agent, t.thread, 0, none, false, false, false, false, false, false, false⟩ true := by
  simp only [State.fenceDone, hs, ha, hl, hf, hn, hst, hw]
  rfl

theorem State.fenceDone_of_writes (hs : s.slice p = some sl) (ha : s.agentPort t.port = some ap) (hw : sl.threadWrites t = true) :
    s.fenceDone p t = s := by
  simp only [State.fenceDone, hs, ha, hw, Bool.or_true, if_true]

end Fences

/-! ### Responses (R226, R235, R237) -/

section Responses

variable {s : State} {port : Nat} {t : ThreadId} {ap : AgentPort} {x : PortReq} {r : ARsp}

/-- The oldest response of a slice goes to the request that awaits it. -/
theorem State.rspArrives_eq {p : Nat} {a b : List ARsp} (ha : s.agentPort port = some ap) (hi : ap.inbound = a ++ r :: b)
    (old : ∀ x ∈ a, x.phys ≠ p) (hr : r.phys = p) : s.rspArrives p port = s.modAgentPort port fun x =>
      { x with inbound := a ++ b, recv := x.recv.modify p (· + 1),
               held := x.held.map fun y => if y.agent = r.agent ∧ y.req.tag = r.tag.toNat ∧ y.stage = .sent then y.take p r else y } := by
  have oldest : (ap.inbound.find? fun y => y.phys == p) = some r :=
    List.find?_eq_some_iff_append.mpr ⟨by simp [hr], a, b, hi, fun y hy => by simpa using old y hy⟩
  have others : eraseFirst (fun y => y.phys == p) ap.inbound = a ++ b := by
    rw [hi]
    exact eraseFirst_append _ a b r (fun y hy => by simpa using old y hy) (by simp [hr])
  simp only [State.rspArrives, ha, oldest]
  refine State.modAgentPort_congr s port ap ha _ _ ?_
  simp only [others, Bool.and_eq_true, beq_iff_eq, and_assoc]

theorem State.deliver_of_final (ha : s.agentPort t.port = some ap) (ht : ap.turn t = some x) (hf : x.final = some r) :
    s.deliver t = (s.modAgentPort t.port fun a =>
      { a with held := a.held.filter fun y => !y.same x, lastRsp := if x.discard then a.lastRsp else some r }).entryFreed t.port x.agent := by
  simp only [State.deliver, ha, Option.bind_some, ht, hf]

theorem State.deliver_of_not_final (ha : s.agentPort t.port = some ap) (ht : ap.turn t = some x) (hf : x.final = none) :
    s.deliver t = s := by
  simp only [State.deliver, ha, Option.bind_some, ht, hf]

end Responses

/-! ### Forwarded data (R257) -/

section Forwarded

variable {s : State} {q port g n : Nat} {l : LineAddr} {d : Line} {di po e : Bool} {rest : List RingFlit} {ap : AgentPort}

/-- A request takes data of its agent and line: a sent read, or one whose grant says that data follows. -/
def PortReq.takesFwd (g : Nat) (l : LineAddr) (r : PortReq) : Bool :=
  r.agent == g && r.req.line == l && r.fwdData.isNone && (r.stage == .sent || (match r.rsp with | some y => y.fwd | none => false)) &&
  (r.req.kind == .rdShared || r.req.kind == .rdOwn || r.req.kind == .rdCur || r.req.kind == .rdRes || r.req.kind == .atomicOp ||
    r.req.kind == .upgrade)

theorem PortReq.takesFwd_eq_false {x : PortReq} (h : x.agent ≠ g ∨ x.req.line ≠ l) : x.takesFwd g l = false := by
  rcases h with h | h <;> simp [PortReq.takesFwd, h]

theorem PortReq.takesFwd_of_sent {r : PortReq} (hg : r.agent = g) (hl : r.req.line = l) (hn : r.fwdData = none) (hs : r.stage = .sent)
    (hk : r.req.kind ∈ [.rdShared, .rdOwn, .rdCur, .rdRes, .atomicOp, .upgrade]) : r.takesFwd g l = true := by
  simp only [List.mem_cons, List.not_mem_nil, or_false] at hk
  simpa [PortReq.takesFwd, hg, hl, hn, hs, or_assoc] using hk

/-- Data at the head of the ring leaves it, and goes to the first request that takes it. -/
theorem State.fwdArrives_eq (ha : s.agentPort port = some ap) (hr : s.ring = .fwdData q port g l d di po n e :: rest) :
    let s1 := { s with ring := rest }.slotFreed (some (e, stopOf s.variant false port))
    s.fwdArrives port g l d di po = match ap.held.find? (PortReq.takesFwd g l) with
      | some r => s1.modAgentPort port fun a => a.modReq r fun y => { y with fwdData := some (d, di, po) }
      | none => (s1.modAgentPort port fun a => { a with fwdDrop := a.fwdDrop + 1 }).logEv 0x26 0 srcAgent port 0 := by
  intro s1
  have there : s1.agentPort port = some ap := by
    rw [State.agentPort, State.slotFreed_agentPorts]
    exact ha
  rw [State.fwdArrives]
  rw [State.ringEject_head hr (by simp), hr, List.find?_cons_of_pos (by simp)]
  change (match s1.agentPort port with | none => s1 | some a => _) = _
  rw [there]
  rfl

end Forwarded

/-- Settles O16: each arrival by its own equation. -/
theorem answersComeBackToTheThread : Obligations.AnswersComeBackToTheThread := by
  refine ⟨fun s p t sl ap r hs ha hl hf => ⟨fun hn => ?_, fun hn hst hw => ?_, fun hw => ?_⟩,
    fun s port ap ha => ⟨fun p a b r hi old hr => ?_, ?_, ?_⟩, fun s port ap ha => ⟨fun q g l d di po e n rest hring => ?_, ?_⟩⟩
  · exact congrArg _ (State.fenceAt_of_owed hs ha hl hf hn)
  · exact congrArg _ (State.fenceDone_of_no_writes hs ha hl hf hn hst hw)
  · exact congrArg _ (State.fenceDone_of_writes hs ha hw)
  · exact congrArg _ (State.rspArrives_eq ha hi old hr)
  · rintro t x r rfl ht hx
    exact congrArg _ (State.deliver_of_final ha ht hx)
  · rintro t x rfl ht hx
    exact congrArg _ (State.deliver_of_not_final ha ht hx)
  · have arrives := State.fwdArrives_eq ha hring
    refine ⟨fun u v r hheld hu hg hline hn hst hk => ?_, fun hno => ?_⟩
    · have first : ap.held.find? (PortReq.takesFwd g l) = some r := List.find?_eq_some_iff_append.mpr
        ⟨PortReq.takesFwd_of_sent hg hline hn hst hk, u, v, hheld, fun x hx => by simp [PortReq.takesFwd_eq_false (hu x hx)]⟩
      rw [first] at arrives
      exact congrArg _ arrives
    · have nobody : ap.held.find? (PortReq.takesFwd g l) = none :=
        List.find?_eq_none.mpr fun x hx => by simp [PortReq.takesFwd_eq_false (hno x hx)]
      rw [nobody] at arrives
      exact congrArg _ arrives
  · rintro t rfl
    rfl

/-! ### The agent ports' snoop answers (R208, R211, R254) -/

section SnoopAnswers

variable {s : State} {r : AgRsp} {d : Line} {po e : Bool} {n : Nat} {k : AnsKind} {inp : Inp} {rest : List RingFlit} {sl : Slice}

/-- Each of the five commands is an answer of its kind; that of RspWbData names data as well. -/
theorem exec_of_snoopAnswer {c : Instr} {d' : Line} {po' : Bool} (hc : (c, k, inp) ∈ [(.rspI r, .rspI, .rspI), (.rspS r, .rspS, .rspS),
      (.rspFwd r, .rspFwd, .rspFwd), (.rspWbData r d' po', .rspWbData, .rspWbData), (.rspIW r, .rspIW, .rspIW)]) (s : State) :
    ∃ d0 po0, exec c s = .next (s.agentAnswer k inp r d0 po0) := by
  simp only [List.mem_cons, List.not_mem_nil, or_false, Prod.mk.injEq] at hc
  rcases hc with ⟨rfl, rfl, rfl⟩ | ⟨rfl, rfl, rfl⟩ | ⟨rfl, rfl, rfl⟩ | ⟨rfl, rfl, rfl⟩ | ⟨rfl, rfl, rfl⟩ <;> exact ⟨_, _, rfl⟩

/-- The answer at the head of the ring reaches a live slice that no other one has replaced: the flit gives its data. -/
theorem State.agentAnswer_eq (hr : s.ring = .answer ⟨r.phys, r.trk, r.line, k⟩ r.port d po n e :: rest)
    (hd : ∀ x ∈ s.cast.redirect, x.1 ≠ r.phys) (hs : s.slice r.phys = some sl) (hl : sl.live = true) (d0 : Line) (po0 : Bool) :
    let s0 : State := { s with ring := rest }.slotFreed (some (e, stopOf s.variant true r.phys))
    let s1 := if k = .rspIW then s0.count r.phys 0x34 none else if k = .rspFwd then s0.count r.phys 0x35 none else s0
    s.agentAnswer k inp r d0 po0 = match sl.awaits (some r.trk) r.port r.line with
      | some (t, x) => (s1.feed r.phys t.num
          { inp := inp, vic := t.isVic r.line, line := r.line, who := some (.agent r.port 0 0), data := d, be := BitVec.allOnes 64,
            poison := po, aKind := some x.kind }).settleIn r.phys
      | none => (s0.count r.phys 0x37 none).logEv 0x28 0 r.phys r.port (addrDetail r.line 0) := by
  intro s0 s1
  have home : (s.cast.redirect.find? fun x => x.1 == r.phys) = none :=
    List.find?_eq_none.mpr fun x hx => by simpa using hd x hx
  have there : s0.slice r.phys = some sl := by
    rw [State.slice, State.slotFreed_slices]
    exact hs
  obtain ⟨here, -⟩ := (Slice.live_iff sl).mp hl
  rw [State.agentAnswer]
  rw [State.ringEject_head hr (by simp), hr, List.find?_cons_of_pos (by simp), home]
  change (match s0.slice r.phys with | none => s0 | some sl => _) = _
  rw [there]
  simp only [here, hl, beq_iff_eq, Bool.not_true, Bool.false_eq_true, if_false, if_true]
  cases sl.awaits (some r.trk) r.port r.line <;> rfl

end SnoopAnswers

/-- Settles O18: the answer at the ring's head, by whether a tracker awaits it. -/
theorem agentAnswersReachTheirTracker : Obligations.AgentAnswersReachTheirTracker := by
  intro s r d d' po po' e n c k inp rest sl hc hr hd hs hl s0
  obtain ⟨d0, po0, command⟩ := exec_of_snoopAnswer hc s
  have answer := State.agentAnswer_eq (inp := inp) hr hd hs hl d0 po0
  refine ⟨fun t x awaited => ?_, fun stray => ?_⟩
  · rw [awaited] at answer
    exact command.trans (congrArg _ answer)
  · rw [stray] at answer
    exact command.trans (congrArg _ answer)

/-! ### The command that a memory port's response names (R410, R550) -/

section MemoryResponses

variable {s : State} {port tag p : Nat} {mp : MemPort} {c : MemCmd}

theorem State.memAnswer_of_waiting (hm : s.memPort port = some mp) (hc : mp.cmd tag = some c) (hg : c.givenUp = false) :
    s.memAnswer port tag = (s, some c) := by
  simp only [State.memAnswer, hm, Option.bind_some, hc, hg]
  rfl

/-- The late answer of a command given up is counted, and frees its TAG. -/
theorem State.memAnswer_of_givenUp (hm : s.memPort port = some mp) (hc : mp.cmd tag = some c) (hg : c.givenUp = true) :
    s.memAnswer port tag = ((s.modMemPort port fun m => { m with late := m.late + 1 }).memFree port tag, none) := by
  simp only [State.memAnswer, hm, Option.bind_some, hc, hg, if_true]

/-- A response that no command awaits is counted. -/
theorem State.memAnswer_of_none (hm : s.memPort port = some mp) (hv : port < s.variant.mems) (hc : mp.cmd tag = none) :
    s.memAnswer port tag = (s.memFault port, none) := by
  simp only [State.memAnswer, hm, Option.bind_some, hc, hv, if_true]

/-- A response that names no waiting command carries its data nowhere. -/
theorem State.memData_of_no_command {s1 : State} (h : s.memAnswer port tag = (s1, none)) (d : Line) (nib : Nib) (po ue : Bool) :
    s.memData port tag d nib po ue = s1 := by
  simp only [State.memData, h]

theorem State.memData_of_read (hm : s.memPort port = some mp) (hc : mp.cmd tag = some c) (hg : c.givenUp = false) (hk : c.kind = .read)
    (d : Line) (nib : Nib) (po ue : Bool) :
    s.memData port tag d nib po ue = ((s.memFree port tag).memBack port c true po).readDone c d nib po ue := by
  simp only [State.memData, State.memAnswer_of_waiting hm hc hg, hk]
  rfl

theorem State.memData_of_write (hm : s.memPort port = some mp) (hc : mp.cmd tag = some c) (hg : c.givenUp = false) (hk : c.kind ≠ .read)
    (d : Line) (nib : Nib) (po ue : Bool) : s.memData port tag d nib po ue = s.memFault port := by
  simp only [State.memData, State.memAnswer_of_waiting hm hc hg, beq_iff_eq, if_neg hk]

theorem State.memWritten_of_write (hm : s.memPort port = some mp) (hc : mp.cmd tag = some c) (hg : c.givenUp = false)
    (hk : c.kind ≠ .read) : s.memWritten port tag = ((s.memFree port tag).memBack port c false false).writeDone c := by
  simp only [State.memWritten, State.memAnswer_of_waiting hm hc hg, beq_iff_eq, if_neg hk]

/-- The ports' commands with one given up: its TAG stays reserved (R410). -/
def State.gaveUp (s : State) (port tag : Nat) : State :=
  s.modMemPort port fun m => { m with out := m.out.map fun x => if x.tag = tag then { x with givenUp := true } else x }

/-- The record of a command's timeout, and the link fault that it is (R410). -/
def State.timeoutSeen (s : State) (port p : Nat) (c : MemCmd) : State :=
  (s.logEv 0x17 2 p port (addrDetail c.line 0)).setHealth fun g => { g with linkFault := true }

/-- A command of a slice that is not answered in time is given up. -/
theorem State.memTimeout_eq (hm : s.memPort port = some mp) (hc : mp.cmd tag = some c) (hg : c.givenUp = false)
    (hp : c.owner.phys = some p) : s.memTimeout port tag =
      if c.kind = .read then
        let f := ((s.gaveUp port tag).timeoutSeen port p c).drawLine
        f.2.readDone c f.1 0 true true
      else (((s.gaveUp port tag).logPoison p c.line 4).timeoutSeen port p c).writeDone c := by
  simp only [State.memTimeout, hm, Option.bind_some, hc, hg, hp, Option.getD_some, beq_iff_eq, Bool.false_eq_true, if_false]
  split <;> rfl

end MemoryResponses

/-! ### Reads that return (R207, R212) -/

section Reads

variable {s : State} {port tag p n : Nat} {sl : Slice} {t : Tracker} {mp : MemPort} {c : MemCmd} {use : BktUse}

/-- A line read of a tracker's own line is its next input, where no partial write waits for it. -/
theorem State.lineIn_own (hs : s.slice p = some sl) (ht : s.tracker p n = some t) (hl : sl.live = true) {l : LineAddr}
    (hline : t.req.line = l) (hk : t.req.kind ≠ .migStart) (hlate : t.late = []) (keep : Bool) (d : Line) (nib : Nib) (po ue : Bool) :
    let m : InMsg := { inp := .memData, line := l, data := d, be := if keep then BitVec.allOnes 64 else 0, poison := po, nib := nib,
                       ue := ue }
    s.lineIn p n l keep d nib po ue = ((State.pump (pumpFuel t) (s.modSlice p fun y =>
      { y.modTrk n fun x => { x with inq := m :: x.inq, late := x.late.filter fun m => m.line != l } with
        ident := { y.ident with busyMove := true, gated := false } }) p n).sweepDone p n).settle p := by
  have own : (t.req.line == l && t.req.kind != .migStart) = true := by simp [hline, hk]
  simp only [State.lineIn, hs, ht, hl, own, hlate]
  rfl

/-- The bucket read that a tracker's command awaits, under one of its two names. -/
structure State.AwaitsBucket (s : State) (port tag p n : Nat) (use : BktUse) (mp : MemPort) (c : MemCmd) (t : Tracker) : Prop where
  port : s.memPort port = some mp
  cmd : mp.cmd tag = some c
  waits : c.givenUp = false
  owner : c.owner = .bucketRead p n use
  tracker : s.tracker p n = some t

/-- Whether a lookup finds a line in its bucket (R212). -/
def State.inBucket (s : State) (l : LineAddr) : Bool := (bktFind s.gl.game (s.bucket (s.bucketNo l)) l).isSome

/-- The read returns under the name that the bucket bears out; an uncorrectable one finds nothing (log 30). -/
theorem State.AwaitsBucket.spillAnswer_eq (a : s.AwaitsBucket port tag p n use mp c t) (hit ue : Bool) :
    s.spillAnswer port tag hit ue =
      if (!ue && s.inBucket (t.bktLine use)) = hit then
        ((s.memFree port tag).memBack port c true false).bucketIn p n use (t.bktLine use) ue
      else s := by
  simp only [State.spillAnswer, a.port, Option.bind_some, a.cmd, a.owner, a.waits, a.tracker, State.inBucket, bne_iff_ne, ne_eq, ite_not]
  rfl

end Reads

/-- Settles O20: responses by the command that they name, bucket reads by what the bucket holds. -/
theorem readResponsesReturnToTheirOwner : Obligations.ReadResponsesReturnToTheirOwner := by
  refine ⟨fun s port tag mp c d nib po ue hm hv => ⟨fun hc hg hk => ?_, fun hc hg hk => ?_, fun hc hg => ?_, fun hc => ?_⟩,
    fun s port tag p n use mp c t ue hm hc hg ho ht => ?_, fun s port tag p mp c hm hc hg hp => ?_⟩
  · intro s1
    have read : exec (.memData port tag d nib po ue) s = .next (s1.readDone c d nib po ue) :=
      congrArg _ (State.memData_of_read hm hc hg hk d nib po ue)
    refine ⟨fun p n keep sl t ho hs hl ht hline hmig hlate => ?_, fun p n use t ho ht => ?_, fun p h ho => ?_⟩
    · rw [State.readDone, ho] at read
      exact read.trans (congrArg _ (State.lineIn_own hs ht hl hline hmig hlate keep d nib po ue))
    · simp only [State.readDone, ho, ht] at read
      exact read
    · rw [State.readDone, ho] at read
      exact read
  · exact congrArg _ (State.memData_of_write hm hc hg hk d nib po ue)
  · exact congrArg _ (State.memData_of_no_command (State.memAnswer_of_givenUp hm hc hg) d nib po ue)
  · exact congrArg _ (State.memData_of_no_command (State.memAnswer_of_none hm hv hc) d nib po ue)
  · have awaits : s.AwaitsBucket port tag p n use mp c t := ⟨hm, hc, hg, ho, ht⟩
    intro l s1
    refine ⟨fun found => ?_, fun missing => ?_⟩
    · have found : s.inBucket (t.bktLine use) = true := found
      refine ⟨congrArg _ ((awaits.spillAnswer_eq true false).trans (if_pos ?_)),
        congrArg _ ((awaits.spillAnswer_eq false true).trans (if_pos rfl)),
        congrArg _ ((awaits.spillAnswer_eq false false).trans (if_neg ?_))⟩ <;> simp [found]
    · have missing : s.inBucket (t.bktLine use) = false := by rw [State.inBucket, show bktFind _ _ _ = none from missing]; rfl
      refine ⟨congrArg _ ((awaits.spillAnswer_eq false ue).trans (if_pos ?_)),
        congrArg _ ((awaits.spillAnswer_eq true false).trans (if_neg ?_))⟩ <;> simp [missing]
  · have timeout := State.memTimeout_eq hm hc hg hp
    exact ⟨fun hk => congrArg _ (timeout.trans (if_neg hk)), fun hk => congrArg _ (timeout.trans (if_pos hk))⟩

/-! ### Acknowledgements (R147, R213, R216, R308, R313, R352) -/

section Acknowledgements

variable {s : State} {p : Nat} {sl : Slice}

/-- An acknowledgement that nothing awaits is an error in a live slice's control state (R216). -/
theorem State.strayAck_of_live (hs : s.slice p = some sl) (hl : sl.live = true) : s.strayAck p = s.failSlice p .control := by
  simp only [State.strayAck, hs, hl, if_true]

/-- The oldest mirror update that the buddy has taken ends, and frees the victim-buffer entries that waited for it (R313). -/
theorem State.ackMirror_of_acked {u : Nat} {r : List Nat} (hs : s.slice p = some sl) (ha : sl.mir.acked = u :: r) :
    s.ackCmd (.mirror p) =
      (((s.modSlice p fun x => { x.setVb (x.msc.vb.filter fun v => !(v.inWpq && v.mirror == some u)) with
        mir := { x.mir with acked := r } }).deliverAll p fun _ k => k.kind == .mirror u).quiesceKick p).settle p := by
  simp only [State.ackCmd, hs, ha]

/-- With no update taken, an acknowledgement is early while one is under way, and stray otherwise. -/
theorem State.ackMirror_of_none (hs : s.slice p = some sl) (ha : sl.mir.acked = []) :
    s.ackCmd (.mirror p) = if sl.mir.link = [] then s.strayAck p else s := by
  simp only [State.ackCmd, hs, ha, List.isEmpty_iff]

/-- An acknowledgement of the director that is on its way ends the wait for it (R147, R352). -/
theorem State.dirAck_of_awaited {sent : NMsg} {out : Bool} {free : Slice → Slice} {hit : Tracker → Ack → Bool}
    (hn : s.net.contains sent = true) (ha : s.awaitsAck p hit = true) :
    s.dirAck p sent out free hit = ((((s.takeMsg sent).modSlice p free).deliverAll p hit).settle p) := by
  simp only [State.dirAck, hn, ha, if_true]

theorem State.dirAck_of_stray {sent : NMsg} {out : Bool} {free : Slice → Slice} {hit : Tracker → Ack → Bool}
    (hn : s.net.contains sent = true) (ha : s.awaitsAck p hit = false) (hs : s.slice p = some sl) (hl : (free sl).live = true) :
    s.dirAck p sent out free hit = ((s.takeMsg sent).modSlice p free).failSlice p .control := by
  have there : ((s.takeMsg sent).modSlice p free).slice p = some (free sl) := State.slice_modSlice _ p free sl hs
  rw [← State.strayAck_of_live there hl]
  simp only [State.dirAck, hn, ha, Bool.false_eq_true, if_true, if_false]

end Acknowledgements

/-- Settles O21: each acknowledgement by what it answers. -/
theorem acknowledgementsEndWhatTheyAnswer : Obligations.AcknowledgementsEndWhatTheyAnswer := by
  refine fun s p pg sl hs => ⟨fun port tag mp c hm hc hg hk => ?_, fun u r ha => ?_, fun ha hlink => ?_, fun ha hlink hl => ?_, ?_, ?_⟩
  · intro s1
    have written : exec (.memAck (.mem port tag)) s = .next (s1.writeDone c) := congrArg _ (State.memWritten_of_write hm hc hg hk)
    refine ⟨fun w ho => ?_, fun n vic ho => ?_, fun n vic ho => ?_⟩ <;>
    · rw [State.writeDone, ho] at written
      exact written
  · exact congrArg _ (State.ackMirror_of_acked hs ha)
  · exact congrArg _ ((State.ackMirror_of_none hs ha).trans (if_neg hlink))
  · exact congrArg _ ((State.ackMirror_of_none hs ha).trans ((if_pos hlink).trans (State.strayAck_of_live hs hl)))
  · exact fun hn => ⟨fun ha => congrArg _ (State.dirAck_of_awaited hn ha), fun ha hl => congrArg _ (State.dirAck_of_stray hn ha hs hl)⟩
  · exact fun hn => ⟨fun ha => congrArg _ (State.dirAck_of_awaited hn ha), fun ha hl => congrArg _ (State.dirAck_of_stray hn ha hs hl)⟩

/-! ### Replays (R215, R415, R426) -/

section Replays

variable {s : State} {p : Nat} {r : Replay} {it : RItem} {rest : List RItem} {sl : Slice}

/-- What placing a replay's next item makes of the state, where there is room: the adopting slice takes it from its own mirror, the
reserve from the replay bus, where an item may get lost (R415, R426). -/
def State.placeItem (s : State) (r : Replay) (it : RItem) : Option State :=
  let d := if r.adoption then (s, false) else s.busBeat r.buddy
  if r.adoption then d.1.placeFree r.target it
  else if d.2 then some (d.1.placeLost r.target it) else some (d.1.placeSame r.target it)

/-- The only replay goes on behind an item that was placed. -/
def State.itemPlaced (s : State) (r : Replay) (rest : List RItem) : State :=
  (({ s with cast := { s.cast with replays := [{ r with items := rest }] } }.cleanStart r.target).noteOcc r.target).settle r.target

theorem State.replayStep_of_end (hi : r.items = .replayEnd :: rest) : s.replayStep r = s.replayEnd r := by
  simp only [State.replayStep, hi, beq_self_eq_true, if_true]

/-- A line or a hold entry of a replay is placed in its order (R415, R426). -/
theorem State.replayStep_of_placed {s1 : State} (hi : r.items = it :: rest) (hend : it ≠ .replayEnd) (ht : ∀ t, it ≠ .trk t)
    (hp : s.placeItem r it = some s1) (hr : s1.cast.replays = [r]) : s.replayStep r = s1.itemPlaced r rest := by
  have left : s1.cast.replays.map (fun x => if x.target == r.target then { x with items := rest } else x) =
      [{ r with items := rest }] := by simp [hr]
  simp only [State.placeItem] at hp
  simp only [State.replayStep, hi, beq_false_of_ne hend, hp, left]
  cases it with
  | trk t => exact absurd rfl (ht t)
  | _ => rfl

/-- In an adoption an item without room waits (R426). -/
theorem State.replayStep_of_no_room (hi : r.items = it :: rest) (hend : it ≠ .replayEnd) (ha : r.adoption = true)
    (hp : s.placeFree r.target it = none) : s.replayStep r = s := by
  simp [State.replayStep, hi, hend, ha, hp]

theorem State.castleReplay_of_no_replay (hs : s.slice p = some sl) (hl : sl.live = true) (hr : ∀ r ∈ s.cast.replays, r.target ≠ p) :
    s.castleReplay p = s.logEv 0x29 0 p 0 0 := by
  have noReplay : (s.cast.replays.find? fun r => r.target == p && !r.adoption) = none :=
    List.find?_eq_none.mpr fun r h => by simp [hr r h]
  simp only [State.castleReplay, noReplay, hs, hl, if_true]

theorem State.castleReplay_eq (hr : s.cast.replays = [r]) (ht : r.target = p) (ha : r.adoption = false)
    (hp : s.castleLive p = true) (hb : s.castleLive r.buddy = true) : s.castleReplay p = s.replayStep r := by
  simp [State.castleReplay, hr, ht, ha, hp, hb]

theorem State.adoptionMove_eq (hr : s.cast.replays = [r]) (ht : r.target = p) (ha : r.adoption = true)
    (hp : s.castleLive p = true) : s.adoptionMove p = s.replayStep r := by
  simp [State.adoptionMove, hr, ht, ha, hp]

theorem State.busBeat_cast (b : Nat) : (s.busBeat b).1.cast = s.cast := by
  unfold State.busBeat
  split <;> rfl

/-- An item whose beat is good is placed as it was. -/
theorem State.placeItem_of_beat (ha : r.adoption = false) (hb : (s.busBeat r.buddy).2 = false) :
    s.placeItem r it = some ((s.busBeat r.buddy).1.placeSame r.target it) := by
  simp [State.placeItem, ha, hb]

theorem State.toWpq_cast (l : LineAddr) (d : Line) (n : Nib) (po k : Bool) : (s.toWpq p l d n po k).s.cast = s.cast := by
  unfold State.toWpq
  split <;> rfl

/-- The adopting slice takes a line into the WPQ once it has room (R426). -/
theorem State.placeFree_wpq (hs : s.slice p = some sl) (w : Nat) (m : MirLine) : s.placeFree p (.wpq w m) =
    if sl.wpqFits m.line then some (s.toWpq p m.line m.data m.nib m.poison false).s else none := by
  simp only [State.placeFree, hs]

end Replays

/-! ### The end of a resync (R420) -/

section Resync

variable {s : State} {p b : Nat} {sl sb : Slice}

/-- The mirror's records of a slice's dirty lines: those of the cache, and those of the victim buffer that the WPQ does not hold. -/
def Slice.dirtyRecords (sl : Slice) : List MirLine :=
  (sl.msc.lines.filter fun y => y.2.dirty).map (fun y => y.2.mir) ++ (sl.msc.vb.filter fun v => v.cl.dirty && !v.inWpq).map fun v => v.cl.mir

/-- The buddy holds what the slice's mirror and journal are, and the slice is mirrored again. -/
def State.resynced (s : State) (p b : Nat) (sl : Slice) : State :=
  (s.modSlice b fun x => { x with mir := { x.mir with
    dirty := sl.dirtyRecords
    wpq := sl.msc.wpq.map fun w => (w.wid, MirLine.mk w.line w.data w.nib w.poison)
    jTrk := sl.trk
    jHold := sl.hold } }).modSlice p fun x => { x with ident := { x.ident with unprot := false } }

/-- An unprotected slice and its buddy, both serving over a link that works, with no error stored in the mirror. -/
structure State.Resyncs (s : State) (p b : Nat) (sl sb : Slice) : Prop where
  slice : s.slice p = some sl
  pair : s.buddyOf p = some b
  buddy : s.slice b = some sb
  serves : sb.ident.role = .active
  unstalled : sb.ident.adoptStall = false
  noErrs : sb.obs.errs = []
  link : (s.cast.linkFailed[s.channelOf p]?).getD false = false
  unprot : sl.ident.unprot = true
  here : s.castleLive p = true
  there : s.castleLive b = true
  notAdopting : sl.ident.role ≠ .adopting
  noStall : sl.ident.adoptStall = false

theorem State.Resyncs.resyncDone_eq (a : s.Resyncs p b sl sb) : s.resyncDone p = ((s.resynced p b sl).pairProtected p).settle p := by
  simp only [State.resyncDone, a.slice, a.pair, a.buddy, State.meetErr_of_no_errs a.buddy a.noErrs, a.serves, a.unstalled, a.link,
    a.unprot, a.here, a.there, beq_false_of_ne a.notAdopting, a.noStall]
  rfl

/-- A slice that is not unprotected has no resync to end. -/
theorem State.resyncDone_of_protected (hs : s.slice p = some sl) (hu : sl.ident.unprot = false) : s.resyncDone p = s := by
  cases hb : s.buddyOf p with
  | none => simp only [State.resyncDone, hs, hb]
  | some b => simp only [State.resyncDone, hs, hb, hu, Bool.not_false, Bool.true_or, if_true]

end Resync

/-- Settles O32: the replays by their next item, the resync by `State.Resyncs.resyncDone_eq`. -/
theorem replaysPlaceTheirItemsInOrder : Obligations.ReplaysPlaceTheirItemsInOrder := by
  refine fun s p sl hs => ⟨fun hl hr => ?_, fun r rest hr ht ha hp hb hbeat => ?_, fun r w m rest hr ht ha hi hp => ?_,
    fun b sb hpair hsb hrole hsst herr hlink hun hp hb hnad hst => ?_, fun hu => ?_⟩
  · exact congrArg _ (State.castleReplay_of_no_replay hs hl hr)
  · subst ht
    have command : exec (.castleReplay r.target) s = .next (s.castleReplay r.target) := rfl
    have step := State.castleReplay_eq hr rfl ha hp hb
    have before : (s.busBeat r.buddy).1.cast.replays = [r] := by rw [State.busBeat_cast, hr]
    refine ⟨fun w m hi => ?_, fun h hi => ?_, fun hi => ?_⟩
    · have placed := State.placeItem_of_beat (it := .wpq w m) ha hbeat
      rw [command, step, State.replayStep_of_placed hi nofun (fun _ => nofun) placed before]
      rfl
    · have placed := State.placeItem_of_beat (it := .hold h) ha hbeat
      rw [command, step, State.replayStep_of_placed hi nofun (fun _ => nofun) placed before]
      rfl
    · rw [command, step, State.replayStep_of_end hi]
  · subst ht
    have command : exec (.adoptionItemMove r.target) s = .next (s.adoptionMove r.target) := rfl
    have step := State.adoptionMove_eq hr rfl ha hp
    have place := State.placeFree_wpq hs w m
    refine ⟨fun hfits => ?_, fun hfull => ?_⟩
    · have placed : s.placeItem r (.wpq w m) = some (s.toWpq r.target m.line m.data m.nib m.poison false).s := by
        simp only [State.placeItem, ha, place, hfits, if_true]
      have before : (s.toWpq r.target m.line m.data m.nib m.poison false).s.cast.replays = [r] := by rw [State.toWpq_cast, hr]
      rw [command, step, State.replayStep_of_placed hi nofun (fun _ => nofun) placed before]
      rfl
    · rw [hfull] at place
      rw [command, step, State.replayStep_of_no_room hi nofun ha place]
  · have resyncs : s.Resyncs p b sl sb := ⟨hs, hpair, hsb, hrole, hsst, herr, hlink, hun, hp, hb, hnad, hst⟩
    exact congrArg _ resyncs.resyncDone_eq
  · exact congrArg _ (State.resyncDone_of_protected hs hu)

end Sys2Proof.Machine

/-! The agent ports: the requests that an agent presents (R226, R228, R236, R266, R270, R274), and a port's turn to send (R228, R232,
R268, R270, R281, R282). -/

namespace Sys2Proof.Machine

open Sys2Proof

/-! ### Requests that an agent presents (R226, R236, R270) -/

/-- The commands that present a message as a request: its kind, its data, and whether the data is poisoned. -/
def agentCommands (m : AgentMsg) (d : Line) (po : Bool) : List (Instr × Inp × Line × Bool) :=
  [(.rdShared m, .rdShared, 0, false), (.rdOwn m, .rdOwn, 0, false), (.rdCur m, .rdCur, 0, false), (.upgrade m, .upgrade, 0, false),
   (.wbDirty m d po, .wbDirty, d, po), (.evictClean m, .evictClean, 0, false), (.atomicOp m d, .atomicOp, d, false),
   (.rdRes m, .rdRes, 0, false), (.wrCond m d, .wrCond, d, false), (.fence m, .fence, 0, false)]

/-- The port has counted a class field outside 0 to 4 (R236). -/
def AgentPort.countClass (a : AgentPort) (m : AgentMsg) : AgentPort := if 5 ≤ m.cls.toNat then a.err 0 else a

/-- The port of a message holds its request, last. -/
def State.holdReq (s : State) (m : AgentMsg) (r : PortReq) : State :=
  s.modAgentPort m.port fun a => { a.countClass m with held := a.held ++ [r] }

/-- With `reach` past the port a request that is held is sent at once, if it is the port's next one (log 2). -/
def State.sendIfNext (s : State) (m : AgentMsg) (r : PortReq) : State :=
  if m.reach == .port then s
  else match (s.agentPort m.port).bind fun a => s.nextSend m.port a with
    | some n => if n.same r then s.sendReq m.port n m.useK (m.reach == .home) else s
    | none => s

/-- The WbDirty that a new request would be answered from, unless an earlier request of its thread holds it (R270, R274). -/
def AgentPort.answersFrom (a : AgentPort) (r : PortReq) : Option PortReq :=
  if a.held.any fun z => z.blocks r then none else a.selfData r

/-- The port of a message takes requests, and its agent, which is disabled or on, has a credit (R226, R246). -/
structure State.MayPresent (s : State) (m : AgentMsg) (ap : AgentPort) : Prop where
  walk : s.walkFailed = false
  port : s.agentPort m.port = some ap
  takes : s.agentTakes m.port ap (opcOf m.opc) = true
  agent : bitAt ap.silent m.agent.toNat = true ∨ s.agentOn m.port m.agent.toNat = true
  credit : ap.credits m.agent.toNat ≠ 0

/-- A request is held in the form that its command gives it: nothing refuses it, and its place has room (R267). -/
structure State.Takes (s : State) (m : AgentMsg) (ap : AgentPort) (k0 : Inp) (x : Line) (y : Bool) (r : PortReq) : Prop
    extends s.MayPresent m ap where
  legal : s.agentRefusal m (bitAt ap.silent m.agent.toNat) = none
  form : r = s.portReqOf ((opcOf m.opc).getD k0) m x y
  room : r.inBuf = false ∨ (ap.held.filter PortReq.buffers).length < 32

section Presented

variable {s : State} {m : AgentMsg} {d x : Line} {po y : Bool} {k0 : Inp} {ap ap1 : AgentPort} {r n w : PortReq}

theorem exec_of_mem_agentCommands {c : Instr × Inp × Line × Bool} (hc : c ∈ agentCommands m d po) (s : State) :
    exec c.1 s = .next (s.agentRequest c.2.1 m c.2.2.1 c.2.2.2) := by
  revert c
  simp only [agentCommands, List.forall_mem_cons]
  exact ⟨rfl, rfl, rfl, rfl, rfl, rfl, rfl, rfl, rfl, rfl, fun _ h => absurd h List.not_mem_nil⟩

theorem AgentPort.answersFrom_of_free (h : ∀ z ∈ ap.held, z.blocks r = false) : ap.answersFrom r = ap.selfData r :=
  if_neg (by simpa using h)

theorem AgentPort.answersFrom_eq_none (h : (∃ z ∈ ap.held, z.blocks r = true) ∨ ap.selfData r = none) : ap.answersFrom r = none := by
  rcases h with h | h
  · exact if_pos (List.any_eq_true.mpr h)
  · rw [AgentPort.answersFrom, h, ite_self]

theorem State.MayPresent.not_ignored (a : s.MayPresent m ap) :
    ¬ ((!bitAt ap.silent m.agent.toNat && !s.agentOn m.port m.agent.toNat) = true ∨ ap.credits m.agent.toNat = 0) := by
  rcases a.agent with h | h <;> simp [h, a.credit]

/-- A refused request is held with its error response, outside the store buffer, and counted (R236). -/
theorem State.MayPresent.refused (a : s.MayPresent m ap) {e : BitVec 3}
    (he : s.agentRefusal m (bitAt ap.silent m.agent.toNat) = some e)
    (hr : r = { s.portReqOf ((opcOf m.opc).getD k0) m x y with inBuf := false }) :
    s.agentRequest k0 m x y = s.modAgentPort m.port fun b =>
      ({ (b.countClass m).err 3 with held := b.held ++ [r] }).answerSelf r (.error e) none false := by
  subst hr
  simp only [State.agentRequest, a.port, a.walk, a.takes, he, Bool.false_and, Bool.not_true, Bool.or_eq_true, decide_eq_true_eq,
    if_neg a.not_ignored]
  rfl

theorem State.Takes.not_full (a : s.Takes m ap k0 x y r) :
    (r.inBuf && decide (32 ≤ (ap.held.filter PortReq.buffers).length)) = false := by
  rcases a.room with h | h <;> simp [h]

/-- A request that the port holds is answered from the agent's own data, or sent at once where it is the port's next one. -/
theorem State.Takes.agentRequest_eq (a : s.Takes m ap k0 x y r) :
    s.agentRequest k0 m x y = (ap.answersFrom r).elim ((s.holdReq m r).sendIfNext m r) fun w =>
      (s.holdReq m r).modAgentPort m.port fun b => b.answerSelf r .gntCur (some w.req.data) w.req.poison := by
  have own : (if ap.held.any fun z => z.blocks r then none else ap.selfData r) = ap.answersFrom r := rfl
  simp only [State.agentRequest, a.port, a.walk, a.takes, a.legal, ← a.form, a.not_full, own, Bool.false_and, Bool.not_true,
    Bool.or_eq_true, decide_eq_true_eq, if_neg a.not_ignored]
  cases ap.answersFrom r with
  | none => rfl
  | some w =>
    refine Eq.trans ?_ (State.modAgentPort_modAgentPort s m.port _ _).symm
    rfl

theorem State.sendIfNext_of_port (h : m.reach = .port) : s.sendIfNext m r = s := by
  rw [State.sendIfNext, h]
  rfl

theorem State.sendIfNext_of_next (hr : m.reach ≠ .port) (ha : s.agentPort m.port = some ap) (hn : s.nextSend m.port ap = some n)
    (same : n.same r = true) : s.sendIfNext m r = s.sendReq m.port n m.useK (m.reach == .home) := by
  simp only [State.sendIfNext, beq_false_of_ne hr, ha, Option.bind_some, hn, same, Bool.false_eq_true, if_true, if_false]

theorem State.sendIfNext_of_not_next (ha : s.agentPort m.port = some ap)
    (hn : ∀ n, s.nextSend m.port ap = some n → n.same r = false) : s.sendIfNext m r = s := by
  simp only [State.sendIfNext, ha, Option.bind_some]
  cases h : s.nextSend m.port ap with
  | none => exact ite_self s
  | some n => simp [hn n h]

end Presented

/-- Settles O14: a refused request by `State.MayPresent.refused`, one that is held by `State.Takes.agentRequest_eq`. -/
theorem agentRequestIsHeldByItsPort : Obligations.AgentRequestIsHeldByItsPort := by
  intro s m d po c k0 x y ap hc walk port takes agent credit r counted
  have may : s.MayPresent m ap := ⟨walk, port, takes, agent, credit⟩
  have run : exec c s = .next (s.agentRequest k0 m x y) := exec_of_mem_agentCommands hc s
  refine ⟨fun e he => run.trans (congrArg _ (may.refused he rfl)), fun legal room => ?_⟩
  have held : s.Takes m ap k0 x y r := ⟨may, legal, rfl, room⟩
  rw [held.agentRequest_eq] at run
  refine ⟨fun w free own => ?_, fun unanswered => ?_⟩
  · rw [AgentPort.answersFrom_of_free free, own] at run
    exact run
  · rw [AgentPort.answersFrom_eq_none unanswered] at run
    exact ⟨fun hr => run.trans (congrArg _ (State.sendIfNext_of_port hr)), fun ap1 h1 =>
      ⟨fun n hr hn same => run.trans (congrArg _ (State.sendIfNext_of_next hr h1 hn same)),
       fun hn => run.trans (congrArg _ (State.sendIfNext_of_not_next h1 hn))⟩⟩

/-! ### A port's turn to send (R228, R232, R268, R270, R281, R282) -/

/-- The store buffer has had its turn if the request sent was of it (R268). -/
def AgentPort.turned (a : AgentPort) (r : PortReq) : AgentPort := if r.inBuf then { a with headAge := 0 } else a

/-- After a request of the read path has been sent, the head of the store buffer grows older (R268). -/
def State.afterSend (s : State) (p : Nat) (r : PortReq) : State := if r.inBuf then s else s.modAgentPort p AgentPort.ageHead

/-- A request has left: it is sent, and accepted in the order of sending. -/
def AgentPort.gone (a : AgentPort) (r : PortReq) : AgentPort :=
  a.modReq r fun x => { x with stage := .sent, urged := false, req := { x.req with seq := a.nextOrder } }

/-- A thread reserves a granule, in place of an earlier one (R281). -/
def AgentPort.reserve (a : AgentPort) (t : ThreadId) (l : LineAddr) : AgentPort :=
  { a with resv := (a.resv.filter fun x => x.1 != t) ++ [(t, l)] }

/-- A request has left its port for its home: a RdRes reserves its line, a WrCond ends the reservation of its thread (R281, R282). -/
def AgentPort.left (a : AgentPort) (p : Nat) (r : PortReq) : AgentPort :=
  match r.req.kind with
  | .rdRes => (a.gone r).reserve (r.thr p) r.req.line
  | .wrCond => (a.gone r).clearRes fun x => x == r.thr p
  | _ => a.gone r

/-- A port that has a turn to send. -/
structure State.PortTurn (s : State) (p : Nat) (ap : AgentPort) : Prop where
  port : s.agentPort p = some ap
  agents : p < s.variant.agents
  awake : s.pwr.phase ≠ .p2

section Turn

variable {s : State} {p h n : Nat} {ap : AgentPort} {r w : PortReq} {q : Req} {sl : Slice} {useK home : Bool}

theorem AgentPort.left_of_wrCond (hk : r.req.kind = .wrCond) : ap.left p r = (ap.gone r).clearRes fun x => x == r.thr p := by
  simp only [AgentPort.left, hk]

theorem AgentPort.left_of_not_wrCond (hk : r.req.kind ≠ .wrCond) :
    ap.left p r = if r.req.kind = .rdRes then (ap.gone r).reserve (r.thr p) r.req.line else ap.gone r := by
  unfold AgentPort.left
  split
  · next e => rw [if_pos e]
  · next e => exact absurd e hk
  · next e _ => rw [if_neg e]

/-! Which of its three things a port does in its turn. -/

theorem State.PortTurn.can_send (a : s.PortTurn p ap) : ¬ (decide (s.variant.agents ≤ p) || s.pwr.phase == .p2) = true := by
  simp [a.agents, a.awake]

theorem State.PortTurn.answers (a : s.PortTurn p ap) (hr : ap.selfReady = some (r, w)) :
    s.portSend p useK home = s.modAgentPort p fun b => b.answerSelf r .gntCur (some w.req.data) w.req.poison := by
  simp only [State.portSend, a.port, if_neg a.can_send, hr]

theorem State.PortTurn.idles (a : s.PortTurn p ap) (hr : ap.selfReady = none) (hn : s.nextSend p ap = none) :
    s.portSend p useK home = s.modAgentPort p AgentPort.ageHead := by
  simp only [State.portSend, a.port, if_neg a.can_send, hr, hn]

theorem State.PortTurn.sends (a : s.PortTurn p ap) (hr : ap.selfReady = none) (hn : s.nextSend p ap = some r) :
    s.portSend p useK home = (s.sendReq p r useK home).afterSend p r := by
  simp only [State.portSend, a.port, if_neg a.can_send, hr, hn]
  rfl

/-! How a request is sent. -/

theorem State.turned_modAgentPort (f : AgentPort → AgentPort) :
    (if r.inBuf then (s.modAgentPort p f).modAgentPort p fun b => { b with headAge := 0 } else s.modAgentPort p f) =
      s.modAgentPort p fun b => (f b).turned r := by
  rw [State.modAgentPort_modAgentPort]
  unfold AgentPort.turned
  split <;> rfl

/-- A fence goes to every slice that serves (R232). -/
theorem State.sendReq_fence (hk : r.req.kind = .fence) : s.sendReq p r useK home =
    (s.serving.foldl (fun s q => s.meshSend
      { meshMsg (.agent p) (.slice q) 0x19 .p 0 r.req.tag with peer := 4 * p + r.agent, kpri := false }) s).modAgentPort p fun b =>
        (b.modReq r fun x => { x with stage := .sent, fenceWait := s.serving, req := { x.req with seq := b.nextOrder } }).turned r := by
  simp only [State.sendReq, hk, beq_self_eq_true, if_true]
  exact State.turned_modAgentPort _

/-- A WrCond whose thread holds no reservation of its line is answered by the port (R282). -/
theorem State.sendReq_unreserved (hp : s.agentPort p = some ap) (hk : r.req.kind = .wrCond)
    (hr : ap.resOf (r.thr p) ≠ some r.req.line) : s.sendReq p r useK home =
      s.modAgentPort p fun b => ((b.clearRes fun x => x == r.thr p).answerSelf r .result none false).turned r := by
  have refused : (r.req.kind == .wrCond && (s.agentPort p).bind (fun b => b.resOf (r.thr p)) != some r.req.line) = true := by
    simp [hp, hk, hr]
  have notFence : (r.req.kind == .fence) = false := by rw [hk]; rfl
  simp only [State.sendReq, notFence, refused, Bool.false_eq_true, if_true, if_false]
  exact State.turned_modAgentPort _

/-- Any other request leaves for its line's home slice, a WrCond with the reservation that it needs (R228, R282). -/
theorem State.sendReq_home (hp : s.agentPort p = some ap) (hf : r.req.kind ≠ .fence)
    (hr : r.req.kind = .wrCond → ap.resOf (r.thr p) = some r.req.line) (hl : s.lineLost r.req.line = false)
    (hh : s.sendTo r.req = some h) : s.sendReq p r useK home =
      (s.modAgentPort p fun b => (b.left p r).turned r).arriveBy h { r.req with withK := useK } home := by
  have reserved : (r.req.kind == .wrCond && (s.agentPort p).bind (fun b => b.resOf (r.thr p)) != some r.req.line) = false := by
    by_cases hk : r.req.kind = .wrCond
    · simp [hp, hr hk]
    · simp [hk]
  rw [← State.turned_modAgentPort]
  simp only [State.sendReq, beq_false_of_ne hf, reserved, hl, hh, Bool.false_eq_true, if_false]
  rfl

/-- A request that needs a slot joins the input of its home, last (R228). -/
theorem State.arriveBy_joins (hs : s.slice h = some sl) (hi : q.src.input = some n) (hk : q.kind ≠ .biConflict)
    (hn : sl.noSlot q = false) :
    let k := q.withK || s.portClass q == .k
    let t := (s.meshReq h q k).joined h n { q with seq := sl.arb.seq, withK := k && sl.creditIdle n }
    s.arriveBy h q home = if home then State.slotsFor 4 t h n sl.arb.seq else t := by
  intro k t
  have joins : s.arrive h q = t := by
    rw [State.arrive_joins s h n q sl hs hi]
    simp only [hn, if_neg hk, bne_iff_ne.mpr hk, Bool.and_true, Bool.and_false, Bool.false_eq_true, if_false]
    rfl
  rw [State.arriveBy_eq hs hi, joins]

/-- The next request of a port, as it leaves for its home and joins the port's input there. -/
theorem State.PortTurn.joinsHome (a : s.PortTurn p ap) (hready : ap.selfReady = none) (hnext : s.nextSend p ap = some r)
    (hf : r.req.kind ≠ .fence) (hb : r.req.kind ≠ .biConflict)
    (hr : r.req.kind = .wrCond → ap.resOf (r.thr p) = some r.req.line) (hl : s.lineLost r.req.line = false)
    (hh : s.sendTo r.req = some h) (hs : s.slice h = some sl) (hsrc : r.req.src = .agent p r.agent r.thread)
    (hn : sl.noSlot r.req = false) :
    let k := useK || s.portClass r.req == .k
    let t := ((s.modAgentPort p fun b => (b.left p r).turned r).meshReq h { r.req with withK := useK } k).joined h (8 + p)
      { r.req with seq := sl.arb.seq, withK := k && sl.creditIdle (8 + p) }
    s.portSend p useK home = (if home then State.slotsFor 4 t h (8 + p) sl.arb.seq else t).afterSend p r := by
  intro k t
  have input : r.req.src.input = some (8 + p) := by rw [hsrc]; rfl
  rw [a.sends hready hnext, State.sendReq_home a.port hf hr hl hh]
  exact congrArg (State.afterSend · p r)
    (State.arriveBy_joins (s := s.modAgentPort p fun b => (b.left p r).turned r) (q := { r.req with withK := useK }) hs input hb hn)

end Turn

/-- Settles O15: the port's turn by what it has to send, a request's way to its home by `State.PortTurn.joinsHome`. -/
theorem agentPortSendsItsNextRequest : Obligations.AgentPortSendsItsNextRequest := by
  intro s p ap useK reach port hp hph
  have a : s.PortTurn p ap := ⟨port, hp, hph⟩
  have run : exec (.agentPortSend p useK reach) s = .next (s.portSend p useK (reach == .home)) := rfl
  refine ⟨fun r w hr => run.trans (congrArg _ (a.answers hr)), fun hr hn => run.trans (congrArg _ (a.idles hr hn)), fun r hr hn => ?_⟩
  intro turn after gone
  have sends := run.trans (congrArg _ (a.sends hr hn))
  refine ⟨fun hk => ?_, fun hk hres => ?_, fun h sl hf hk hres hl hh hs hsrc hslot hreach => ?_,
    fun h sl hf hk hb hl hh hs hsrc hslot => ?_⟩
  · rw [sends, State.sendReq_fence hk]
    rfl
  · rw [sends, State.sendReq_unreserved port hk hres]
    rfl
  · have notConflict : r.req.kind ≠ .biConflict := by rw [hk]; nofun
    have joins := run.trans (congrArg _ (a.joinsHome hr hn hf notConflict (fun _ => hres) hl hh hs hsrc hslot))
    simp only [AgentPort.left_of_wrCond hk, beq_false_of_ne hreach, Bool.false_eq_true, if_false] at joins
    exact joins
  · have joins := run.trans (congrArg _ (a.joinsHome hr hn hf hb (fun e => absurd e hk) hl hh hs hsrc hslot))
    simp only [AgentPort.left_of_not_wrCond hk, beq_iff_eq] at joins
    exact joins

end Sys2Proof.Machine

/-! The memory-side cache: the walks over its sets (R310, R320, R382), the write queue, the mirror, the victim buffer and pending fills
(R32, R305 to R308, R313), ways retired and disabled (R321, R322, R540). -/

namespace Sys2Proof.Machine

open Sys2Proof

/-! ### Walks over sets (R310, R320, R382) -/

section Walks

variable {s t : State} {p set : Nat} {sl : Slice} {take drop : Nat × CLine → Bool}

/-- Lines of a set go to the WPQ, one after another. -/
def State.linesBack (s : State) (p set : Nat) (ls : List (Nat × CLine)) : State :=
  ls.foldl (fun (s : State) x => s.writeBack p (set * 16 + x.1) x.2) s

/-- Lines of a set become invalid. -/
def State.linesGone (s : State) (p set : Nat) (ls : List (Nat × CLine)) : State :=
  ls.foldl (fun (s : State) x => s.modSlice p fun y => y.mscDel (set * 16 + x.1)) s

/-- A set is not visited while the WPQ lacks an entry for each of its dirty lines (R310). -/
theorem State.visitSet_of_no_room (hs : s.slice p = some sl) (h : sl.wpqRoom < ((sl.setLines set).filter fun x => x.2.dirty).length) :
    s.visitSet p set take drop = none := by
  simp only [State.visitSet, hs, if_pos h]

theorem State.visitSet_of_room (hs : s.slice p = some sl) (h : ((sl.setLines set).filter fun x => x.2.dirty).length ≤ sl.wpqRoom) :
    s.visitSet p set take drop = some ((s.linesBack p set ((sl.setLines set).filter fun x => x.2.dirty && take x)).linesGone p set
      ((sl.setLines set).filter drop)) := by
  simp only [State.visitSet, hs, if_neg h.not_gt]
  rfl

/-- A visit that chooses every dirty line and drops none (R310, R382). -/
theorem State.visitSet_keeping (hs : s.slice p = some sl) (h : ((sl.setLines set).filter fun x => x.2.dirty).length ≤ sl.wpqRoom) :
    s.visitSet p set (fun _ => true) (fun _ => false) = some (s.linesBack p set ((sl.setLines set).filter fun x => x.2.dirty)) := by
  rw [State.visitSet_of_room hs h, List.filter_false]
  simp only [Bool.and_true]
  rfl

/-! The writeback walk of a slice that is mirrored and has no way to empty. -/

/-- The dirty count calls for the writeback walk (R310). -/
def State.walkCalled (s : State) (p : Nat) (sl : Slice) : Prop := s.dirtyHigh p < sl.dirtyCount ∨ sl.msc.walkBusy = true

/-- A slice that walks for its dirty count alone: it is mirrored and has no way to empty. -/
structure State.Walks (s : State) (p : Nat) (sl : Slice) : Prop where
  slice : s.slice p = some sl
  live : sl.live = true
  noWay : sl.msc.retiring = []
  mirrored : sl.ident.unprot = false

theorem State.Walks.writebackTurn_idles (a : s.Walks p sl) (hb : sl.msc.walkBusy = false) (hd : sl.dirtyCount ≤ s.dirtyHigh p) :
    s.writebackTurn p = s := by
  simp [State.writebackTurn, State.retireTurn, a.slice, a.live, a.noWay, a.mirrored, hb, hd.not_gt]

theorem State.walkCalled.on (hc : s.walkCalled p sl) :
    (sl.msc.walkBusy || decide (s.dirtyHigh p < sl.dirtyCount)) = true := by
  rcases hc with h | h <;> simp [h]

theorem State.Walks.writebackTurn_waits (a : s.Walks p sl) (hc : s.walkCalled p sl)
    (hv : s.visitSet p sl.msc.walkSet (fun _ => true) (fun _ => false) = none) :
    s.writebackTurn p = s.modMsc p fun m => { m with walkBusy := true } := by
  simp only [State.writebackTurn, State.retireTurn, a.slice, a.live, a.noWay, a.mirrored, hc.on, hv, List.findSome?_nil,
    Bool.false_and, Bool.or_false, Bool.not_true, Bool.false_eq_true, if_false]

theorem State.Walks.writebackTurn_goes {y : Slice} (a : s.Walks p sl) (hc : s.walkCalled p sl)
    (hv : s.visitSet p sl.msc.walkSet (fun _ => true) (fun _ => false) = some t) (hy : t.slice p = some y) :
    s.writebackTurn p = ((t.modMsc p fun m =>
      { m with walkSet := (m.walkSet + 1) % 4096, walkBusy := decide (s.dirtyLow p < y.dirtyCount) }).noteOcc p).settle p := by
  simp only [State.writebackTurn, State.retireTurn, a.slice, a.live, a.noWay, a.mirrored, hc.on, hv, hy, List.findSome?_nil,
    Bool.false_and, Bool.or_false, Bool.not_true, Bool.false_eq_true, if_false]

/-! The walk of a cache that is being disabled. -/

/-- A line that no hold entry waits for goes (R320). -/
def Slice.lineGoes (sl : Slice) (x : Nat × CLine) : Bool := !sl.holdWaits x.2.line

/-- The walk passes the set that it has visited: to the next one, to the next pass while lines or victims remain, or to its end
(R320). -/
def Slice.drainPast (sl : Slice) (m : Msc) : Msc :=
  let left := sl.msc.drainLeft || (sl.setLines sl.msc.drainSet).any fun x => !sl.lineGoes x
  if sl.msc.drainSet + 1 < 4096 then { m with drainSet := sl.msc.drainSet + 1, drainLeft := left }
  else if left || !m.vb.isEmpty then { m with drainSet := 0, drainLeft := false }
  else { m with drainSet := 0, drainLeft := false, state := .disabled }

theorem State.cacheDrainTurn_of_not_draining (hs : s.slice p = some sl) (hd : sl.msc.state ≠ .draining) : s.cacheDrainTurn p = s := by
  simp only [State.cacheDrainTurn, hs, bne_iff_ne.mpr hd, Bool.or_true, if_true]

theorem State.cacheDrainTurn_of_draining (hs : s.slice p = some sl) (hl : sl.live = true) (hd : sl.msc.state = .draining) :
    s.cacheDrainTurn p = (s.visitSet p sl.msc.drainSet sl.lineGoes sl.lineGoes).elim s fun t =>
      ((t.modMsc p sl.drainPast).noteOcc p).settle p := by
  simp only [State.cacheDrainTurn, hs, hl, hd, Bool.not_true, bne_self_eq_false, Bool.or_false, Bool.false_eq_true, if_false]
  show _ = (s.visitSet p sl.msc.drainSet (fun x => !sl.holdWaits x.2.line) (fun x => !sl.holdWaits x.2.line)).elim s _
  cases s.visitSet p sl.msc.drainSet (fun x => !sl.holdWaits x.2.line) (fun x => !sl.holdWaits x.2.line) <;> rfl

/-! The drain walk of a slice for a drain of the Endgame unit. -/

theorem State.drainTurn_of_not_draining (hs : s.slice p = some sl) (hd : sl.ident.draining = false) : s.drainTurn p = s := by
  simp only [State.drainTurn, hs, hd, Bool.not_false, Bool.true_or, if_true]

/-- A live slice on its first pass of a drain of the Endgame unit. -/
structure State.Drains (s : State) (p : Nat) (sl : Slice) : Prop where
  slice : s.slice p = some sl
  live : sl.live = true
  draining : sl.ident.draining = true
  firstPass : sl.ident.drainPass = false
  drainReq : s.eg.drainReq = true

theorem State.Drains.drainTurn_eq (a : s.Drains p sl) : s.drainTurn p =
    (s.visitSet p sl.ident.drainSet (fun _ => true) (fun _ => false)).elim s fun t =>
      ((t.modSlice p fun x => { x with ident := { x.ident with
        drainSet := (x.ident.drainSet + 1) % 4096
        drainPass := x.ident.drainPass || x.ident.drainSet + 1 == 4096 } }).noteOcc p).settle p := by
  obtain ⟨isolated, failed, asleep, frozen⟩ := (Slice.live_iff sl).mp a.live
  have noP2 : s.p2Drain = false := by simp [State.p2Drain, a.drainReq]
  simp only [State.drainTurn, a.slice, a.draining, a.firstPass, noP2, isolated, failed, asleep, frozen, Bool.not_true,
    Bool.false_and, Bool.or_false, Option.isSome_none, Bool.false_eq_true, if_false]
  cases s.visitSet p sl.ident.drainSet (fun _ => true) (fun _ => false) <;> rfl

end Walks

/-- Settles O26: each walk by whether it is called for, and its turn by whether the WPQ has room for the set's dirty lines. -/
theorem writebackAndDrainWalks : Obligations.WritebackAndDrainWalks := by
  refine ⟨fun s p sl hs hl hr hu => ?_, fun s p sl hs hl => ⟨fun hd => ⟨fun room => ?_, fun full => ?_⟩, fun hd => ?_,
    fun hd hp hr => ?_, fun hd => ?_⟩⟩
  · have a : s.Walks p sl := ⟨hs, hl, hr, hu⟩
    exact ⟨fun hb hd => congrArg _ (a.writebackTurn_idles hb hd),
      fun hc full => congrArg _ (a.writebackTurn_waits hc (State.visitSet_of_no_room hs full)),
      fun hc room y hy => congrArg _ (a.writebackTurn_goes hc (State.visitSet_keeping hs room) hy)⟩
  · exact congrArg _ ((State.cacheDrainTurn_of_draining hs hl hd).trans (by rw [State.visitSet_of_room hs room]; rfl))
  · exact congrArg _ ((State.cacheDrainTurn_of_draining hs hl hd).trans (by rw [State.visitSet_of_no_room hs full]; rfl))
  · exact congrArg _ (State.cacheDrainTurn_of_not_draining hs hd)
  · have a : s.Drains p sl := ⟨hs, hl, hd, hp, hr⟩
    exact ⟨fun room => congrArg _ (a.drainTurn_eq.trans (by rw [State.visitSet_keeping hs room]; rfl)),
      fun full => congrArg _ (a.drainTurn_eq.trans (by rw [State.visitSet_of_no_room hs full]; rfl))⟩
  · exact congrArg _ (State.drainTurn_of_not_draining hs hd)

/-! ### Write queue and mirror (R32, R308, R313) -/

section Queues

variable {s : State} {p b v n : Nat} {sl : Slice}

/-- The data of an entry is read as it is where no error is stored (R404). -/
theorem State.readBuf_of_no_errs (hs : s.slice p = some sl) (he : sl.obs.errs = []) (arr : ErrArr) (i : Nat) (l : LineAddr) :
    s.readBuf p arr i l = (s, false) := by
  simp [State.readBuf, State.meetErr_of_no_errs hs he]

theorem State.wpqIssue_eq {w : WpqEnt} (hs : s.slice p = some sl) (hi : sl.ident.isolated = false) (hf : sl.ident.failed = none)
    (he : sl.obs.errs = []) (hw : (sl.msc.wpq.find? fun w => !w.issued) = some w) : s.wpqIssue p =
      let s1 := ((s.modMsc p fun m => { m with wpq := m.wpq.map fun y =>
        if y.wid = w.wid then { y with issued := true, poison := w.poison } else y }).memSubmit
        (memCmd .write w.ktag ((s.lineEnt sl w.line).na w.line) w.line w.nib w.data w.poison (.wpq p w.wid))).count p 0x41 none
      if w.ktag then s1.count p 0x43 none else s1 := by
  simp only [State.wpqIssue, hs, hi, hf, hw, State.readBuf_of_no_errs hs he, Option.isSome_none, Bool.or_self, Bool.or_false,
    Bool.false_eq_true, if_false, beq_iff_eq]
  rfl

theorem State.mirrorUpdate_eq {u : MirUpd} {r : List MirUpd} (hs : s.slice p = some sl) (hb : s.buddyOf p = some b)
    (he : sl.obs.errs = []) (hl : sl.mir.link = u :: r) : s.mirrorUpdate p =
      (s.modSlice p fun x => { x with mir := { x.mir with link := r, acked := x.mir.acked ++ [u.uid] } }).modSlice b fun x =>
        { x with mir := { x.mir with
          dirty := (u.ops.foldl (fun (a : List MirLine × List (Nat × MirLine)) op => op.apply a.1 a.2) (x.mir.dirty, x.mir.wpq)).1
          wpq := (u.ops.foldl (fun (a : List MirLine × List (Nat × MirLine)) op => op.apply a.1 a.2) (x.mir.dirty, x.mir.wpq)).2
          jTrk := sl.trk
          jHold := sl.hold } } := by
  simp only [State.mirrorUpdate, hs, hb, hl, State.meetErr_of_no_errs hs he, Bool.false_eq_true, if_false]

/-! ### The victim buffer (R305, R420) -/

/-- An entry of the victim buffer is marked as one that the WPQ carries. -/
def Slice.vbMark (v : Nat) (sl : Slice) : Slice := sl.setVb (sl.msc.vb.map fun z => if z.num == v then { z with inWpq := true } else z)

/-- An entry whose line the WPQ has taken waits for the buddy's acknowledgement, and is freed at once where no update was sent (R305,
R420). -/
def Slice.vbSent (v : Nat) (u : Option Nat) (sl : Slice) : Slice :=
  match u with
  | some u => sl.setVb (sl.msc.vb.map fun z => if z.num == v then { z with inWpq := true, mirror := some u } else z)
  | none => sl.setVb (sl.msc.vb.filter fun z => z.num != v)

/-- The line of a victim takes a WPQ entry. -/
def State.victimPut (s : State) (p : Nat) (x : VbEnt) : CEff :=
  (s.modSlice p (Slice.vbMark x.num)).toWpq p x.cl.line x.cl.data x.cl.nib x.cl.poison false

/-- A victim that waits for the WPQ in a slice that works and holds no error; it is the only one of its line. -/
structure State.HoldsVictim (s : State) (p : Nat) (sl : Slice) (x : VbEnt) : Prop where
  slice : s.slice p = some sl
  isolated : sl.ident.isolated = false
  failed : sl.ident.failed = none
  noErrs : sl.obs.errs = []
  waits : x.inWpq = false
  only : ∃ a b, sl.msc.vb = a ++ x :: b ∧ ∀ y ∈ a ++ b, y.num ≠ x.num ∧ y.cl.line ≠ x.cl.line

namespace State.HoldsVictim

variable {x : VbEnt}

theorem find_num (a : s.HoldsVictim p sl x) : (sl.msc.vb.find? fun y => y.num == x.num && !y.inWpq) = some x := by
  obtain ⟨u, w, hvb, others⟩ := a.only
  refine List.find?_eq_some_iff_append.mpr ⟨by simp [a.waits], u, w, hvb, fun y hy => ?_⟩
  simp [(others y (List.mem_append_left w hy)).1]

/-- No newer copy of the line waits in the victim buffer. -/
theorem no_newer (a : s.HoldsVictim p sl x) :
    (((sl.msc.vb.dropWhile fun z => z.num != x.num).drop 1).any fun z => z.cl.line == x.cl.line && !z.inWpq) = false := by
  obtain ⟨u, w, hvb, others⟩ := a.only
  have before : ∀ y ∈ u, (y.num != x.num) = true := fun y hy => bne_iff_ne.mpr (others y (List.mem_append_left w hy)).1
  rw [hvb, List.dropWhile_append_of_pos before]
  simp only [List.dropWhile_cons, bne_self_eq_false, Bool.false_eq_true, if_false, List.drop_one, List.tail_cons, List.any_eq_false]
  exact fun y hy => by simp [(others y (List.mem_append_right u hy)).2]

/-- Once the entry is marked, no entry of its line is there to be superseded. -/
theorem supersede_vbMark (a : s.HoldsVictim p sl x) : (sl.vbMark x.num).supersede x.cl.line = sl.vbMark x.num := by
  obtain ⟨u, w, hvb, others⟩ := a.only
  have stay : ∀ y ∈ (sl.vbMark x.num).msc.vb, (!(y.cl.line == x.cl.line && !y.inWpq)) = true := by
    refine List.forall_mem_map.mpr fun y hy => ?_
    by_cases hn : y.num = x.num
    · simp [hn]
    · have other : y ∈ u ++ w := by
        rw [hvb] at hy
        simp only [List.mem_append, List.mem_cons] at hy ⊢
        exact hy.imp_right fun h => h.resolve_left fun e => hn (e ▸ rfl)
      simp [hn, (others y other).2]
  rw [Slice.supersede, List.filter_eq_self.mpr stay]
  rfl

theorem newestToWpq_vbMark (a : s.HoldsVictim p sl x) : (s.modSlice p (Slice.vbMark x.num)).newestToWpq p x.cl.line x.cl.data x.cl.nib
    x.cl.poison false = s.victimPut p x := by
  rw [State.newestToWpq, State.modSlice_modSlice, State.modSlice_congr a.slice (g := Slice.vbMark x.num) a.supersede_vbMark]
  rfl

theorem victimToWpq_full (a : s.HoldsVictim p sl x) (h : sl.wpqFits x.cl.line = false) : s.victimToWpq p x.num = s := by
  simp only [State.victimToWpq, a.slice, a.find_num, h, Bool.not_false, Bool.or_true, if_true]

theorem victimToWpq_room {u : Option Nat} (a : s.HoldsVictim p sl x) (h : sl.wpqFits x.cl.line = true)
    (hu : ((s.victimPut p x).s.mirSend p (s.victimPut p x).ops).2 = u) : s.victimToWpq p x.num =
      (((((s.victimPut p x).s.mirSend p (s.victimPut p x).ops).1.modSlice p (Slice.vbSent x.num u)).noteOcc p).quiesceKick p).settle p := by
  subst hu
  have mark : (fun y : Slice => y.setVb (y.msc.vb.map fun z => if z.num == x.num then { z with inWpq := true } else z)) =
    Slice.vbMark x.num := rfl
  simp only [State.victimToWpq, a.slice, a.find_num, a.isolated, a.failed, a.no_newer, h, State.readBuf_of_no_errs a.slice a.noErrs, mark,
    a.newestToWpq_vbMark, Bool.or_false, Option.isSome_none, Bool.not_true, Bool.false_eq_true, if_false]
  rfl

end State.HoldsVictim

/-! ### Pending fills of class-K pages (R306) -/

/-- A tracker holds a class-K line, dirty, for which no way was eligible. -/
structure State.AwaitsWay (s : State) (p n : Nat) (sl : Slice) (t : Tracker) (d : Line) : Prop where
  slice : s.slice p = some sl
  tracker : s.tracker p n = some t
  acks : t.acks = [⟨.kFill true, false⟩]
  buf : t.buf = some d

/-- The fill that the tracker asks for. -/
def State.dirtyFill (s : State) (p : Nat) (sl : Slice) (t : Tracker) (d : Line) : CEff :=
  s.writeDirty p t.req.line d (t.nib.getD (s.nibNow 0b01)) t.poison (s.lineEnt sl t.req.line).kpin false t.ktag

/-- The tracker goes on from a fill that was made, and waits for the buddy's acknowledgement where an update was sent (R306, R313). -/
def Tracker.fillMade (u : Option Nat) (t : Tracker) : Tracker :=
  { t with
    acks := t.acks ++ (match u with | some u => [Ack.mk (.mirror u) false] | none => [])
    held := t.held.map fun h => if h.fill then { h with mirror := u, write := none } else h }

namespace State.AwaitsWay

variable {t : Tracker} {d : Line}

theorem find_kFill (a : s.AwaitsWay p n sl t d) :
    (t.acks.find? fun a => a.kind == .kFill true || a.kind == .kFill false) = some ⟨.kFill true, false⟩ := by
  rw [a.acks]
  rfl

theorem kpinFill_pending (a : s.AwaitsWay p n sl t d) (h : (s.dirtyFill p sl t d).pend = true) : s.kpinFill p n = s := by
  rw [State.dirtyFill] at h
  simp only [State.kpinFill, a.slice, a.tracker, a.find_kFill, a.buf, beq_self_eq_true, if_true, h, Bool.true_or]

theorem kpinFill_made (a : s.AwaitsWay p n sl t d) (h : (s.dirtyFill p sl t d).pend = false) (hw : (s.dirtyFill p sl t d).wid = none)
    (ho : (s.dirtyFill p sl t d).ops ≠ []) : s.kpinFill p n =
      let r := (s.dirtyFill p sl t d).s.mirSend p (s.dirtyFill p sl t d).ops
      (((r.1.modTrk p n (Tracker.fillMade r.2)).deliverAck p n ⟨.kFill true, false⟩).noteOcc p).settle p := by
  rw [State.dirtyFill] at h hw ho
  simp only [State.kpinFill, a.slice, a.tracker, a.find_kFill, a.buf, beq_self_eq_true, if_true, h, hw, List.isEmpty_eq_false_iff.mpr ho,
    Option.isSome_none, Bool.false_and, Bool.or_false, Bool.false_eq_true, if_false, ite_self, List.append_nil]
  rfl

end State.AwaitsWay

end Queues

/-- Settles O27: the oldest waiting entry of each queue, a victim by `State.HoldsVictim`, a pending fill by whether its way is found. -/
theorem linesLeaveForMemory : Obligations.LinesLeaveForMemory := by
  refine ⟨fun s p sl a b w hs hi hf he hq ha hw => ?_, fun s p b sl u r hs hb he hl => congrArg _ (State.mirrorUpdate_eq hs hb he hl),
    fun s p v n sl x t hs hi hf he => ⟨fun a b hvb hv hx others => ?_, fun d ht hacks hbuf => ?_⟩⟩
  · have oldest : (sl.msc.wpq.find? fun w => !w.issued) = some w :=
      List.find?_eq_some_iff_append.mpr ⟨by simp [hw], a, b, hq, fun y hy => by simp [ha y hy]⟩
    exact congrArg _ (State.wpqIssue_eq hs hi hf he oldest)
  · subst hv
    have victim : s.HoldsVictim p sl x := ⟨hs, hi, hf, he, hx, a, b, hvb, others⟩
    exact ⟨fun room hu => congrArg _ (victim.victimToWpq_room room hu), fun u room hu => congrArg _ (victim.victimToWpq_room room hu),
      fun full => congrArg _ (victim.victimToWpq_full full)⟩
  · have a : s.AwaitsWay p n sl t d := ⟨hs, ht, hacks, hbuf⟩
    exact ⟨fun h => congrArg _ (a.kpinFill_pending h), fun h hw ho => congrArg _ (a.kpinFill_made h hw ho)⟩

/-! ### Ways of the cache (R321, R322) -/

section Ways

variable {s t : State} {p w set : Nat} {sl : Slice}

/-- The way is out of use: disabled, retired, or being retired (R322). -/
def State.wayGone (s : State) (p : Nat) (sl : Slice) (w : Nat) : Bool :=
  s.mscDis p w || bitAt sl.msc.auto w || sl.msc.retiring.any fun r => r.1 == w

/-- A way whose errors have not reached the threshold stays (R321). -/
theorem State.wayRetire_below (hs : s.slice p = some sl) (h : (kget w sl.msc.wayErr).getD 0 < fieldN (s.slReg p 0x120) 24 8) :
    s.wayRetire p w = s := by
  simp [State.wayRetire, hs, h]

/-- A way in use whose errors have reached the threshold, in a live slice. -/
structure State.WayFails (s : State) (p : Nat) (sl : Slice) (w : Nat) : Prop where
  slice : s.slice p = some sl
  live : sl.live = true
  isWay : w < 16
  counted : fieldN (s.slReg p 0x120) 24 8 ≠ 0
  reached : fieldN (s.slReg p 0x120) 24 8 ≤ (kget w sl.msc.wayErr).getD 0
  used : s.wayGone p sl w = false

theorem State.WayFails.wayRetire_eq (a : s.WayFails p sl w) : s.wayRetire p w =
    if s.waysOn p sl ≤ clamp 4 16 (fieldN (s.slReg p 0x120) 8 8) then s.logEv 0x19 1 p w 0
    else s.modMsc p fun m => { m with retiring := m.retiring ++ [(w, 0, true)] } := by
  have used := a.used
  rw [State.wayGone] at used
  simp only [State.wayRetire, a.slice, a.live, used, a.isWay.not_ge, a.counted, a.reached.not_gt, Bool.not_true, decide_false,
    Bool.or_self, Bool.false_eq_true, if_false]

/-! ### The way-disable walk of the snoop filter (R540) -/

/-- The snoop filter's entries of a set in disabled ways. -/
def State.sfDisabled (s : State) (p set : Nat) (sl : Slice) : List (Nat × Entry) :=
  ((List.range 16).filter fun w => s.sfDis p w).filterMap fun w => (sl.sfAt set w).map fun e => (w, e)

theorem State.sfDisabled_eq_nil (h : ∀ w < 16, s.sfDis p w = true → sl.sfAt set w = none) : s.sfDisabled p set sl = [] := by
  refine List.filterMap_eq_nil_iff.mpr fun w hw => ?_
  obtain ⟨hw, hd⟩ := List.mem_filter.mp hw
  rw [h w (List.mem_range.mp hw) hd]
  rfl

theorem State.sfDisabled_eq_singleton {e : Entry} (hw : w < 16) (hd : s.sfDis p w = true) (he : sl.sfAt set w = some e)
    (others : ∀ v < 16, v ≠ w → s.sfDis p v = true → sl.sfAt set v = none) : s.sfDisabled p set sl = [(w, e)] := by
  have nodup : (s.sfDisabled p set sl).Nodup := by
    refine (List.nodup_range.filter _).filterMap fun v v' x hv hv' => ?_
    obtain ⟨_, _, rfl⟩ := Option.map_eq_some_iff.mp hv
    obtain ⟨_, _, hx⟩ := Option.map_eq_some_iff.mp hv'
    exact (congrArg Prod.fst hx).symm
  refine List.perm_singleton.mp ((List.perm_ext_iff_of_nodup nodup (List.nodup_singleton _)).mpr fun x => ?_)
  simp only [State.sfDisabled, List.mem_filterMap, List.mem_filter, List.mem_range, List.mem_singleton]
  constructor
  · rintro ⟨v, ⟨hv, hdv⟩, hx⟩
    by_cases hvw : v = w
    · subst hvw
      rw [he] at hx
      exact (Option.some.inj hx).symm
    · rw [others v hv hvw hdv] at hx
      cases hx
  · rintro rfl
    exact ⟨w, ⟨hw, hd⟩, by rw [he]; rfl⟩

/-- Entries that are not open are resolved as victims, each while a maintenance tracker is free. -/
def State.sfEvict (s : State) (p set : Nat) (l : List (Nat × Entry)) : State :=
  (l.filter fun x => !x.2.opn).foldl (fun s x =>
    match s.slice p with
    | some y => if y.poolFree .maint then s.evictEntry p (set * 16 + x.1) x.2 else s
    | none => s) s

theorem State.sfEvict_singleton {e : Entry} (hs : s.slice p = some sl) (ho : e.opn = false) (hf : sl.poolFree .maint = true) :
    s.sfEvict p set [(w, e)] = s.evictEntry p (set * 16 + w) e := by
  simp only [State.sfEvict, List.filter_cons, ho, Bool.not_false, if_true, List.filter_nil, List.foldl_cons, List.foldl_nil, hs, hf]

/-- The walk passes a set in which it leaves nothing: to the next one, to the next pass, or to its end. -/
def State.wdPast (s : State) (p set : Nat) (left : BitVec 16) (d : DirSt) : DirSt :=
  if set + 1 < 32768 then { d with wdSet := some (set + 1), wdLeft := left }
  else { d with wdSet := if left = 0 then none else some 0, wdLeft := 0,
                empty := d.empty ||| ((s.slReg p 0x024).extractLsb' 0 16 &&& ~~~left) }

/-- The walk's turn once its set has been seen to: it stays where an entry that is not open is left, else it passes the set. -/
def State.wdLeave (s t : State) (p set : Nat) (l : List (Nat × Entry)) : State :=
  match t.slice p with
  | none => t
  | some y =>
    let still := l.filter fun x => (y.sfAt set x.1).isSome
    if still.any fun x => !x.2.opn then t.settle p
    else (t.modSlice p fun x =>
      { x with dir := s.wdPast p set (still.foldl (fun b x => setBit b x.1 true) y.dir.wdLeft) x.dir }).settle p

theorem State.sfWalkTurn_eq (hs : s.slice p = some sl) (hl : sl.live = true) (hset : sl.dir.wdSet = some set) :
    s.sfWalkTurn p = s.wdLeave (s.sfEvict p set (s.sfDisabled p set sl)) p set (s.sfDisabled p set sl) := by
  simp only [State.sfWalkTurn, hs, hset, hl, Bool.not_true, Bool.false_eq_true, if_false]
  rfl

theorem State.wdLeave_of_gone {y : Slice} {l : List (Nat × Entry)} (hy : t.slice p = some y) (gone : ∀ x ∈ l, y.sfAt set x.1 = none) :
    s.wdLeave t p set l = (t.modSlice p fun x => { x with dir := s.wdPast p set y.dir.wdLeft x.dir }).settle p := by
  have still : (l.filter fun x => (y.sfAt set x.1).isSome) = [] :=
    List.filter_eq_nil_iff.mpr fun x hx => by simp [gone x hx]
  simp only [State.wdLeave, hy, still, List.any_nil, List.foldl_nil, Bool.false_eq_true, if_false]

/-- A set that is passed before the last, with what was left behind so far (R540). -/
theorem State.wdPast_next (h : set + 1 < 32768) (left : BitVec 16) (d : DirSt) :
    s.wdPast p set left d = { d with wdSet := some (set + 1), wdLeft := left } := if_pos h

/-- The last set, with nothing left behind: the disabled ways are empty (R540). -/
theorem State.wdPast_last (h : set + 1 = 32768) (d : DirSt) : s.wdPast p set 0 d =
    { d with wdSet := none, wdLeft := 0, empty := d.empty ||| (s.slReg p 0x024).extractLsb' 0 16 } := by
  have every (x : BitVec 16) : x &&& ~~~0 = x := BitVec.and_allOnes
  simp only [State.wdPast, h, lt_irrefl, if_false, if_true, every]

/-- The turn where no entry is left in a disabled way of the set: the walk passes it. -/
theorem State.sfWalkTurn_passes {y : Slice} {l : List (Nat × Entry)} {f : Slice → Slice} (hs : s.slice p = some sl)
    (hl : sl.live = true) (hset : sl.dir.wdSet = some set) (mine : s.sfDisabled p set sl = l) (seen : s.sfEvict p set l = t)
    (hy : t.slice p = some y) (gone : ∀ x ∈ l, y.sfAt set x.1 = none)
    (hf : { y with dir := s.wdPast p set y.dir.wdLeft y.dir } = f y) : s.sfWalkTurn p = (t.modSlice p f).settle p := by
  rw [State.sfWalkTurn_eq hs hl hset, mine, seen, State.wdLeave_of_gone hy gone]
  exact congrArg (State.settle · p) (State.modSlice_congr hy hf)

end Ways

/-- Settles O28: a way's retirement by its errors and the ways left, the walk by the entries of its set in disabled ways. -/
theorem waysRetireAndAreDisabled : Obligations.WaysRetireAndAreDisabled := by
  refine ⟨fun s p w sl hs hl hw => ?_, fun s p set sl hs hl hset => ⟨fun clear => ⟨fun hn => ?_, fun hn h0 => ?_⟩, ?_⟩⟩
  · refine ⟨fun hc hr hd ha hn => ?_, fun h => congrArg _ (State.wayRetire_below hs h), fun h => congrArg _ (if_pos h)⟩
    have used : s.wayGone p sl w = false := by simpa [State.wayGone, hd, ha] using hn
    have a : s.WayFails p sl w := ⟨hs, hl, hw, hc, hr, used⟩
    exact ⟨fun h => congrArg _ (a.wayRetire_eq.trans (if_neg h.not_ge)), fun h => congrArg _ (a.wayRetire_eq.trans (if_pos h))⟩
  · exact congrArg _ (State.sfWalkTurn_passes hs hl hset (State.sfDisabled_eq_nil clear) rfl hs nofun (by rw [State.wdPast_next hn]))
  · exact congrArg _ (State.sfWalkTurn_passes hs hl hset (State.sfDisabled_eq_nil clear) rfl hs nofun
      (by rw [h0, State.wdPast_last hn]))
  · intro w e y hw hd he ho others hf hn s1 hy gone
    exact congrArg _ (State.sfWalkTurn_passes hs hl hset (State.sfDisabled_eq_singleton hw hd he others)
      (State.sfEvict_singleton hs ho hf) hy (List.forall_mem_singleton.mpr gone) (by rw [State.wdPast_next hn]))

end Sys2Proof.Machine

/-! The responses of the tier engines (R304, R338 to R345, R557) and the command fields that clear counters (R463). -/

namespace Sys2Proof.Machine

open Sys2Proof

section EngineResponses

variable {s : State} {t : Nat} {st : BitVec 4} {m : Move}

/-- The state after a response: the CTAG is free, and a reserved status is logged (R556, R557). -/
def State.teAnswered (s : State) (t : Nat) (st : BitVec 4) : State := (s.teFree t).teStatus st

theorem State.onTe_eq {c : TeCmd} (ht : t < 256) (hc : s.teCmd t = some c) (f : TeCmd → State → State) :
    s.onTe t st f = f c (s.teAnswered t st) := by
  simp only [State.onTe, if_pos ht, hc]
  rfl

/-! ### What becomes of a move (R338, R340, R342, R345) -/

theorem State.promotionCopied_of_aborted (ha : m.aborted = true) : s.promotionCopied m st = s.abortMove m := by
  simp only [State.promotionCopied, ha, if_true]

/-- A promotion of a page without a slot is finished when its copy has been made without an error (R340). -/
theorem State.promotionCopied_of_good (ha : m.aborted = false) (hp : m.poisonAll = false) (he : s.entSlot (s.pageEnt m.page) = none) :
    s.promotionCopied m 0 =
      let e := s.pageEnt m.page
      let s2 := s.setEnt m.page { e with tier := 1, frame := s.frameField m.frame, game := s.gl.game, mig := false, cslot := 0 }
      let s3 := if e.dirty then s2.dirtyFrame m.frame else s2
      { s3 with dir := { s3.dir with corrupt := s3.dir.corrupt.filter (· != m.page) } }.endMove m := by
  simp only [State.promotionCopied, State.finishPromotion, ha, hp, he, Bool.false_eq_true, if_false]
  rfl

theorem State.compressed_of_aborted (ha : m.aborted = true) (len : Nat) :
    s.compressed m st len = (s.teSend (.discard m.ctag) .none).1.abortMove m := by
  simp only [State.compressed, ha, if_true]

/-- The length of a page's compressed form, as the director keeps it (R350). -/
def State.compSize (s : State) (pg : Page) (len : Nat) : State :=
  { s with dir := { s.dir with compSizes := (s.dir.compSizes.filter fun (x : Page × Nat) => x.1 != pg) ++ [(pg, len + 4)] } }

/-- A compressed page that fits a slot, of which one is free, is written to it (R345). -/
theorem State.compressed_of_slot {len k n : Nat} {s2 : State} (ha : m.aborted = false) (hk : slotFor len = some k)
    (hs : (s.compSize m.page len).takeSlot k m.page = some (n, s2)) : s.compressed m 0 len =
      let x := s2.teSend (.storeSlot m.ctag n (BitVec.ofNat 2 (k + 1))) .none
      x.1.modMove m.page fun y => { y with stage := .store, ctag := x.2, slot := some (BitVec.ofNat 2 (k + 1), n) } := by
  rw [State.compSize] at hs
  simp only [State.compressed, ha, hk, hs, Bool.false_eq_true, if_false, if_true]

theorem State.slotStored_of_good {cs : BitVec 2} {n f : Nat} (hm : m.slot = some (cs, n)) (hf : s.entFrame (s.pageEnt m.page) = some f)
    (ha : m.aborted = false) : s.slotStored m 0 =
      let e := s.pageEnt m.page
      let s2 := (s.setEnt m.page { e with tier := 2, frame := s.slotField n, cslot := cs, mig := false }).dropFrame f
      (if e.dirty then s2.dirtySlot n else s2).endMove m := by
  simp only [State.slotStored, hm, hf, ha, bne_self_eq_false, Bool.or_self, Bool.false_eq_true, if_false]

theorem State.demotedToPersist_of_good {f : Nat} (hf : s.entFrame (s.pageEnt m.page) = some f) (ha : m.aborted = false) :
    s.demotedToPersist m 0 = ((s.setEnt m.page { s.pageEnt m.page with tier := 0, frame := 0, dirty := false, mig := false }).dropFrame
      f).endMove m := by
  simp only [State.demotedToPersist, hf, ha, bne_self_eq_false, Bool.or_self, Bool.false_eq_true, if_false]

theorem State.evicted_of_good {n : Nat} (hn : s.entSlot (s.pageEnt m.page) = some n) (ha : m.aborted = false) :
    s.evicted m 0 = ((s.setEnt m.page { s.pageEnt m.page with tier := 0, frame := 0, cslot := 0, dirty := false, mig := false }).dropSlot
      n).endMove m := by
  simp only [State.evicted, hn, ha, bne_self_eq_false, Bool.false_eq_true, if_false]

/-! ### The response that each command awaits (R557) -/

/-- The command of a promotion: a copy of the persistent page, or a decompression of its slot. -/
def TeOp.promotes : TeOp → Prop
  | .copyToFrame .. => True
  | .decompToFrame .. => True
  | _ => False

theorem State.copyDone_of_move {op : TeOp} (ht : t < 256) (hc : s.teCmd t = some ⟨t, op, .none⟩) (ho : op.promotes)
    (hm : s.moveByTag t [.copy] = some m) : s.copyDone t st = (s.teAnswered t st).promotionCopied m st := by
  cases op with
  | copyToFrame | decompToFrame => simp only [State.copyDone, State.copyDone.promo, hc, hm, State.onTe_eq ht hc]
  | _ => exact ho.elim

theorem State.copyDone_of_none (hc : s.teCmd t = none) : s.copyDone t st = s := by
  simp only [State.copyDone, hc]

theorem State.compressDone_of_move {a : Nat} {b : BitVec 2} {c len : Nat} (ht : t < 256)
    (hc : s.teCmd t = some ⟨t, .compress a b c, .none⟩) (hm : s.moveByTag t [.compress] = some m) :
    s.compressDone t st len = (s.teAnswered t st).compressed m st len := by
  simp only [State.compressDone, hc, hm, State.onTe_eq ht hc]

theorem State.storeDone_of_move {a b : Nat} {c : BitVec 2} (ht : t < 256) (hc : s.teCmd t = some ⟨t, .storeSlot a b c, .none⟩)
    (hm : s.moveByTag t [.store] = some m) : s.storeDone t st = (s.teAnswered t st).slotStored m st := by
  simp only [State.storeDone, hc, hm, State.onTe_eq ht hc]

theorem State.persistDone_of_move {a b : Nat} (ht : t < 256) (hc : s.teCmd t = some ⟨t, .copyToPersist a b, .none⟩)
    (hm : s.moveByTag t [.persist] = some m) : s.persistDone t st = (s.teAnswered t st).demotedToPersist m st := by
  simp only [State.persistDone, hc, hm, State.onTe_eq ht hc]

theorem State.evictDone_of_move {a : Nat} {b : BitVec 2} {c : Nat} (ht : t < 256)
    (hc : s.teCmd t = some ⟨t, .decompToPersist a b c, .none⟩) (hm : s.moveByTag t [.persist] = some m) :
    s.evictDone t st = (s.teAnswered t st).evicted m st := by
  simp only [State.evictDone, hc, hm, State.onTe_eq ht hc]

/-- A flush that no move waits for any more ends with its response. -/
theorem State.flushAnswer_of_no_move {a : Nat} (ht : t < 256) (hc : s.teCmd t = some ⟨t, .flush a, .none⟩)
    (hm : (s.dir.moves.find? fun x => x.stage == .flush && x.len == t) = none) : s.flushAnswer t st = s.teAnswered t st := by
  have same : s.flushDone t = s := by simp only [State.flushDone, hm]
  simp only [State.flushAnswer, hc, same, State.onTe_eq ht hc]

/-- The demotion that a flush was for ends, its staging buffer discarded (R343). -/
theorem State.flushAnswer_of_move {a : Nat} (ht : t < 256) (hc : s.teCmd t = some ⟨t, .flush a, .none⟩)
    (hm : (s.dir.moves.find? fun x => x.stage == .flush && x.len == t) = some m)
    (hout : (((s.teSend (.discard m.ctag) .none).1.abortMove { m with slot := none }).teCmd t).isSome = true) : s.flushAnswer t st =
      ((s.teSend (.discard m.ctag) .none).1.abortMove { m with slot := none }).teAnswered t st := by
  have ended : s.flushDone t = (s.teSend (.discard m.ctag) .none).1.abortMove { m with slot := none } := by
    simp only [State.flushDone, hm]
  obtain ⟨c, outstanding⟩ := Option.isSome_iff_exists.mp hout
  simp only [State.flushAnswer, hc, ended, State.onTe_eq ht outstanding]

theorem State.offerDone_of_offer {a : LineAddr} {b : Line} (ht : t < 256) (hc : s.teCmd t = some ⟨t, .offerVictim a b, .none⟩) :
    s.offerDone t st = s.teAnswered t st := by
  simp only [State.offerDone, hc, State.onTe_eq ht hc]

theorem State.offerDone_of_none (hc : s.teCmd t = none) : s.offerDone t st = s := by
  simp only [State.offerDone, hc]

/-- After a response the director goes on with the hints and moves that wait. -/
theorem next_hintSettle_congr {a b : State} (h : a = b) :
    (Host.Outcome.next a.hintSettle : Host.Outcome State Fault Refusal) = .next b.hintSettle := by rw [h]

end EngineResponses

/-- Settles O37: each response by the command that awaits it, then by what becomes of the command's move. -/
theorem engineResponsesFinishTheirMove : Obligations.EngineResponsesFinishTheirMove := by
  intro s t st m len crc ht s1 e
  refine ⟨fun a b c d g cs hc hm => ?_, fun a b c hc hm => ⟨fun ha => ?_, fun k n s2 ha h0 hk hn => ?_⟩,
    fun a b c cs n f hc hm hslot hf ha h0 => ?_, fun a b f hc hm hf ha h0 => ?_, fun a b c n hc hm hn ha h0 => ?_,
    fun a hc hno => ?_, fun a hc hm hout => ?_, fun op hc => ?_, fun hc => ?_⟩
  · have copied : s.copyDone t st = (s.teAnswered t st).promotionCopied m st :=
      hc.elim (State.copyDone_of_move ht · trivial hm) (State.copyDone_of_move ht · trivial hm)
    refine ⟨fun ha => next_hintSettle_congr (copied.trans (State.promotionCopied_of_aborted ha)), fun ha h0 hp he => ?_⟩
    subst h0
    exact next_hintSettle_congr (copied.trans (State.promotionCopied_of_good ha hp he))
  · exact next_hintSettle_congr ((State.compressDone_of_move ht hc hm).trans (State.compressed_of_aborted ha len))
  · subst h0
    exact next_hintSettle_congr ((State.compressDone_of_move ht hc hm).trans (State.compressed_of_slot ha hk hn))
  · subst h0
    exact next_hintSettle_congr ((State.storeDone_of_move ht hc hm).trans (State.slotStored_of_good hslot hf ha))
  · subst h0
    exact next_hintSettle_congr ((State.persistDone_of_move ht hc hm).trans (State.demotedToPersist_of_good hf ha))
  · subst h0
    exact next_hintSettle_congr ((State.evictDone_of_move ht hc hm).trans (State.evicted_of_good hn ha))
  · have noMove : (s.dir.moves.find? fun x => x.stage == .flush && x.len == t) = none :=
      List.find?_eq_none.mpr fun x hx => by simpa [imp_iff_not_or] using hno x hx
    exact next_hintSettle_congr (State.flushAnswer_of_no_move ht hc noMove)
  · exact next_hintSettle_congr (State.flushAnswer_of_move ht hc hm hout)
  · rintro ⟨a, b, rfl⟩
    exact congrArg _ (State.offerDone_of_offer ht hc)
  · exact ⟨next_hintSettle_congr (State.copyDone_of_none hc), congrArg _ (State.offerDone_of_none hc)⟩

/-! ### Clearing a slice's counters (R463) -/

/-- A counter that has counted one event. -/
def Ctr48.one : Ctr48 := ⟨1, false, 0⟩

/-- A block in whose first slice nine counters have counted; a slice of the hardware has eight (13). -/
def State.nineCounters : State :=
  State.reset.modSlice 0 fun x => { x with obs := { x.obs with pmc := List.replicate 9 Ctr48.one } }

/-- CYC is bit 8 of SL_PMC_CLR, and bit 8 of what is written selects a ninth counter: it is cleared, though the data select none. -/
theorem slPmcClrCyc_nineCounters : ∃ t x, exec (.slPmcClrCyc 0 ⟨0, 15, true, true⟩) State.nineCounters = .next t ∧
    t.slice 0 = some x ∧ x.obs.pmc = List.replicate 8 Ctr48.one ++ [Ctr48.zero] := ⟨_, _, rfl, rfl, rfl⟩

/-- Refutes O52: in a slice with more than eight programmable counters, which the statement does not rule out, SL_PMC_CLR.CYC clears a
counter that the data do not select. -/
theorem not_directorFabricAndSliceCommandsAct : ¬ Obligations.DirectorFabricAndSliceCommandsAct := by
  intro h
  obtain ⟨-, -, -, -, -, slices⟩ := h State.nineCounters ⟨0, 15, true, true⟩ rfl rfl rfl
  obtain ⟨⟨t, x, run, here, -, unselected⟩, -⟩ := slices 0 _ rfl (by decide) rfl
  obtain ⟨t', x', run', here', cleared⟩ := slPmcClrCyc_nineCounters
  obtain rfl : t = t' := Host.Outcome.next.inj (run.symm.trans run')
  obtain rfl : x = x' := Option.some.inj (here.symm.trans here')
  exact absurd (unselected.symm.trans cleared) (by decide)

end Sys2Proof.Machine

/-! The placement director's dirty marks and cleaning (R332, R353, R354). -/

namespace Sys2Proof.Machine

open Sys2Proof

/-! ### Dirty marks (R353) -/

section Marks

variable {s : State} {p f : Nat} {pg : Page}

/-- No cleaning of a page is under way. -/
theorem notCleaning_iff : (s.dir.cleaning.any fun c => c.page == pg) = false ↔ ∀ c ∈ s.dir.cleaning, c.page ≠ pg := by
  simp only [List.any_eq_false, beq_iff_eq, ne_eq]

/-- The grant of a mark of a page in a frame. -/
theorem State.grantMark_of_frame (hf : s.entFrame (s.pageEnt pg) = some f) :
    s.grantMark p pg = ((s.setEnt pg { s.pageEnt pg with dirty := true }).dirtyFrame f).send (.markAck p pg) := by
  simp only [State.grantMark, hf]
  rfl

theorem State.takeMark_of_dirty (hd : (s.pageEnt pg).dirty = true) : s.takeMark p pg = s.send (.markAck p pg) := by
  simp only [State.takeMark, hd, if_true]
  rfl

/-- A page that is marked while it is being cleaned stays dirty, and still counts (R353). -/
theorem State.takeMark_of_cleaning (hd : (s.pageEnt pg).dirty = false) (hc : ∃ c ∈ s.dir.cleaning, c.page = pg) :
    s.takeMark p pg = (({ s with dir := { s.dir with cleaning := s.dir.cleaning.map fun (c : Cleaning) =>
      if c.page == pg then { c with remarked := true } else c } }).setEnt pg { s.pageEnt pg with dirty := true }).send (.markAck p pg) := by
  have cleaning : (s.dir.cleaning.any fun c => c.page == pg) = true := by simpa only [List.any_eq_true, beq_iff_eq] using hc
  simp only [State.takeMark, hd, cleaning, if_true, Bool.false_eq_true, if_false]
  rfl

theorem State.takeMark_of_room (hd : (s.pageEnt pg).dirty = false) (hc : ∀ c ∈ s.dir.cleaning, c.page ≠ pg)
    (hb : s.dir.d < s.budgetPages) (hm : s.dir.marks = []) : s.takeMark p pg = s.grantMark p pg := by
  simp [State.takeMark, hd, notCleaning_iff.mpr hc, hb, hm]

theorem State.takeMark_of_no_room (hd : (s.pageEnt pg).dirty = false) (hc : ∀ c ∈ s.dir.cleaning, c.page ≠ pg)
    (hb : s.budgetPages ≤ s.dir.d ∨ s.dir.marks ≠ []) :
    s.takeMark p pg = { s with dir := { s.dir with marks := s.dir.marks ++ [(p, pg)] } } := by
  have full : (decide (s.dir.d < s.budgetPages) && s.dir.marks.isEmpty) = false := by
    simpa [Decidable.imp_iff_not_or] using hb
  simp only [State.takeMark, hd, notCleaning_iff.mpr hc, full, Bool.false_eq_true, if_false]

/-- The oldest of the waiting marks, by whether its page has become dirty meanwhile and by the budget. -/
theorem State.releaseMark_eq {r : List (Nat × Page)} (hm : s.dir.marks = (p, pg) :: r) : s.releaseMark =
    let s1 : State := { s with dir := { s.dir with marks := r } }
    if (s.pageEnt pg).dirty then s1.send (.markAck p pg) else if s.dir.d < s.budgetPages then s1.grantMark p pg else s := by
  simp only [State.releaseMark, hm]
  rfl

end Marks

/-! ### A clean command at its slice (R354) -/

section CleanCommand

variable {s : State} {p : Nat} {pg : Page} {sl : Slice}

/-- The dirty lines of a page that a slice's array holds. -/
def Slice.dirtyLines (sl : Slice) (pg : Page) : List (Nat × CLine) := sl.msc.lines.filter fun x => x.2.dirty && pageOf x.2.line == pg

/-- The lines of a page that a slice's victim buffer holds and that the WPQ has not yet. -/
def Slice.pageVictims (sl : Slice) (pg : Page) : List VbEnt := sl.msc.vb.filter fun v => !v.inWpq && pageOf v.cl.line == pg

/-- The slice's cached copy of a page's entry is no longer dirty. -/
def Slice.pmClean (pg : Page) (x : Slice) : Slice :=
  { x with pm := x.pm.map fun z => if z.2.page == pg then (z.1, { z.2 with ent := { z.2.ent with dirty := false } }) else z }

/-- The slice once it has taken a clean command: its copy of the entry is clean, the page's lines are on their way to the WPQ. -/
def State.pageToWpq (s : State) (p : Nat) (pg : Page) (sl : Slice) : State :=
  (sl.pageVictims pg).foldl (fun s v => s.victimToWpq p v.num)
    ((sl.dirtyLines pg).foldl (fun s x => s.writeBack p x.1 x.2) ((s.takeMsg (.clean p pg)).modSlice p (Slice.pmClean pg)))

theorem State.cleanAt_of_full (hs : s.slice p = some sl)
    (hr : sl.wpqRoom < (sl.dirtyLines pg).length + (sl.pageVictims pg).length) : s.cleanAt p pg = s := by
  rw [Slice.dirtyLines, Slice.pageVictims] at hr
  simp only [State.cleanAt, hs, hr, decide_true, Bool.or_true, if_true]

theorem State.cleanAt_of_room (hs : s.slice p = some sl) (hl : sl.live = true) (hn : s.net.contains (.clean p pg) = true)
    (hr : (sl.dirtyLines pg).length + (sl.pageVictims pg).length ≤ sl.wpqRoom) {y : Slice} (hy : (s.pageToWpq p pg sl).slice p = some y) :
    s.cleanAt p pg = ((((s.pageToWpq p pg sl).modSlice p fun x => { x with quiesce := x.quiesce ++
      [(pg, (y.msc.wpq.filter fun w => pageOf w.line == pg).map fun w => w.wid, true)] }).quiesceKick p).noteOcc p).settle p := by
  have passes : (!sl.live || decide (sl.wpqRoom < (sl.dirtyLines pg).length + (sl.pageVictims pg).length)) = false := by
    simp [hl, hr]
  unfold State.cleanAt
  rw [hs]
  refine (if_neg (Bool.eq_false_iff.mp passes)).trans ((State.onMsg_eq hn _).trans ?_)
  dsimp only
  split
  case h_1 missing => exact absurd (hy.symm.trans missing) (Option.some_ne_none y)
  case h_2 z here =>
    obtain rfl : y = z := Option.some.inj (hy.symm.trans here)
    rfl

end CleanCommand

/-! ### Cleaning at the director (R354) -/

section Cleaning

variable {s : State} {p f t : Nat} {pg : Page} {c : Cleaning} {x : FrameEnt} {st : BitVec 4}

theorem State.rewriteCorrupt_beside (s : State) (pg : Page) : (s.rewriteCorrupt pg).besideDirector = s.besideDirector :=
  (State.setEnt_beside _ pg _).trans rfl

/-- Reading an entry touches the director's own parts alone (R332). -/
theorem State.readEnt_beside (s : State) (pg : Page) : (s.readEnt pg).besideDirector = s.besideDirector := by
  unfold State.readEnt
  split
  · exact State.rewriteCorrupt_beside s pg
  · rfl

/-- The home of a page does not depend on what the director keeps. -/
theorem State.homeSlice_congr {a b : State} (h : a.besideDirector = b.besideDirector) (pg : Page) : a.homeSlice pg = b.homeSlice pg :=
  congrArg (fun u : State => u.homeSlice pg) (a₁ := a.besideDirector) (a₂ := b.besideDirector) h

theorem State.readEnt_homeSlice (s : State) (q pg : Page) : (s.readEnt q).homeSlice pg = s.homeSlice pg :=
  State.homeSlice_congr (State.readEnt_beside s q) pg

/-- The dirty frames in the order in which they are cleaned: from the director's position on, wrapping. -/
def State.cleanOrder (s : State) : List Nat :=
  s.dir.dirtyFrames.filter (fun g => s.dir.cleanPos ≤ g) ++ s.dir.dirtyFrames.filter (fun g => g < s.dir.cleanPos)

/-- A marked frame may be taken for cleaning: it is to be freed (R332), or its page is neither in class K, nor being moved, nor being
cleaned. -/
def State.mayClean (s : State) (f : Nat) : Bool :=
  match kget f s.dir.frames with
  | some x => !s.frameOwned f x || (!(s.pageEnt x.page).kpin && (s.moveOf x.page).isNone && !(s.dir.cleaning.any fun c => c.page == x.page))
  | none => true

/-- The director may start to clean, and the one frame that its bitmap marks may be taken. -/
structure State.CleansNext (s : State) (f : Nat) (x : FrameEnt) : Prop where
  wanted : s.cleaningWanted = true
  openMoves : s.movesOpen = true
  idle : s.dir.cleaning = []
  moves : s.pdMoves ≠ 0
  marked : s.dir.dirtyFrames = [f]
  frame : kget f s.dir.frames = some x
  free : s.frameOwned f x = true → (s.pageEnt x.page).kpin = false ∧ s.moveOf x.page = none

theorem State.cleanOrder_of_single (h : s.dir.dirtyFrames = [f]) : s.cleanOrder = [f] := by
  rcases Nat.lt_or_ge f s.dir.cleanPos with before | fromHere
  · simp [State.cleanOrder, h, before, before.not_ge]
  · simp [State.cleanOrder, h, fromHere, fromHere.not_gt]

theorem State.CleansNext.mayClean (h : s.CleansNext f x) : s.mayClean f = true := by
  cases hown : s.frameOwned f x with
  | false => simp [State.mayClean, h.frame, hown]
  | true =>
    obtain ⟨notK, still⟩ := h.free hown
    simp [State.mayClean, h.frame, notK, still, h.idle]

theorem State.CleansNext.found (h : s.CleansNext f x) : s.cleanOrder.find? s.mayClean = some f := by
  rw [State.cleanOrder_of_single h.marked, List.find?_cons_of_pos h.mayClean]

/-- The block when the director has turned to a frame that is to be cleaned and has read its page's entry. -/
def State.cleanTurn (s : State) (f : Nat) (x : FrameEnt) : State :=
  ({ s with dir := { s.dir with cleaningOn := true, cleanPos := f + 1 } }).readEnt x.page

/-- The cleaning of a page in a frame begins: its entry loses DIRTY, its slice is told (R354). -/
def State.cleanPage (s : State) (p f : Nat) (pg : Page) : State :=
  (({ s with dir := { s.dir with cleaning := s.dir.cleaning ++ [⟨pg, f, false, 0, false⟩] } } : State).setEnt pg
    { s.pageEnt pg with dirty := false }).send (.clean p pg)

theorem State.cleanTurn_homeSlice (s : State) (pg : Page) : (s.cleanTurn f x).homeSlice pg = s.homeSlice pg :=
  (State.readEnt_homeSlice _ x.page pg).trans rfl

/-- The next frame to be cleaned: freed if the entry read does not point back (R332), else the cleaning of its page begins. -/
theorem State.CleansNext.startCleaning (h : s.CleansNext f x) :
    ((s.cleanTurn f x).frameOwned f x = false → s.startCleaning = (s.cleanTurn f x).dropFrame f) ∧
    ((s.cleanTurn f x).frameOwned f x = true → (s.cleanTurn f x).homeSlice x.page = some p →
      s.startCleaning = (s.cleanTurn f x).cleanPage p f x.page) := by
  have passes : ¬(!true || !s.movesOpen || decide (s.pdMoves ≤ s.dir.cleaning.length)) = true := by
    simp [h.openMoves, h.idle, h.moves]
  have turn : s.startCleaning = if !(s.cleanTurn f x).frameOwned f x then (s.cleanTurn f x).dropFrame f
      else match s.homeSlice x.page with
        | none => s.cleanTurn f x
        | some q => (s.cleanTurn f x).cleanPage q f x.page := by
    unfold State.startCleaning
    rw [h.wanted]
    refine (if_neg passes).trans ?_
    dsimp only
    split
    case h_1 missing => exact absurd (h.found.symm.trans missing) (Option.some_ne_none f)
    case h_2 g first =>
      obtain rfl : f = g := Option.some.inj (h.found.symm.trans first)
      split
      case h_1 missing => exact absurd (h.frame.symm.trans missing) (Option.some_ne_none x)
      case h_2 y here =>
        obtain rfl : x = y := Option.some.inj (h.frame.symm.trans here)
        rfl
  refine ⟨fun stray => ?_, fun own home => ?_⟩
  · rw [turn, stray]
    rfl
  · rw [State.cleanTurn_homeSlice] at home
    rw [turn, own, home]
    rfl

theorem State.takeCleanAck_eq (hc : s.dir.cleaning = [c]) (hp : c.page = pg) (hn : c.copying = false) : s.takeCleanAck pg =
    let r := s.teSend (.copyToPersist c.frame (s.persistNo pg)) .none
    { r.1 with dir := { r.1.dir with cleaning := r.1.dir.cleaning.map fun (x : Cleaning) =>
      if x.page == pg then { x with copying := true, ctag := r.2 } else x } } := by
  have awaited : (s.dir.cleaning.find? fun c => c.page == pg && !c.copying) = some c := by simp [hc, hp, hn]
  simp only [State.takeCleanAck, awaited]

/-- A command that takes over a CTAG waited under a number of its own: no cleaning under an issued CTAG is renamed (R556). -/
theorem State.teFree_cleaning (h : ∀ c ∈ s.dir.cleaning, c.ctag < 256) : (s.teFree t).dir.cleaning = s.dir.cleaning := by
  unfold State.teFree
  dsimp only
  split
  case h_2 => rfl
  case h_1 w first =>
    have waits : 256 ≤ w.ctag := by simpa using List.find?_some first
    refine (List.map_congr_left fun c hc => ?_).trans (List.map_id _)
    have other : c.ctag ≠ w.ctag := ((h c hc).trans_le waits).ne
    simp only [if_neg other, id]

theorem State.teStatus_dir (s : State) (st : BitVec 4) : (s.teStatus st).dir = s.dir := by
  unfold State.teStatus
  split <;> rfl

theorem State.teAnswered_cleaning (h : ∀ c ∈ s.dir.cleaning, c.ctag < 256) : (s.teAnswered t st).dir.cleaning = s.dir.cleaning := by
  rw [State.teAnswered, State.teStatus_dir, State.teFree_cleaning h]

/-- The response to the copy of a cleaned frame ends the cleaning that awaits it. -/
theorem State.cleanCopied_eq {n a : Nat} {u : PerUse} (ht : t < 256) (hte : s.teCmd t = some ⟨t, .copyToPersist n a, u⟩)
    (hc : s.dir.cleaning = [c]) (hn : c.copying = true) (hg : c.ctag = t) : s.cleanCopied t st = (s.teAnswered t st).cleaned c st := by
  have awaits : (s.dir.cleaning.find? fun c => c.copying && c.ctag == t) = some c := by simp [hc, hn, hg]
  simp only [State.cleanCopied, hte, awaits, State.onTe_eq ht hte]

/-- The director when no page is being cleaned any more. -/
def State.noCleaning (s : State) : State := { s with dir := { s.dir with cleaning := [] } }

/-- What the end of the only cleaning does, by the copy's status and by whether the page was marked meanwhile (R353, R354). -/
theorem State.cleaned_eq (hc : s.dir.cleaning = [c]) : s.cleaned c st =
    if st != 0 then ((if s.noCleaning.entBad c.page then s.noCleaning.rewriteCorrupt c.page
      else s.noCleaning.modEnt c.page fun e => { e with dirty := true }).logEv 0x14 1 srcDirector 0 (c.page.setWidth 64)).kick
    else if c.remarked then s.noCleaning.kick
    else { s.noCleaning with dir := { s.noCleaning.dir with
      dirtyFrames := s.dir.dirtyFrames.filter (· != c.frame), d := s.dir.d - 1 } }.kick := by
  have rest : (s.dir.cleaning.filter fun x => x.page != c.page) = [] := by simp [hc]
  unfold State.cleaned
  rw [rest]
  rfl

theorem State.cleaned_of_good (hc : s.dir.cleaning = [c]) (hr : c.remarked = false) : s.cleaned c 0 =
    { s.noCleaning with dir := { s.noCleaning.dir with
      dirtyFrames := s.dir.dirtyFrames.filter (· != c.frame), d := s.dir.d - 1 } }.kick := by
  rw [State.cleaned_eq hc, hr]
  rfl

theorem State.cleaned_of_remarked (hc : s.dir.cleaning = [c]) (hr : c.remarked = true) : s.cleaned c 0 = s.noCleaning.kick := by
  rw [State.cleaned_eq hc, hr]
  rfl

/-- After a copy that failed DIRTY is set again, in an entry that is not read corrupt. -/
theorem State.cleaned_of_failed (hc : s.dir.cleaning = [c]) (h0 : st ≠ 0) (hb : s.noCleaning.entBad c.page = false) : s.cleaned c st =
    ((s.noCleaning.modEnt c.page fun e => { e with dirty := true }).logEv 0x14 1 srcDirector 0 (c.page.setWidth 64)).kick := by
  rw [State.cleaned_eq hc, if_pos (bne_iff_ne.mpr h0), hb]
  rfl

theorem State.cleaned_of_corrupt (hc : s.dir.cleaning = [c]) (h0 : st ≠ 0) (hb : s.noCleaning.entBad c.page = true) : s.cleaned c st =
    ((s.noCleaning.rewriteCorrupt c.page).logEv 0x14 1 srcDirector 0 (c.page.setWidth 64)).kick := by
  rw [State.cleaned_eq hc, if_pos (bne_iff_ne.mpr h0), hb]
  rfl

end Cleaning

/-- Settles O34: a mark by the page's entry, the cleanings and the budget; then each step of a cleaning. -/
theorem dirtyMarksAndCleaning : Obligations.DirtyMarksAndCleaning := by
  refine ⟨fun s p f pg => ⟨fun hn => ?_, fun r hm => ?_⟩, fun s p f pg c => ⟨fun x hw ho hc hm hd hk hf => ?_,
    fun sl hs hl hn => ⟨fun hr y hy => ?_, fun hr => ?_⟩, fun hn hc hp hcp => ?_, fun t n a st ht hte hc hcp hg => ?_⟩⟩
  · have taken := State.onMsg_eq hn fun t => t.takeMark p pg
    refine ⟨fun hd => ?_, fun hd hc => ?_, fun hd hc hb hm hf => ?_, fun hd hc hb => ?_⟩
    · exact next_hintSettle_congr (taken.trans (State.takeMark_of_dirty hd))
    · exact next_hintSettle_congr (taken.trans (State.takeMark_of_cleaning hd hc))
    · exact next_hintSettle_congr (taken.trans
        ((State.takeMark_of_room (s := s.takeMsg (.mark p pg)) hd hc hb hm).trans (State.grantMark_of_frame hf)))
    · exact next_hintSettle_congr (taken.trans (State.takeMark_of_no_room hd hc hb))
  · have released := State.releaseMark_eq hm
    refine ⟨fun hd => ?_, fun hd hb hf => ?_, fun hd hb => ?_⟩
    · exact next_hintSettle_congr (released.trans (if_pos hd))
    · exact next_hintSettle_congr (released.trans
        ((if_neg (Bool.eq_false_iff.mp hd)).trans ((if_pos hb).trans (State.grantMark_of_frame hf))))
    · exact next_hintSettle_congr (released.trans ((if_neg (Bool.eq_false_iff.mp hd)).trans (if_neg hb.not_gt)))
  · obtain ⟨strayFrame, ownFrame⟩ := State.CleansNext.startCleaning (p := p) ⟨hw, ho, hc, hm, hd, hk, hf⟩
    exact ⟨fun stray => next_hintSettle_congr (strayFrame stray), fun own home => next_hintSettle_congr (ownFrame own home)⟩
  · exact congrArg _ (State.cleanAt_of_room hs hl hn hr hy)
  · exact congrArg _ (State.cleanAt_of_full hs hr)
  · exact next_hintSettle_congr ((State.onMsg_eq hn fun t => t.takeCleanAck pg).trans (State.takeCleanAck_eq hc hp hcp))
  · have issued : ∀ x ∈ s.dir.cleaning, x.ctag < 256 := by simpa [hc, hg] using ht
    have only : (s.teAnswered t st).dir.cleaning = [c] := (State.teAnswered_cleaning issued).trans hc
    have ended := State.cleanCopied_eq (st := st) ht hte hc hcp hg
    refine ⟨fun h0 hr => ?_, fun h0 hr => ?_, fun h0 hb => ?_, fun h0 hb => ?_⟩
    · subst h0
      exact next_hintSettle_congr (ended.trans (State.cleaned_of_good only hr))
    · subst h0
      exact next_hintSettle_congr (ended.trans (State.cleaned_of_remarked only hr))
    · exact next_hintSettle_congr (ended.trans (State.cleaned_of_failed only h0 hb))
    · exact next_hintSettle_congr (ended.trans (State.cleaned_of_corrupt only h0 hb))

end Sys2Proof.Machine

/-! The placement director's clocks, the game sweeper and the chunks of the page map (R149, R150, R332, R337, R349, R350). -/

namespace Sys2Proof.Machine

open Sys2Proof

/-! ### The demotion clock (R332, R349) -/

section DemotionClock

variable {s : State} {f : Nat} {x : FrameEnt} {rest : List (Nat × FrameEnt)}

/-- With the high mark of free frames reached, the demotion clock is off. -/
theorem State.demotionClock_off (hl : 4096 * s.pdFreeLow ≤ s.freeFrames) (hh : 4096 * s.pdFreeHigh ≤ s.freeFrames) :
    s.demotionClock = { s with dir := { s.dir with demOn := false } } := by
  simp only [State.demotionClock, if_neg hl.not_gt, if_pos hh, Bool.not_false, Bool.true_or, if_true]

/-- The demotion clock runs, and the next frame that it visits is `f`. -/
structure State.DemotionDue (s : State) (f : Nat) (x : FrameEnt) (rest : List (Nat × FrameEnt)) : Prop where
  low : s.freeFrames < 4096 * s.pdFreeLow
  openMoves : s.movesOpen = true
  next : rotateFrom s.dir.frames s.dir.demClock = (f, x) :: rest

/-- The block when the demotion clock has turned to a frame and has read its page's entry. -/
def State.demTurn (s : State) (f : Nat) (x : FrameEnt) : State :=
  ({ s with dir := { s.dir with demOn := true, demClock := f + 1 } }).readEnt x.page

/-- One visit of the demotion clock: an unowned frame is freed, a page is passed by, a warm one cooled, a cold one demoted as far as
moves have room. -/
theorem State.DemotionDue.demotionClock (h : s.DemotionDue f x rest) : s.demotionClock =
    if !(s.demTurn f x).frameOwned f x then (s.demTurn f x).dropFrame f
    else if (s.demTurn f x).clockSkips x then s.demTurn f x
    else if s.pdCold < x.heat.toNat then { s.demTurn f x with dir := { (s.demTurn f x).dir with
      frames := kset f ⟨x.page, x.heat >>> 1⟩ (s.demTurn f x).dir.frames } }
    else if s.moveRoom then (s.demTurn f x).startDemotion x.page false
    else { s with dir := { s.dir with demOn := true } } := by
  have passes : ¬(!true || !s.movesOpen) = true := by simp [h.openMoves]
  have first : (rotateFrom s.dir.frames s.dir.demClock).head? = some (f, x) := by rw [h.next, List.head?_cons]
  unfold State.demotionClock
  rw [if_pos h.low]
  refine (if_neg passes).trans ?_
  dsimp only
  rw [first]
  rfl

theorem State.DemotionDue.of_stray (h : s.DemotionDue f x rest) (stray : (s.demTurn f x).frameOwned f x = false) :
    s.demotionClock = (s.demTurn f x).dropFrame f := by
  rw [h.demotionClock, stray]
  rfl

theorem State.DemotionDue.of_skipped (h : s.DemotionDue f x rest) (own : (s.demTurn f x).frameOwned f x = true)
    (skip : (s.demTurn f x).clockSkips x = true) : s.demotionClock = s.demTurn f x := by
  rw [h.demotionClock, own, skip]
  rfl

theorem State.DemotionDue.of_warm (h : s.DemotionDue f x rest) (own : (s.demTurn f x).frameOwned f x = true)
    (go : (s.demTurn f x).clockSkips x = false) (warm : s.pdCold < x.heat.toNat) : s.demotionClock =
      { s.demTurn f x with dir := { (s.demTurn f x).dir with frames := kset f ⟨x.page, x.heat >>> 1⟩ (s.demTurn f x).dir.frames } } := by
  rw [h.demotionClock, own, go, if_pos warm]
  rfl

theorem State.DemotionDue.of_cold (h : s.DemotionDue f x rest) (own : (s.demTurn f x).frameOwned f x = true)
    (go : (s.demTurn f x).clockSkips x = false) (cold : x.heat.toNat ≤ s.pdCold) (room : s.moveRoom = true) :
    s.demotionClock = (s.demTurn f x).startDemotion x.page false := by
  rw [h.demotionClock, own, go, if_neg cold.not_gt, room]
  rfl

theorem State.startDemotion_of_home {p : Nat} {pg : Page} {forced : Bool} (hp : s.homeSlice pg = some p) :
    s.startDemotion pg forced = (s.newMove pg .demotion .quiesce [p] 0 forced).send (.migStart p pg .demotion) := by
  rw [State.startDemotion, hp]

end DemotionClock

/-! ### The eviction clock of a pool (R332, R350) -/

section EvictionClock

variable {s : State} {k n : Nat} {y : FrameEnt} {l : List (Nat × FrameEnt)}

theorem State.evictionClock_off (hl : 16777216 * s.pdCFreeLow ≤ s.freeSlots k * poolSlot k)
    (hh : 16777216 * s.pdCFreeHigh ≤ s.freeSlots k * poolSlot k) :
    s.evictionClock k = { s with dir := { s.dir with slotOn := s.dir.slotOn.set k false } } := by
  simp only [State.evictionClock, if_neg hl.not_gt, if_pos hh, Bool.not_false, Bool.true_or, if_true]

/-- The eviction clock of a pool runs; every used slot is owned, and the first that it comes to holds a clean page whose home is served
and that is not being moved. -/
structure State.EvictionDue (s : State) (k n : Nat) (y : FrameEnt) (l : List (Nat × FrameEnt)) : Prop where
  low : s.freeSlots k * poolSlot k < 16777216 * s.pdCFreeLow
  openMoves : s.movesOpen = true
  room : s.moveRoom = true
  next : rotateFrom (s.usedSlots k) (s.dir.slotClocks.getD k 0) = (n, y) :: l
  owned : ∀ z ∈ (n, y) :: l, s.slotOwned z.1 z.2 = true
  still : s.moveOf y.page = none
  served : (s.homeSlice y.page).isSome = true
  clean : (s.pageEnt y.page).dirty = false

/-- The slots that a pool's clock may evict, in its order: the page is not being moved and its home is served. -/
def State.evictable (s : State) (k : Nat) : List (Nat × FrameEnt) :=
  (rotateFrom (s.usedSlots k) (s.dir.slotClocks.getD k 0)).filter fun x => (s.moveOf x.2.page).isNone && (s.homeSlice x.2.page).isSome

/-- The slot that a pool's clock evicts: the first with a clean page, else the first (log 25). -/
def State.nextEvicted (s : State) (k : Nat) : Option (Nat × FrameEnt) :=
  match (s.evictable k).find? fun x => !(s.pageEnt x.2.page).dirty with
  | some x => some x
  | none => (s.evictable k).head?

theorem State.EvictionDue.no_stray (h : s.EvictionDue k n y l) :
    ((rotateFrom (s.usedSlots k) (s.dir.slotClocks.getD k 0)).find? fun x => !s.slotOwned x.1 x.2) = none := by
  rw [h.next, List.find?_eq_none]
  exact fun z hz => by simp [h.owned z hz]

theorem State.EvictionDue.nextEvicted (h : s.EvictionDue k n y l) : s.nextEvicted k = some (n, y) := by
  have head : s.evictable k = (n, y) :: l.filter fun x => (s.moveOf x.2.page).isNone && (s.homeSlice x.2.page).isSome := by
    rw [State.evictable, h.next, List.filter_cons_of_pos (by simp [h.still, h.served])]
  rw [State.nextEvicted, head, List.find?_cons_of_pos (by simp [h.clean])]

/-- The block when a pool's clock has turned to a slot and has read its page's entry. -/
def State.slotTurn (s : State) (k n : Nat) (y : FrameEnt) : State :=
  ({ s with dir := { s.dir with slotOn := s.dir.slotOn.set k true, slotClocks := s.dir.slotClocks.set k (n + 1) } }).readEnt y.page

theorem State.EvictionDue.evictionClock (h : s.EvictionDue k n y l) : s.evictionClock k =
    if (s.slotTurn k n y).slotOwned n y then (s.slotTurn k n y).startEviction n y.page else (s.slotTurn k n y).dropSlot n := by
  have passes : ¬(!true || !s.movesOpen) = true := by simp [h.openMoves]
  have turn : s.evictionClock k = if !(s.slotTurn k n y).slotOwned n y then (s.slotTurn k n y).dropSlot n
      else if s.moveRoom then (s.slotTurn k n y).startEviction n y.page
      else { s with dir := { s.dir with slotOn := s.dir.slotOn.set k true } } := by
    unfold State.evictionClock
    dsimp only
    rw [if_pos h.low]
    refine (if_neg passes).trans ?_
    split
    case h_1 z stray => exact absurd (h.no_stray.symm.trans stray) (Option.some_ne_none _).symm
    case h_2 =>
      split
      case h_1 m z next =>
        obtain ⟨rfl, rfl⟩ : n = m ∧ y = z := Prod.mk.inj (Option.some.inj (h.nextEvicted.symm.trans next))
        rfl
      case h_2 missing => exact absurd (h.nextEvicted.symm.trans missing) (Option.some_ne_none _)
  rw [turn, h.room]
  cases (s.slotTurn k n y).slotOwned n y <;> rfl

/-- Each of the three pools has a clock. -/
theorem execSlotEvictionClockStep_of_pool (hk : k < 3) (s : State) :
    execSlotEvictionClockStep k s = .next (s.evictionClock k).hintSettle := by
  rw [execSlotEvictionClockStep, if_pos hk]

end EvictionClock

/-! ### The game sweeper (R149, R150) -/

section Sweeper

variable {s : State}

theorem State.sweep_idle (h : s.pagesEnd = 0 ∨ s.dctl.sweepDue = false) : s.sweep = s :=
  if_pos (by simpa using h)

/-- A count by recursion, the last step outermost, is the fold over as many units. -/
theorem rec_eq_foldl_replicate {α : Type} (g : α → α) (n : Nat) (a : α) :
    (n.rec a fun _ b => g b : α) = (List.replicate n ()).foldl (fun b _ => g b) a := by
  induction n with
  | zero => rfl
  | succ n ih => rw [List.replicate_succ', List.foldl_append, ← ih]; rfl

theorem State.sweep_of_due (he : s.pagesEnd ≠ 0) (hd : s.dctl.sweepDue = true) : s.sweep =
    (List.replicate (if s.dctl.sweepFast then 4 * s.pdSweepRate else s.pdSweepRate) ()).foldl (fun (s : State) _ => s.sweepOne)
      { s with dctl := { s.dctl with sweepDue := false } } := by
  have passes : ¬(decide (s.pagesEnd = 0) || !s.dctl.sweepDue) = true := by simp [he, hd]
  exact (if_neg passes).trans (rec_eq_foldl_replicate State.sweepOne _ _)

end Sweeper

/-! ### Chunks of the page map (R337) -/

section Chunks

variable {s : State} {n : Nat} {pins : List (Page × BitVec 3)}

theorem State.chunkLoad_of_turn (hp : s.gl.phase = 4 ∨ s.gl.phase = 5) (hn : n < s.chunkCount) (hl : kget n s.dir.loaded = none)
    (ht : s.chunkTurn n = true) : s.chunkLoad n pins =
      ((s.loadChunk n pins).promotePinned (pins.filter fun x => chunkOf x.1 == n)).reconcile := by
  have phase : (s.gl.phase.toNat != 4 && s.gl.phase.toNat != 5) = false := by
    rcases hp with h | h <;> rw [h] <;> rfl
  simp [State.chunkLoad, phase, hl, hn, ht]

/-- The chunk's entries are those of a rebuild, its CLASSPINs those of the persistent copy. -/
theorem State.loadChunk_eq (hn : n < s.chunkCount) (hl : kget n s.dir.loaded = none) : s.loadChunk n pins = { s with dir := { s.dir with
    loaded := kset n (s.gl.game - 1) s.dir.loaded
    classPins := (pins.filter fun (x : Page × BitVec 3) => chunkOf x.1 == n && x.2 != 0).foldl
      (fun (l : List (Nat × BitVec 3)) (x : Page × BitVec 3) => kset x.1.toNat x.2 l) (s.dir.classPins.filter fun x => x.1 / 131072 != n)
    pages := s.dir.pages.filter fun x => x.1 / 131072 != n
    entErrs := s.dir.entErrs.filter fun p => chunkOf p != n } } := by
  have passes : ¬((kget n s.dir.loaded).isSome || decide (s.chunkCount ≤ n)) = true := by simp [hl, hn]
  exact if_neg passes

theorem State.chunkLoad_idle (h : (kget n s.dir.loaded).isSome = true ∨ s.chunkTurn n = false) : s.chunkLoad n pins = s := by
  have stays : ((kget n s.dir.loaded).isSome || decide (s.chunkCount ≤ n) || !s.chunkTurn n) = true := by
    rcases h with h | h <;> simp [h]
  unfold State.chunkLoad
  rw [if_pos stays, ite_self]

end Chunks

/-- Settles O36: each clock by its marks and by the entry it reads, the sweeper by whether it is due, a chunk by its turn. -/
theorem clocksSweeperAndChunks : Obligations.ClocksSweeperAndChunks := by
  refine ⟨fun s k f x rest => ⟨fun hl hh => ?_, fun hk hl hh => ?_, fun n y l hk hl ho hr hn hown hm hh hd => ?_, fun hl ho hn => ?_⟩,
    fun s n pins => ⟨fun h => ?_, fun he hd => ?_, fun hp hn hl ht => ?_, fun h => ?_⟩⟩
  · exact next_hintSettle_congr (State.demotionClock_off hl hh)
  · exact (execSlotEvictionClockStep_of_pool hk s).trans (next_hintSettle_congr (State.evictionClock_off hl hh))
  · exact (execSlotEvictionClockStep_of_pool hk s).trans
      (next_hintSettle_congr (State.EvictionDue.evictionClock ⟨hl, ho, hr, hn, hown, hm, hh, hd⟩))
  · have visit : s.DemotionDue f x rest := ⟨hl, ho, hn⟩
    refine ⟨fun stray => ?_, fun own skip => ?_, fun own go warm => ?_, fun h own go cold hr home => ?_⟩
    · exact next_hintSettle_congr (visit.of_stray stray)
    · exact next_hintSettle_congr (visit.of_skipped own skip)
    · exact next_hintSettle_congr (visit.of_warm own go warm)
    · exact next_hintSettle_congr ((visit.of_cold own go cold hr).trans (State.startDemotion_of_home home))
  · exact next_hintSettle_congr (State.sweep_idle h)
  · exact next_hintSettle_congr (State.sweep_of_due he hd)
  · have loaded := State.chunkLoad_of_turn (pins := pins) hp hn hl ht
    rw [State.loadChunk_eq hn hl] at loaded
    exact next_hintSettle_congr loaded
  · exact next_hintSettle_congr (State.chunkLoad_idle h)

end Sys2Proof.Machine

/-! Hint rings, pins and the page list's reads (R357, R361, R363, R499, R500). -/

namespace Sys2Proof.Machine

open Sys2Proof

section HintRings

variable {s : State} {r : Nat} {c : HintCtx} {l : Line} {pg : Page}

/-! ### Doorbells and polls (R363) -/

theorem State.addBell_eq (s : State) (r : Nat) : s.addBell r = { s with dctl := { s.dctl with
    bells := if s.dctl.bells.contains r then s.dctl.bells else s.dctl.bells ++ [r] } } := by
  unfold State.addBell
  split <;> rfl

theorem State.ringOn_of_lt (h : r < s.pdRings) : s.ringOn r = true := decide_eq_true h

theorem State.ringOn_of_le (h : s.pdRings ≤ r) : s.ringOn r = false := decide_eq_false h.not_gt

theorem State.ringPoll_of_not_due (h : s.dctl.pollDue = false) : s.ringPoll = s := by
  simp only [State.ringPoll, h, Bool.not_false, if_true]

theorem State.ringPoll_of_due (h : s.dctl.pollDue = true) : s.ringPoll = { s with dctl := { s.dctl with
    pollDue := false, bells := s.dctl.bells ++ (List.range s.pdRings).filter fun x => !s.dctl.bells.contains x } } := by
  simp only [State.ringPoll, h, Bool.not_true, Bool.false_eq_true, if_false]

/-! ### A ring slot that has been read (R361, R362) -/

/-- The only hint of the director waits for a slot of its ring, and the slot's line has come. -/
structure State.SlotRead (s : State) (r : Nat) (c : HintCtx) (l : Line) : Prop where
  only : s.dctl.ctxs = [c]
  ring : c.ring = r
  waits : c.stage = .readWait
  done : s.dctl.slotDone = [(ringTag r 0, some l)]

/-- The director when its only completed access is taken, its only hint in the given state, or gone. -/
def State.slotTaken (s : State) (x : Option HintCtx) : State := { s with dctl := { s.dctl with slotDone := [], ctxs := x.toList } }

theorem State.SlotRead.takeDone (h : s.SlotRead r c l) :
    s.takeDone (ringTag r 0) = some (some l, { s with dctl := { s.dctl with slotDone := [] } }) := by
  simp [State.takeDone, h.done, kget, kdel]

theorem State.SlotRead.hintSlot (h : s.SlotRead r c l) : s.hintSlot r =
    if !slotOwn l then s.slotTaken none
    else
      let c1 : HintCtx := { c with line := l, idx := 0, entry := 0, stage := .page }
      s.slotTaken (some (match slotRefused l (r < s.pdPrivRings) with | some st => c1.finish st | none => c1)) := by
  have waiting : (s.dctl.ctxs.find? fun c => c.ring == r && c.stage == .readWait) = some c := by
    simp [h.only, h.ring, h.waits]
  have put (x : Option HintCtx) : (s.dctl.ctxs.filterMap fun y => if y.ring == r then x else some y) = x.toList := by
    cases x <;> simp [h.only, h.ring]
  simp only [State.hintSlot, waiting, h.takeDone, put, Option.getD_some]
  rfl

theorem State.SlotRead.hintSlot_of_unowned (h : s.SlotRead r c l) (ho : slotOwn l = false) : s.hintSlot r = s.slotTaken none := by
  rw [h.hintSlot, ho]
  rfl

theorem State.SlotRead.hintSlot_of_owned (h : s.SlotRead r c l) (ho : slotOwn l = true)
    (hr : slotRefused l (decide (r < s.pdPrivRings)) = none) :
    s.hintSlot r = s.slotTaken (some { c with line := l, idx := 0, entry := 0, stage := .page }) := by
  rw [h.hintSlot, ho, hr]
  rfl

/-! ### Pins (R357) -/

/-- Without ring hints the end of a pin's writes concerns the page list alone. -/
theorem State.pinComplete_of_list (hw : s.pinWriting pg = false) (hs : s.stampsOut pg = false) (hc : s.dctl.ctxs = [])
    (hb : s.dctl.list.busy = true) (ho : s.dctl.list.op = 1) (hp : s.dctl.list.cur = some pg) (hg : s.dctl.list.stage = .pinWrite) :
    s.pinComplete pg = s.modList fun l => { l with stage := .pinned } := by
  simp [State.pinComplete, State.modList, hw, hs, hc, hb, ho, hp, hg]

end HintRings

/-! ### The page list's reads (R499, R500) -/

section ListReads

variable {s : State} {t u first : Nat}

/-- The entries of a line read for the page list, from an entry on and as far as the list goes. -/
def PList.keepLine (first : Nat) (d : Line) (l : PList) : PList :=
  { l with entries := (List.range 8).foldl (fun es i =>
      if first + i < l.count then kset (first + i) (d.extractLsb' (64 * i) 64) es else es) l.entries }

theorem State.listRead_eq (hr : s.dctl.list.reads = [(t, first, true)]) (d : Line) :
    s.listRead t [d] = (s.modList fun l => { l with reads := [] }).modList (PList.keepLine first d) := by
  have found : (s.dctl.list.reads.find? fun r => r.1 == t) = some (t, first, true) := by simp [hr]
  have rest : (s.dctl.list.reads.filter fun r => r.1 != t) = [] := by simp [hr]
  simp only [State.listRead, found, State.modList, rest]
  rfl

/-- A read that ends without data stops a list that nothing has stopped yet, after its current page. -/
theorem State.listReadError_eq (hr : s.dctl.list.reads = [(t, first, true)]) (hb : s.dctl.list.busy = true)
    (hs : s.dctl.list.stopping = none) : s.listReadError t = s.modList fun l => { l with reads := [], stopping := some 0x0B } := by
  have found : (s.dctl.list.reads.find? fun r => r.1 == t) = some (t, first, true) := by simp [hr]
  have rest : (s.dctl.list.reads.filter fun r => r.1 != t) = [] := by simp [hr]
  simp only [State.listReadError, found, State.listStop, State.modList, rest, hb, hs, if_true]

theorem State.masterError_of_list (hr : s.dctl.list.reads = [(t, first, true)]) : s.masterError t = s.listReadError t := by
  simp [State.masterError, hr]

theorem State.masterError_of_fetch {f : Fetch} (hr : s.dctl.list.reads = [(t, first, true)]) (hu : u ≠ t) (hf : s.ld.fetch = some f)
    (hg : f.tags.contains u = true) : s.masterError u = s.fetchEnd 5 := by
  have other : (s.dctl.list.reads.any fun r => r.1 == u) = false := by simp [hr, hu.symm]
  simp only [State.masterError, other, hf, hg, Bool.false_eq_true, if_false, if_true]

end ListReads

/-- Settles O39: a ring's doorbell by whether it is enabled, a slot by its OWN, and a read's end by whose read it was. -/
theorem hintRingsAndListReads : Obligations.HintRingsAndListReads := by
  refine ⟨fun s r => ⟨fun hn hr => ?_, fun hn hr => ?_, fun hd => ?_, fun hd => ?_,
      fun c l hc hr hw hd => ⟨fun ho => ?_, fun ho hf => ?_⟩, fun pg hw hs hc hb ho hp hg => ?_⟩,
    fun s t first d why hr hb => ⟨?_, fun hs => ?_, fun f u hu hf hg => ?_⟩⟩
  · have rung := State.onMsg_eq hn fun t => if t.ringOn r then t.addBell r else t
    exact next_hintSettle_congr (rung.trans ((if_pos (State.ringOn_of_lt hr)).trans (State.addBell_eq _ r)))
  · have rung := State.onMsg_eq hn fun t => if t.ringOn r then t.addBell r else t
    exact next_hintSettle_congr (rung.trans (if_neg (Bool.eq_false_iff.mp (State.ringOn_of_le hr))))
  · exact next_hintSettle_congr (State.ringPoll_of_not_due hd)
  · exact next_hintSettle_congr (State.ringPoll_of_due hd)
  · exact next_hintSettle_congr (State.SlotRead.hintSlot_of_unowned ⟨hc, hr, hw, hd⟩ ho)
  · exact next_hintSettle_congr (State.SlotRead.hintSlot_of_owned ⟨hc, hr, hw, hd⟩ ho hf)
  · exact next_hintSettle_congr (State.pinComplete_of_list hw hs hc hb ho hp hg)
  · exact next_hintSettle_congr (State.listRead_eq hr d)
  · exact next_hintSettle_congr ((State.masterError_of_list hr).trans (State.listReadError_eq hr hb hs))
  · exact next_hintSettle_congr (State.masterError_of_fetch hr hu hf hg)

end Sys2Proof.Machine

/-! The answers of the persistent tier: what they do in the restart and in the save (R384, R394, R396). -/

namespace Sys2Proof.Machine

open Sys2Proof

/-! ### Writes of the persistent tier (R384, R394) -/

section PersistentAnswers

variable {s : State} {t a : Nat} {st : BitVec 4} {ls : List Line} {ps : List PLine}

theorem State.writeAcked_of_good (ht : t < 256) (hc : s.teCmd t = some ⟨t, .persistWrite a ls, .rootWrite⟩) :
    s.writeAcked t 0 = (s.teAnswered t 0).rootWritten := by
  simp only [State.writeAcked, hc, State.onTe_eq ht hc, bne_self_eq_false, Bool.false_eq_true, if_false]

/-- A write that the tier could not make is sent again (log 33). -/
theorem State.writeAcked_of_failed {use : PerUse} (ht : t < 256) (hc : s.teCmd t = some ⟨t, .persistWrite a ls, use⟩) (h0 : st ≠ 0) :
    s.writeAcked t st = ((s.teAnswered t st).teSend (.persistWrite a ls) use).1 := by
  simp only [State.writeAcked, hc, State.onTe_eq ht hc, bne_iff_ne.mpr h0, if_true]

/-- One write of a root copy or of the manifest is counted off. -/
def State.writeCounted (s : State) : State := { s with root := { s.root with writes := s.root.writes - 1 } }

theorem State.rootWritten_of_more (h : s.writeCounted.root.writes ≠ 0) : s.rootWritten = s.writeCounted :=
  if_pos (bne_iff_ne.mpr h)

/-- With the last write of its copy the restart reads the manifest (R398; log 51). -/
theorem State.rootWritten_of_restart (h : s.writeCounted.root.writes = 0) (hs : s.root.stage = .writing) (hi : s.root.save = .idle) :
    s.rootWritten = s.writeCounted.readManifest.reconcile := by
  have zero : s.root.writes - 1 = 0 := h
  simp [State.rootWritten, State.writeCounted, zero, hs, hi]

theorem State.rootWritten_of_last (h : s.writeCounted.root.writes = 0) (hl : s.root.save = .last) :
    s.rootWritten = s.writeCounted.saveEnd := by
  have zero : s.root.writes - 1 = 0 := h
  simp [State.rootWritten, State.writeCounted, zero, hl]

/-- With the manifest written the save writes the copy that says it is in progress (R384 step 2). -/
theorem State.rootWritten_of_manifest (h : s.writeCounted.root.writes = 0) (hm : s.root.save = .manifest) : s.rootWritten =
    { s.writeCounted with root := { s.writeCounted.root with save := .inProgress } }.writeRoot 1 s.writeCounted.root.manifest.length 0 := by
  have zero : s.root.writes - 1 = 0 := h
  simp [State.rootWritten, State.saveNext, State.writeCounted, zero, hm]

/-! ### Reads of the persistent tier (R396) -/

theorem State.readReturned_of_header {n : Nat} {second : Bool} (ht : t < 256)
    (hc : s.teCmd t = some ⟨t, .persistRead a n, .rootHdr second⟩) :
    s.readReturned t st ps = (s.teAnswered t st).headerRead second st ps := by
  simp only [State.readReturned, hc, State.onTe_eq ht hc]

theorem State.readReturned_of_pins {n : Nat} {second : Bool} (ht : t < 256)
    (hc : s.teCmd t = some ⟨t, .persistRead a n, .rootPins second⟩) :
    s.readReturned t st ps = (s.teAnswered t st).pinsRead second st ps := by
  simp only [State.readReturned, hc, State.onTe_eq ht hc]

theorem State.headerRead_of_valid (second : Bool) (hi : intact st ps = true) (hl : (linesBytes (ps.map PLine.data)).length = 4096)
    (hv : headerValid (linesBytes (ps.map PLine.data)) = true) : s.headerRead second st ps =
      let c := RootCopy.parse (linesBytes (ps.map PLine.data))
      { s with root := { s.root with hdr := some c, pinLines := [] } }.readPins second c :=
  if_pos (by rw [hi, hl, hv]; rfl)

theorem State.headerRead_of_invalid (second : Bool)
    (h : intact st ps = false ∨ (linesBytes (ps.map PLine.data)).length ≠ 4096 ∨
      headerValid (linesBytes (ps.map PLine.data)) = false) : s.headerRead second st ps = s.copyRead second none := by
  refine if_neg ?_
  rw [Bool.and_eq_true, Bool.and_eq_true, beq_iff_eq]
  rintro ⟨⟨hi, hl⟩, hv⟩
  rcases h with h | h | h
  · exact Bool.false_ne_true (h.symm.trans hi)
  · exact h hl
  · exact Bool.false_ne_true (h.symm.trans hv)

theorem State.pinsRead_of_intact {c : RootCopy} (second : Bool) (hc : s.root.hdr = some c) (hi : intact st ps = true) (hn : ps ≠ []) :
    s.pinsRead second st ps =
      { s with root := { s.root with pinLines := s.root.pinLines ++ ps.map PLine.data } }.readPins second c := by
  simp only [State.pinsRead, hc, hi, List.isEmpty_eq_false_iff.mpr hn, Bool.not_false, Bool.and_self, if_true]

theorem State.pinsRead_of_broken {c : RootCopy} (second : Bool) (hc : s.root.hdr = some c) (h : intact st ps = false ∨ ps = []) :
    s.pinsRead second st ps = s.copyRead second none := by
  have broken : (intact st ps && !ps.isEmpty) = false := by
    rcases h with h | rfl
    · rw [h, Bool.false_and]
    · exact Bool.and_false _
  simp only [State.pinsRead, hc, broken, Bool.false_eq_true, if_false]

/-! ### Pages of the save (R384) -/

theorem State.saveDone_of_page {x z i : Nat} {y : BitVec 2} (ht : t < 256) (hc : s.teCmd t = some ⟨t, .savePage x y z false, .save i⟩) :
    s.saveDone t st = (s.teAnswered t st).pageSaved i st (s.teAnswered t st).eg.causes.shutdown false := by
  simp only [State.saveDone, hc, State.onTe_eq ht hc]

/-- A page that could not be saved is poisoned and logged. -/
def State.saveLogged (s : State) (pg : Page) (st : BitVec 4) : State :=
  if st = 0 then s else (s.poisonPage pg 9).logEv 0x14 1 srcDirector 0 (pg.setWidth 64)

/-- The pages saved without a gap once page `i` is. -/
def State.savedThrough (s : State) (i : Nat) : Nat := leading (s.root.acked.length + 1) (i :: s.root.acked) s.root.progress

/-- Page `i` counts as saved. -/
def State.pageCounted (s : State) (i : Nat) : State :=
  { s with root := { s.root with acked := (i :: s.root.acked).filter fun n => s.savedThrough i ≤ n, progress := s.savedThrough i } }

theorem State.pageSaved_eq {i : Nat} {pg : Page} (hp : s.root.manifest[i]? = some pg) (shutdown : Bool) :
    s.pageSaved i st shutdown false =
      let s2 := s.saveLogged pg st
      let s3 := s2.pageCounted i
      if s2.savedThrough i = s3.root.manifest.length then s3.saveNext shutdown
      else if s2.root.progress / 1048576 < s2.savedThrough i / 1048576 then
        (s3.writeRoot 1 s3.root.manifest.length (s2.savedThrough i)).sendSaves 256
      else s3.sendSaves 256 := by
  simp only [State.pageSaved, hp, Bool.false_and, Bool.false_eq_true, if_false]
  rfl

/-- With every page saved the save goes on. -/
theorem State.pageSaved_last {i : Nat} {pg : Page} (hp : s.root.manifest[i]? = some pg) (shutdown : Bool)
    (hk : (s.saveLogged pg st).savedThrough i = ((s.saveLogged pg st).pageCounted i).root.manifest.length) :
    s.pageSaved i st shutdown false = ((s.saveLogged pg st).pageCounted i).saveNext shutdown :=
  (State.pageSaved_eq hp shutdown).trans (if_pos hk)

/-- Within a block of 1,048,576 pages the next are sent. -/
theorem State.pageSaved_more {i : Nat} {pg : Page} (hp : s.root.manifest[i]? = some pg) (shutdown : Bool)
    (hk : (s.saveLogged pg st).savedThrough i ≠ ((s.saveLogged pg st).pageCounted i).root.manifest.length)
    (hb : (s.saveLogged pg st).root.progress / 1048576 = (s.saveLogged pg st).savedThrough i / 1048576) :
    s.pageSaved i st shutdown false = ((s.saveLogged pg st).pageCounted i).sendSaves 256 :=
  (State.pageSaved_eq hp shutdown).trans ((if_neg hk).trans (if_neg hb.not_lt))

end PersistentAnswers

/-- Settles O38: each answer by the command that awaits it, then by what it brings: the last write or not, a valid header or not, pins or
not, the last page or not. -/
theorem persistentAnswersDriveRestartAndSave : Obligations.PersistentAnswersDriveRestartAndSave := by
  intro s t a st ls ps ht s1
  refine ⟨fun hc h0 => ?_, fun use hc h0 => next_hintSettle_congr (State.writeAcked_of_failed ht hc h0), fun n second hc => ?_,
    fun n second c hc hh => ?_, fun x y z i pg hc hp => ?_⟩
  · subst h0
    have acked : s.writeAcked t 0 = s1.rootWritten := State.writeAcked_of_good ht hc
    exact ⟨fun h => next_hintSettle_congr (acked.trans (State.rootWritten_of_more h)),
      fun h hs hi => next_hintSettle_congr (acked.trans (State.rootWritten_of_restart h hs hi)),
      fun h hl => next_hintSettle_congr (acked.trans (State.rootWritten_of_last h hl)),
      fun h hm => next_hintSettle_congr (acked.trans (State.rootWritten_of_manifest h hm))⟩
  · have read : s.readReturned t st ps = s1.headerRead second st ps := State.readReturned_of_header ht hc
    exact ⟨fun hi hl hv => congrArg _ (read.trans (State.headerRead_of_valid second hi hl hv)),
      fun h => congrArg _ (read.trans (State.headerRead_of_invalid second h))⟩
  · have read : s.readReturned t st ps = s1.pinsRead second st ps := State.readReturned_of_pins ht hc
    exact ⟨fun hi hn => congrArg _ (read.trans (State.pinsRead_of_intact second hh hi hn)),
      fun h => congrArg _ (read.trans (State.pinsRead_of_broken second hh h))⟩
  · have saved : s.saveDone t st = s1.pageSaved i st s1.eg.causes.shutdown false := State.saveDone_of_page ht hc
    exact ⟨fun hk => congrArg _ (saved.trans (State.pageSaved_last hp _ hk)),
      fun hk hb => congrArg _ (saved.trans (State.pageSaved_more hp _ hk hb))⟩

end Sys2Proof.Machine

/-! The Endgame unit: the feed, the channels, the ride and the allowance (R367, R370, R377, R387, R388), and the GPF phases (R390, R391,
R562). -/

namespace Sys2Proof.Machine

open Sys2Proof

/-! ### The allowance (R388) -/

section Allowance

variable {s : State} {a : Nat}

theorem State.allowTake_of_less (h : a < s.eg.allow) : s.allowTake a = { s with eg := { s.eg with allow := a, riseRun := 0 } } := by
  simp only [State.allowTake, h, if_true]

/-- The least of the run of greater computations that the one at hand ends. -/
def State.leastRise (s : State) (a : Nat) : Nat := if s.eg.riseRun = 0 then a else min a s.eg.riseMin

/-- A greater computation that does not make the run a hundred long is counted. -/
theorem State.allowTake_counts (h : s.eg.allow < a) (hr : s.eg.riseRun + 1 < 100) :
    s.allowTake a = { s with eg := { s.eg with riseRun := s.eg.riseRun + 1, riseMin := s.leastRise a } } := by
  simp only [State.allowTake, h.not_gt, h.ne', hr.not_ge, if_false, State.leastRise]

/-- The hundredth greater computation in a row raises the allowance to the least of them. -/
theorem State.allowTake_rises (h : s.eg.allow < a) (hr : s.eg.riseRun = 99) :
    s.allowTake a = { s with eg := { s.eg with allow := s.leastRise a, riseRun := 0 } } := by
  simp only [State.allowTake, h.not_gt, h.ne', hr, if_false, State.leastRise]
  rfl

/-- `t` is reached from `s` by a run of greater computations that is too short to raise the allowance. -/
structure State.RisenBy (s : State) (l : List Nat) (t : State) : Prop where
  allow : t.eg.allow = s.eg.allow
  riseRun : t.eg.riseRun = l.length
  least : l ≠ [] → IsLeast {x | x ∈ l} t.eg.riseMin

/-- What a run's next computation leaves as the run's least is the least of the run with it. -/
theorem State.RisenBy.leastRise {l : List Nat} {t : State} (h : s.RisenBy l t) (a : Nat) :
    IsLeast {x | x ∈ l ++ [a]} (t.leastRise a) := by
  rw [State.leastRise, h.riseRun]
  rcases eq_or_ne l [] with rfl | hl
  · simp
  · have both : {x | x ∈ l ++ [a]} = insert a {x | x ∈ l} := by ext x; simp [or_comm]
    rw [if_neg (by simpa using hl), both]
    exact (h.least hl).insert a

theorem State.risenBy_foldl (l : List Nat) (h0 : s.eg.riseRun = 0) (hl : ∀ x ∈ l, s.eg.allow < x) (hn : l.length < 100) :
    s.RisenBy l (l.foldl State.allowTake s) := by
  induction l using List.reverseRecOn with
  | nil => exact ⟨rfl, h0, fun h => absurd rfl h⟩
  | append_singleton l a ih =>
    rw [List.length_append] at hn
    have run := ih (fun x hx => hl x (List.mem_append_left _ hx)) (by omega)
    have greater : (l.foldl State.allowTake s).eg.allow < a := run.allow.trans_lt (hl a (by simp))
    have short : (l.foldl State.allowTake s).eg.riseRun + 1 < 100 := by rw [run.riseRun]; exact hn
    rw [List.foldl_append, List.foldl_cons, List.foldl_nil, State.allowTake_counts greater short]
    exact ⟨run.allow, by rw [List.length_append, ← run.riseRun]; rfl, fun _ => run.leastRise a⟩

end Allowance

/-- Settles O47: a run of computations above the allowance, as log 38 reads R388, only counts up to the ninety-ninth
(`State.risenBy_foldl`); the hundredth raises the allowance to the least of them. -/
theorem theAllowanceFallsAtOnceAndRisesSlowly : Obligations.TheAllowanceFallsAtOnceAndRisesSlowly := by
  refine fun s a => ⟨fun h => congrArg State.eg (State.allowTake_of_less h), fun l h0 hl => ⟨fun hn => ?_, fun m hn hm least => ?_⟩⟩
  · have run := State.risenBy_foldl l h0 hl hn
    exact ⟨run.allow, run.riseRun⟩
  · obtain ⟨k, b, rfl⟩ : ∃ k b, l = k ++ [b] := by
      rcases List.eq_nil_or_concat' l with rfl | h
      · cases hn
      · exact h
    rw [List.length_append, List.length_singleton] at hn
    have run := State.risenBy_foldl k h0 (fun x hx => hl x (List.mem_append_left _ hx)) (by omega)
    have greater : (k.foldl State.allowTake s).eg.allow < b := run.allow.trans_lt (hl b (by simp))
    have rises := State.allowTake_rises greater (run.riseRun.trans (by omega))
    rw [List.foldl_append, List.foldl_cons, List.foldl_nil, rises]
    exact ⟨(run.leastRise b).unique ⟨hm, least⟩, rfl⟩

/-! ### The feed, the channels and the ride (R367, R370, R377, R387) -/

section Endgame

variable {s : State} {n c : Nat} {i : EgInputs} {k : BitVec 12}

theorem State.egRuns_of_reset (h : s.pins.egPor = false) (f : State → State) : s.egRuns f = s :=
  if_neg (Bool.eq_false_iff.mp h)

theorem State.egRuns_of_running (h : s.pins.egPor = true) (f : State → State) : s.egRuns f = f s := if_pos h

/-- From NORMAL or RIDE a drain cause enters DRAIN (R377). -/
theorem State.drainCause_enters (h : s.eg.pstate = .normal ∨ s.eg.pstate = .ride) (n : Nat) : s.drainCause n = s.enterDrain n := by
  rcases h with h | h <;> simp only [State.drainCause, h]

theorem State.egWake_of_on (h : s.eg.pstate ≠ .off) (n : Nat) : s.egWake n = s :=
  if_neg (by simp [h])

/-- In NORMAL a change of inputs that are all defined is taken as it is, and the feed is judged by it (R367, R376). -/
theorem State.egInputs_of_normal (hn : s.eg.pstate = .normal) (hi : i.sel ≠ 3) :
    s.egInputs i = ({ s with eg := { s.eg with inp := i } }).egSettle := by
  have defined : (i.sel == 3) = false := beq_false_of_ne hi
  have awake : s.egWake 0 = s := State.egWake_of_on (by simp [hn]) 0
  simp only [State.egInputs, defined, awake, ite_self, Bool.false_eq_true, if_false]

theorem State.feedGood_of_pins (h : feedPins s.eg.inp = false) : s.feedGood = false := by
  rw [State.feedGood, h, Bool.false_and]

theorem State.egHotter_uncalibrated (h : s.eg.calLoaded = false) (n : Nat) : s.egHotter n = false := by
  simp only [State.egHotter, h, Bool.false_and]

theorem feedPins_of_fault (h : i.efuseFlt = true) : feedPins i = false := by
  simp [feedPins, h]

/-- A feed lost in NORMAL, with no eFuse fault and no temperature to act on, goes to RIDE (R377). -/
theorem State.egSettle_rides (hn : s.eg.pstate = .normal) (hf : s.eg.inp.efuseFlt = false) (hp : feedPins s.eg.inp = false)
    (hc : s.eg.calLoaded = false) : s.egSettle = { s with eg := { s.eg with
      good := false, pstate := .ride, frozen := true, ints := setBit s.eg.ints 3 true } } := by
  simp [State.egSettle, State.feedGood_of_pins hp, State.egHotter_uncalibrated, State.egInt, hn, hf, hc]

/-- An eFuse fault in NORMAL drains (R377). -/
theorem State.egSettle_drains (hn : s.eg.pstate = .normal) (hf : s.eg.inp.efuseFlt = true) :
    s.egSettle = ({ s with eg := { s.eg with good := false } }).enterDrain 0 := by
  simp [State.egSettle, State.feedGood_of_pins (feedPins_of_fault hf), hn, hf]

theorem State.adcTurn_of_other (h : 8 ≤ c ∨ c ≠ s.eg.adcNext) : s.adcTurn c k = s := by
  refine if_neg ?_
  rw [Bool.and_eq_true, decide_eq_true_eq, decide_eq_true_eq]
  omega

/-- A channel from which no state of the unit follows takes its sample, and the next channel's turn comes (R370). -/
theorem State.adcTurn_takes (h : c = s.eg.adcNext) (hc : c = 0 ∨ c = 1 ∨ c = 4 ∨ c = 5) :
    s.adcTurn c k = { s with eg := { s.eg with
      adcNext := (c + 1) % 8
      chans := s.eg.chans.modify c fun x => x.take (s.egFilt c) (trimCode ((s.pins.trim[c]?).getD 0) k.toNat) } } := by
  have turn : (decide (c < 8) && decide (c = s.eg.adcNext)) = true := by
    rw [Bool.and_eq_true, decide_eq_true_eq, decide_eq_true_eq]
    omega
  rw [State.adcTurn, if_pos turn]
  rcases hc with rfl | rfl | rfl | rfl <;> rfl

theorem State.allowCompute_of_idle (h : s.eg.pstate ≠ .normal ∨ s.eg.calLoaded = false) : s.allowCompute = s := by
  refine if_pos ?_
  rcases h with h | h <;> simp [h]

theorem State.allowCompute_of_normal (hn : s.eg.pstate = .normal) (hc : s.eg.calLoaded = true) (hf : s.eg.frozen = false)
    (hs : s.eg.sensor = false) : s.allowCompute = (s.allowTake s.allowNow).checkBudget.checkShrunk := by
  simp [State.allowCompute, hn, hc, hf, hs]

theorem State.debounced_starts (hd : s.eg.pstate = .debounce) (hg : s.eg.good = true) :
    s.debounced = { s with eg := { s.eg with pstate := .start, pg := true } } :=
  if_pos (by rw [hd, hg]; rfl)

theorem State.rideEnds_of_ride (h : s.eg.pstate = .ride) : s.rideEnds = s.enterDrain 2 :=
  (if_pos (beq_iff_eq.mpr h)).trans (State.drainCause_enters (.inr h) 2)

theorem State.rideEnds_of_no_ride (h : s.eg.pstate ≠ .ride) : s.rideEnds = s := if_neg (mt beq_iff_eq.mp h)

theorem State.rideRecovers_of_no_ride (h : s.eg.pstate ≠ .ride) : s.rideRecovers = s :=
  if_neg (by rw [beq_false_of_ne h]; exact Bool.false_ne_true)

theorem State.rideRecovers_of_good (h : s.eg.pstate = .ride) (hg : s.eg.good = true) :
    s.rideRecovers = ({ s with eg := { s.eg with pstate := .normal, frozen := false } }).logEv 0x32 0 srcEndgame 0 0 :=
  if_pos (by rw [h, hg]; rfl)

end Endgame

/-- Settles O46: each input and timer of the Endgame unit by the unit's state, a sample by the channel whose turn it is. -/
theorem theEndgameUnitFollowsTheFeed : Obligations.TheEndgameUnitFollowsTheFeed := by
  intro s i c k
  let changed : State := { s with eg := { s.eg with inp := i } }
  have settles (h : s.pins.egPor = true) (hn : s.eg.pstate = .normal) (hi : i.sel ≠ 3) :
      (s.egRuns fun s => s.egInputs i) = changed.egSettle := (State.egRuns_of_running h _).trans (State.egInputs_of_normal hn hi)
  refine ⟨fun h => ⟨congrArg _ (State.egRuns_of_reset h _), congrArg _ (State.egRuns_of_reset h _)⟩, fun h hn hi hf hp hc => ?_,
    fun h hn hi hf => ?_, fun h ho => ?_, fun h hc hk => ?_, fun h => congrArg _ (State.allowCompute_of_idle h),
    fun hn hc hf hs => congrArg Host.Outcome.next (State.allowCompute_of_normal hn hc hf hs),
    fun hd hg => congrArg _ (State.debounced_starts hd hg),
    fun h => congrArg _ (State.rideEnds_of_ride h),
    fun h => ⟨congrArg _ (State.rideEnds_of_no_ride h), congrArg _ (State.rideRecovers_of_no_ride h)⟩,
    fun h hg => congrArg _ (State.rideRecovers_of_good h hg)⟩
  · exact congrArg _ ((settles h hn hi).trans (State.egSettle_rides (s := changed) hn hf hp hc))
  · exact congrArg _ ((settles h hn hi).trans (State.egSettle_drains (s := changed) hn hf))
  · exact congrArg _ ((State.egRuns_of_running h _).trans (State.adcTurn_of_other ho))
  · exact congrArg _ ((State.egRuns_of_running h _).trans (State.adcTurn_takes hc hk))

/-! ### The GPF phases (R390, R391, R562) -/

/-- Bit i of a list of truth values as a number is the list's i-th. -/
theorem testBit_bitsOf (l : List Bool) (i : Nat) : (bitsOf l).testBit i = l.getD i false := by
  induction l generalizing i with
  | nil => simp [bitsOf]
  | cons b l ih =>
    cases i with
    | zero => cases b <;> simp [bitsOf, n1, Nat.testBit_zero]
    | succ i =>
      have low : n1 b < 2 := by cases b <;> decide
      have rest : bitsOf (b :: l) / 2 = bitsOf l := by rw [bitsOf]; omega
      rw [Nat.testBit_succ, rest, ih, List.getD_cons_succ]

theorem bitAt_ofNat_bitsOf {w g : Nat} (f : Nat → Bool) (h : g < w) : bitAt (BitVec.ofNat w (bitsOf ((List.range w).map f))) g = f g := by
  rw [bitAt, BitVec.getLsbD_ofNat, testBit_bitsOf]
  simp [h]

section Gpf

variable {s : State} {p : Nat} {a : AgentPort}

/-- A phase requested during an entry to P2 waits for the entry's end (R562). -/
theorem State.gpf_of_entering (h : s.pwr.phase = .entering) (n : Nat) :
    s.gpf n = { s with pwr := { s.pwr with gpfLater := s.pwr.gpfLater ++ [n] } } := if_pos (beq_iff_eq.mpr h)

theorem State.gpf_one (h : s.pwr.phase ≠ .entering) : s.gpf 1 = s.gpfOne := if_neg (mt beq_iff_eq.mp h)

theorem State.gpf_two (h : s.pwr.phase ≠ .entering) : s.gpf 2 = s.gpfTwo := if_neg (mt beq_iff_eq.mp h)

/-- Phase 1 presents Flush to an agent: its port is there, it is enabled and caching, and it answers (R390). -/
def State.flushes (s : State) (p : Nat) (a : AgentPort) (g : Nat) : Bool :=
  decide (p < s.variant.agents) && s.agentOn p g && s.agentCaching p g && !bitAt a.silent g

theorem State.gpfOne_agentPort (ha : s.agentPort p = some a) : s.gpfOne.agentPort p =
    some { a with flush := BitVec.ofNat 4 (bitsOf ((List.range 4).map (s.flushes p a))) } := by
  have here : s.agentPorts[p]? = some a := ha
  simp only [State.agentPort, State.gpfOne, List.getElem?_mapIdx, here, Option.map_some]
  rfl

/-- A port whose Flush is answered and that holds nothing lets phase 1 end; with all of them so it is acknowledged. -/
theorem State.gpfOneDone_acks (hg : s.pwr.gpf1 = true) (h : ∀ a ∈ s.agentPorts, a.flush = 0 ∧ a.held = []) :
    s.gpfOneDone = { s with pwr := { s.pwr with gpf1Ack := true } } := by
  refine if_pos (Bool.and_eq_true_iff.mpr ⟨hg, List.all_eq_true.mpr fun a ha => ?_⟩)
  obtain ⟨answered, empty⟩ := h a ha
  simp [answered, empty]

theorem State.gpfOneDone_waits (ha : a ∈ s.agentPorts) (h : a.flush ≠ 0) : s.gpfOneDone = s := by
  refine if_neg fun done => ?_
  have clear := List.all_eq_true.mp (Bool.and_eq_true_iff.mp done).2 a ha
  exact h (by simpa using (Bool.and_eq_true_iff.mp clear).1)

theorem State.gpfTwo_drains (h : s.eg.pstate = .normal) :
    s.gpfTwo = ({ s with pwr := { s.pwr with gpf2 := true, gpf2Ack := false } }).enterDrain 5 :=
  State.drainCause_enters (s := { s with pwr := { s.pwr with gpf2 := true, gpf2Ack := false } }) (.inl h) 5

end Gpf

/-- Settles O48: a phase by whether an entry to P2 is under way; the Flush of an agent is its bit of the port's. -/
theorem gpfFlushesThenDrains : Obligations.GpfFlushesThenDrains := by
  intro s
  refine ⟨fun h => ⟨congrArg _ (State.gpf_of_entering h 1), congrArg _ (State.gpf_of_entering h 2)⟩, fun h => ?_,
    fun hg ha => congrArg _ (State.gpfOneDone_acks hg ha), fun a ha h => congrArg _ (State.gpfOneDone_waits ha h),
    fun h hn => congrArg _ ((State.gpf_two h).trans (State.gpfTwo_drains hn))⟩
  exact ⟨s.gpfOne, congrArg _ (State.gpf_one h), rfl, fun p a ha =>
    ⟨_, State.gpfOne_agentPort ha, fun g hg => bitAt_ofNat_bitsOf (s.flushes p a) hg⟩⟩

end Sys2Proof.Machine

/-! The command fields of the loader and of the Endgame unit (R397, R478 to R485). -/

namespace Sys2Proof.Machine

open Sys2Proof

/-! ### A write that is a command (R509, R517) -/

/-- A whole write by a privileged and secure master of a register that stores nothing and is no slice's is its command (R509, R517). -/
theorem State.writeAt_command_of_privileged {s : State} {w : RegAcc} {o : Nat} (ho : o = 0x10010 ∨ o = 0x10014 ∨ o = 0x20004)
    (hw : w.be = 15) (hp : w.priv = true) (hs : w.sec = true) :
    s.writeAt o w = ({ s with pins := { s.pins with regUr := false } }).regCommand o w.data := by
  have defined : s.defined o = true := by
    rcases ho with rfl | rfl | rfl <;> simp [State.defined, State.report, State.ldReport, State.egReport]
  have noField (v : Variant) : regDef v o = none := by rcases ho with rfl | rfl | rfl <;> rfl
  have noSlice : sliceOfOff o = none := by rcases ho with rfl | rfl | rfl <;> rfl
  have noEvt : isEvtData o = false := by rcases ho with rfl | rfl | rfl <;> rfl
  have whole : w.data &&& writeMask o w = w.data := by
    rw [writeMask, hw, hp, hs, show beMask 15 = BitVec.allOnes 32 from rfl, Bool.and_self, if_pos rfl, BitVec.and_self, BitVec.and_allOnes]
  rw [State.writeAt_eq (by omega) defined]
  simp only [State.offIsolated, noSlice, noEvt, hp, hs, State.touchSlice, State.baseWrite, noField, whole, Bool.and_self, Bool.not_true,
    Bool.and_false, Bool.or_self, Bool.false_eq_true, if_false]

/-! ### What each command does (R397, R478 to R485) -/

section LoaderCommands

variable {s : State}

/-- A fetch that may begin begins with the header's 256 bytes, into the slot not in force (R485). -/
theorem State.startFetch_begins (hf : s.ld.fetch = none) (ha : s.ld.armed = false) (hl : s.ld.state = .loaded)
    (ht : s.ld.sfdp.isSome = true) (hp : s.pwr.phase = .p0) (hm : s.pins.mstEn = true) : s.startFetch =
      { s with ld := { s.ld with result := 1, pages := 0, fetch := some ⟨.header, !s.ld.slotB, [], s.fetchTags 4⟩ } } := by
  have tables : s.ld.sfdp.isNone = false := Option.isNone_eq_false_iff.mpr ht
  simp [State.startFetch, State.fetchRead, State.fetchTags, hf, ha, hl, tables, hp, hm]

/-- The root of trust accepts the slot that waits for it at start-up (R478). -/
theorem State.rotDecide_accepts (hs : s.ld.state = .rot) (hl : s.ld.reload = none) :
    s.rotDecide true = { s with ld := { s.ld with state := .loading, accepted := true } } := by
  simp [State.rotDecide, hs, hl]

/-- A slot that the root of trust rejects is logged; with another slot to try the loading goes on with it (R476, R478). -/
theorem State.rotDecide_rejects {b : Bool} {q : W32} {r : List (Bool × W32)} (hs : s.ld.state = .rot) (hl : s.ld.reload = none)
    (h : s.ld.toTry = (b, q) :: r) (hr : r ≠ []) : s.rotDecide false = { s with
      ev := (s.slotRejected b 0xFE).ev
      ld := { s.ld with state := .loading, toTry := r, second := true, accepted := false,
                        digestValid := s.ld.digestValid && r.isEmpty, aFailed := s.ld.aFailed || !b, bFailed := s.ld.bFailed || b } } := by
  simp [State.rotDecide, State.slotFailed, State.slotRejected, State.logEv, hs, hl, h, hr]

/-! Each field of LD_CMD, LD_ROT and EG_CTL alone (R397, R478, R481, R483, R485). -/

theorem State.ldCmd_fetch : s.ldCmd 0x80000000 = s.startFetch := rfl

theorem State.ldCmd_armReload (h : s.ld.fetch = none) : s.ldCmd 0x40000000 = { s with ld := { s.ld with armed := true } } :=
  if_neg (Bool.eq_false_iff.mp (Option.isSome_eq_false_iff.mpr (Option.isNone_iff_eq_none.mpr h)))

theorem State.ldCmd_disarm : s.ldCmd 0x20000000 = { s with ld := { s.ld with armed := false } } := rfl

theorem State.ldCmd_retry (h : s.ld.state = .noImage) : s.ldCmd 0x10000000 =
    { s with ld := { s.ld with state := .loading }, gl := { s.gl with phase := if s.testsDone then 3 else 1 } } :=
  if_pos (beq_iff_eq.mpr h)

theorem State.ldRot_accept : s.ldRot 0x80000000 = s.rotDecide true := rfl

theorem State.ldRot_reject : s.ldRot 0x40000000 = s.rotDecide false := rfl

theorem State.egCtl_shutdown : s.egCtl 0x80000000 = s.drainCause 4 := rfl

theorem State.egCtl_acceptLoss : s.egCtl 0x40000000 = s.acceptLoss := rfl

/-! A held restart goes on (R397). -/

theorem State.acceptLoss_of_not_held (h : s.root.held = false) : s.acceptLoss = s := by
  simp only [State.acceptLoss, h, Bool.not_false, if_true]

theorem State.acceptLoss_of_copy (h : s.root.held = true) (hb : s.root.rootBad = false) : s.acceptLoss = s.writeRunning := by
  simp only [State.acceptLoss, h, hb, Bool.not_true, Bool.false_eq_true, if_false]

/-- Without a good root copy the restart goes on from a fresh record. -/
theorem State.acceptLoss_of_no_copy (h : s.root.held = true) (hb : s.root.rootBad = true) : s.acceptLoss = ({ s with
      gl := { s.gl with game := 0 }
      dctl := { s.dctl with sweepPage := 0, sweepGame := 0, sweepIncs := 0, sweepFast := false }
      root := { s.root with seq := 0, nextSecond := false, repin := [], sent := 0, progress := 0 } } : State).writeRunning := by
  simp only [State.acceptLoss, h, hb, Bool.not_true, Bool.false_eq_true, if_false, if_true]

end LoaderCommands

/-- Settles O51: a write with one command field set is that command on the state without the refusal flag; then each command's cases. -/
theorem loaderAndEndgameCommandsAct : Obligations.LoaderAndEndgameCommandsAct := by
  intro s w hw hp hs h0 s1
  have command {o : Nat} (ho : o = 0x10010 ∨ o = 0x10014 ∨ o = 0x20004) (m : W32) :
      s.writeAt o (withBits w m) = s1.regCommand o m := by
    have only : (withBits w m).data = m := by rw [withBits, h0]; exact BitVec.zero_or
    exact (State.writeAt_command_of_privileged (w := withBits w m) ho hw hp hs).trans (by rw [only])
  have ldCmd (m : W32) : s.writeAt 0x10010 (withBits w m) = s1.ldCmd m := command (.inl rfl) m
  have ldRot (m : W32) : s.writeAt 0x10014 (withBits w m) = s1.ldRot m := command (.inr (.inl rfl)) m
  have egCtl (m : W32) : s.writeAt 0x20004 (withBits w m) = s1.egCtl m := command (.inr (.inr rfl)) m
  have fetch := (ldCmd _).trans State.ldCmd_fetch
  have accept := (ldRot _).trans State.ldRot_accept
  have reject := (ldRot _).trans State.ldRot_reject
  have shutdown := (egCtl _).trans State.egCtl_shutdown
  have acceptLoss := (egCtl _).trans State.egCtl_acceptLoss
  refine ⟨fun hf ha hl ht hp hm => congrArg _ (fetch.trans (State.startFetch_begins hf ha hl ht hp hm)),
    fun h => congrArg _ ((ldCmd _).trans (State.ldCmd_armReload h)), congrArg _ ((ldCmd _).trans State.ldCmd_disarm),
    fun h => congrArg _ ((ldCmd _).trans (State.ldCmd_retry h)),
    fun hs hl => ⟨congrArg _ (accept.trans (State.rotDecide_accepts hs hl)), fun sb q r hq hr => ?_⟩,
    fun h => congrArg _ (shutdown.trans (State.drainCause_enters (s := s1) (.inl h) 4)),
    fun h hb => congrArg _ (acceptLoss.trans (State.acceptLoss_of_copy h hb)),
    fun h hb => congrArg _ (acceptLoss.trans (State.acceptLoss_of_no_copy h hb)),
    fun h => congrArg _ (acceptLoss.trans (State.acceptLoss_of_not_held h))⟩
  exact ⟨_, congrArg Host.Outcome.next (reject.trans (State.rotDecide_rejects hs hl hq hr)), rfl, rfl, rfl, rfl⟩

end Sys2Proof.Machine

/-! The queue: a step takes its front command (log 3). -/

namespace Sys2Proof.Machine

open Sys2Proof

/-- Settles O1: by the queue's front. -/
theorem aStepRunsTheFrontCommand : Obligations.AStepRunsTheFrontCommand :=
  ⟨fun _ _ _ h => step_of_pending_cons h, fun _ h => step_of_pending_nil h⟩

end Sys2Proof.Machine

/-! The register port: accesses that are refused (R492, R509, R517), writes of stored fields (R509, R513), reads with effects (R454, R461,
R463, R509, R518, R538), the expansion ROM window and the atomic aperture (R494, R497). -/

namespace Sys2Proof.Machine

open Sys2Proof

/-! ### Undefined and refused accesses (R492, R517) -/

section Refused

variable {s : State} {off : BitVec 27} {w : RegAcc} {r : RegRd} {o : Nat}

theorem State.regWrite_undefined (h : 4 ≤ off.toNat / 0x1000000 ∨ s.defined (off.toNat % 0x1000000) = false ∨
    (off.toNat / 0x1000000 ≠ 0 ∧ s.aliasOk (off.toNat % 0x1000000) = false)) : s.regWrite off w = s.ur := by
  refine if_pos ?_
  rcases h with h | h | ⟨hv, ha⟩
  · simp [h]
  · simp [h]
  · simp [hv, ha]

theorem State.regRead_undefined (hb : r.be ≠ 0) (h : 5 ≤ off.toNat / 0x1000000 ∨ s.defined (off.toNat % 0x1000000) = false) :
    s.regRead off r = s.ur := by
  refine (if_neg hb).trans (if_pos ?_)
  rcases h with h | h <;> simp [h]

theorem State.regRead_of_no_byte (h : r.be = 0) : s.regRead off r = s.answer 0 := if_pos h

/-- The commands of the loader and of the Endgame unit do nothing with no field set. -/
theorem State.regCommand_of_no_field (ho : o = 0x10010 ∨ o = 0x10014 ∨ o = 0x20004) : s.regCommand o 0 = s := by
  rcases ho with rfl | rfl | rfl <;> rfl

/-- A write of a register of GS fields alone by another master is counted and touches nothing (R517). -/
theorem State.writeAt_guarded (ho : o = 0x10010 ∨ o = 0x10014 ∨ o = 0x20004) (h : w.priv = false ∨ w.sec = false) :
    s.writeAt o w = ({ s with pins := { s.pins with regUr := false } }).guarded true (BitVec.ofNat 27 o) := by
  have defined : s.defined o = true := by
    rcases ho with rfl | rfl | rfl <;> simp [State.defined, State.report, State.ldReport, State.egReport]
  have noField (v : Variant) : regDef v o = none := by rcases ho with rfl | rfl | rfl <;> rfl
  have noSlice : sliceOfOff o = none := by rcases ho with rfl | rfl | rfl <;> rfl
  have noEvt : isEvtData o = false := by rcases ho with rfl | rfl | rfl <;> rfl
  have gs : gsBits o = BitVec.allOnes 32 := by rcases ho with rfl | rfl | rfl <;> rfl
  have other : (w.priv && w.sec) = false := by rcases h with h | h <;> simp [h]
  have nothing : w.data &&& writeMask o w = 0 := by simp [writeMask, gs, other]
  rw [State.writeAt_eq (by omega) defined]
  simp only [State.offIsolated, noSlice, noEvt, gs, other, State.touchSlice, State.baseWrite, noField, nothing, Bool.or_self,
    Bool.false_eq_true, if_false]
  exact State.regCommand_of_no_field ho

end Refused

/-- Settles O53: an undefined access is UR, a read of no byte answers 0; a command by another master is a guarded write. -/
theorem refusedAccessesTouchNothing : Obligations.RefusedAccessesTouchNothing := by
  refine ⟨fun s off w r => ⟨fun h => ?_, fun hb h => ?_, fun hb => ?_⟩, fun s w _ h => ?_⟩
  · have ur : s.regWrite off w = s.ur := State.regWrite_undefined h
    simp only [List.forall_mem_cons]
    exact ⟨congrArg _ ur, congrArg _ ur, List.forall_mem_nil _⟩
  · have ur : s.regRead off r = s.ur := State.regRead_undefined hb h
    simp only [List.forall_mem_cons]
    exact ⟨congrArg _ ur, congrArg _ ur, congrArg _ ur, List.forall_mem_nil _⟩
  · have zero : s.regRead off r = s.answer 0 := State.regRead_of_no_byte hb
    simp only [List.forall_mem_cons]
    exact ⟨congrArg _ zero, congrArg _ zero, congrArg _ zero, List.forall_mem_nil _⟩
  · have ldCmd (m : W32) := State.writeAt_guarded (s := s) (w := withBits w m) (.inl rfl) h
    have ldRot (m : W32) := State.writeAt_guarded (s := s) (w := withBits w m) (.inr (.inl rfl)) h
    have egCtl (m : W32) := State.writeAt_guarded (s := s) (w := withBits w m) (.inr (.inr rfl)) h
    simp only [List.forall_mem_cons]
    exact ⟨congrArg _ (ldCmd _), congrArg _ (ldCmd _), congrArg _ (ldCmd _), congrArg _ (ldCmd _), congrArg _ (ldRot _),
      congrArg _ (ldRot _), congrArg _ (egCtl _), congrArg _ (egCtl _), List.forall_mem_nil _⟩

/-! ### Writes of fields that a commit brings into force (R509, R513) -/

/-- What a write in a view makes of a register's word: the base view gives it the enabled bytes, aliases 1, 2 and 3 set, clear and
toggle the bits of the data. -/
def viewWord (view : Nat) (old m v : W32) : W32 :=
  if view = 0 then (old &&& ~~~m) ||| v else if view = 1 then old ||| v else if view = 2 then old &&& ~~~v else old ^^^ v

section Stored

variable {s : State} {w : RegAcc} {d : RegDef} {o view : Nat}

/-- A register whose fields all await a commit holds what is written; nothing comes into force. -/
theorem State.store_of_rwb (hrw : d.rw = 0) (hgs : d.gs = 0) (v : W32) :
    s.store o d v = { s with regs := { s.regs with base := kset o (v &&& d.rwb) s.regs.base } } := by
  have fields : d.rw ||| d.rwb ||| d.gs = d.rwb := by simp [hrw, hgs]
  have now : d.rw ||| d.gs = 0 := by simp [hrw, hgs]
  simp only [State.store, fields, now, if_true]

theorem writeMask_of_no_gs (h : gsBits o = 0) (w : RegAcc) : writeMask o w = beMask w.be := by
  rw [writeMask, h, show ~~~(0 : W32) = BitVec.allOnes 32 from rfl, ite_self, BitVec.and_allOnes]

theorem State.regCommand_of_no_command (ho : o < 0x50000)
    (hc : o ∉ [0x008, 0x014, 0x10010, 0x10014, 0x20004, 0x3002C, 0x30048]) (m : W32) : s.regCommand o m = s := by
  have noSlice : sliceOfOff o = none := if_neg (by simp only [slBase]; omega)
  simp only [List.mem_cons, List.not_mem_nil, or_false, not_or] at hc
  obtain ⟨h1, h2, h3, h4, h5, h6, h7⟩ := hc
  have noFabric : o ≠ 0x50000 := by omega
  have noProbe : ¬ 0x50100 ≤ o := by omega
  simp only [State.regCommand, h1, h2, h3, h4, h5, h6, h7, noFabric, noProbe, noSlice, decide_false, Bool.false_and, Bool.false_eq_true,
    if_false]

/-- A write in any view of a register that has no command, no GS field and no slice stores the view's word. -/
theorem State.regWrite_stores (ho : o < 0x50000) (hv : view < 4) (hd : s.defined o = true) (hr : regDef s.variant o = some d)
    (hrw : d.rw = 0) (hdgs : d.gs = 0) (hgs : gsBits o = 0) (hc : o ∉ [0x008, 0x014, 0x10010, 0x10014, 0x20004, 0x3002C, 0x30048])
    (hm : w.data &&& beMask w.be ≠ 0) : s.regWrite (BitVec.ofNat 27 (0x1000000 * view + o)) w = { s with
      regs := { s.regs with base := kset o (viewWord view (s.baseReg o) (beMask w.be) (w.data &&& beMask w.be) &&& d.rwb) s.regs.base }
      pins := { s.pins with regUr := false } } := by
  have off : (BitVec.ofNat 27 (0x1000000 * view + o)).toNat = 0x1000000 * view + o := by rw [BitVec.toNat_ofNat]; omega
  have low : (0x1000000 * view + o) % 0x1000000 = o := by omega
  have high : (0x1000000 * view + o) / 0x1000000 = view := by omega
  have mayAlias : s.aliasOk o = true := by simp [State.aliasOk, hr]
  have noSlice : sliceOfOff o = none := if_neg (by simp only [slBase]; omega)
  have noEvt : isEvtData o = false := by simp [isEvtData]; omega
  have noReset : o ≠ 0x3002C := fun e => hc (by simp [e])
  have anyByte : beMask w.be ≠ 0 := fun e => hm (by rw [e]; exact BitVec.and_zero)
  simp only [State.regWrite, off, low, high, hd, mayAlias, State.offIsolated, noSlice, noEvt, hgs, State.touchSlice, not_le.mpr hv,
    State.baseWrite, State.aliasWrite, writeMask_of_no_gs hgs, hr, noReset, anyByte, hm, State.store_of_rwb hrw hdgs,
    State.regCommand_of_no_command ho hc, decide_false, Bool.false_and, Bool.and_false, Bool.not_true, Bool.or_self, bne_self_eq_false,
    Bool.false_eq_true, if_false, viewWord]
  split <;> rfl

end Stored

/-- Settles O54: the view's word is stored, and the register list keeps every other key. -/
theorem writesAndAliasesChangeTheEnabledFields : Obligations.WritesAndAliasesChangeTheEnabledFields := by
  intro s o view w d ho hv hd hr hrw hdgs hgs hc hm old m v new
  have stores := State.regWrite_stores ho hv hd hr hrw hdgs hgs hc hm
  have run (c : Instr) (h : exec c s = .next (s.regWrite (BitVec.ofNat 27 (0x1000000 * view + o)) w)) :
      ∃ t, exec c s = .next t ∧ t = { s with regs := { s.regs with base := t.regs.base }, pins := { s.pins with regUr := false } } ∧
        kget o t.regs.base = some (new &&& d.rwb) ∧ ∀ q, q ≠ o → kget q t.regs.base = kget q s.regs.base :=
    ⟨_, h.trans (congrArg _ stores), rfl, kget_kset_same .., fun q hq => kget_kset_other hq ..⟩
  simp only [List.forall_mem_cons]
  exact ⟨run _ rfl, run _ rfl, List.forall_mem_nil _⟩

/-! ### Registers of a slice's block (R533) -/

section SliceBlock

variable {s : State} {sl : Slice} {p r o : Nat}

theorem slBase_add_mod (hr : r < 0x40000) : (slBase p + r) % 0x40000 = r := by
  simp only [slBase]
  omega

theorem slBase_add_div (hr : r < 0x40000) : (slBase p + r) / 0x40000 - 32 = p := by
  simp only [slBase]
  omega

theorem slBase_zero_le : slBase 0 ≤ slBase p + r := by
  simp only [slBase]
  omega

theorem slBase_add_lt {v : Variant} (hp : p < v.phys) (hr : r < 0x40000) : slBase p + r < slBase v.phys := by
  simp only [slBase]
  omega

theorem slBase_phys_lt (v : Variant) : slBase v.phys < 0x1000000 := by cases v <;> decide

theorem sliceOfOff_slBase (hr : r < 0x40000) : sliceOfOff (slBase p + r) = some p := by
  rw [sliceOfOff, if_pos slBase_zero_le, slBase_add_div hr]

theorem State.offIsolated_slBase (hs : s.slice p = some sl) (hr : r < 0x40000) : s.offIsolated (slBase p + r) = sl.ident.isolated := by
  rw [State.offIsolated, sliceOfOff_slBase hr]
  simp only [hs]

theorem State.report_slBase (hs : s.slice p = some sl) (hp : p < s.variant.phys) (hr : r < 0x40000) :
    s.report (slBase p + r) = slReport sl r := by
  have above : 0x800000 ≤ slBase p + r := slBase_zero_le
  have block : (decide (slBase 0 ≤ slBase p + r) && decide (slBase p + r < slBase s.variant.phys)) = true :=
    Bool.and_eq_true_iff.mpr ⟨decide_eq_true slBase_zero_le, decide_eq_true (slBase_add_lt hp hr)⟩
  rw [State.report, if_neg (by omega), if_neg (by omega), if_neg (by omega), if_neg (by omega), if_neg (by omega), if_neg (by omega),
    if_neg (by omega), if_pos block, slBase_add_div hr, slBase_add_mod hr, hs]

/-- SL_OCC_MAX, SL_CYC and SL_PMC_CLR store no field. -/
theorem regDef_slBase_eq_none (v : Variant) : ∀ p < v.phys, ∀ r ∈ [0x01C, 0x880, 0x888], regDef v (slBase p + r) = none := by
  cases v <;> decide

/-- Their fields are not GS. -/
theorem gsBits_slBase (v : Variant) : ∀ p < v.phys, ∀ r ∈ [0x01C, 0x880, 0x888], gsBits (slBase p + r) = 0 := by
  cases v <;> decide

theorem State.defined_slBase (hs : s.slice p = some sl) (hp : p < s.variant.phys) (hr : r < 0x40000) (h4 : r % 4 = 0) {x : W32}
    (h : slReport sl r = some x) : s.defined (slBase p + r) = true := by
  have word : (slBase p + r) % 4 = 0 := by
    simp only [slBase]
    omega
  simp [State.defined, word, State.report_slBase hs hp hr, h]

/-- A register of a live slice that stores no field shows what the slice reports. -/
theorem State.show_slBase (hs : s.slice p = some sl) (hp : p < s.variant.phys) (hi : sl.ident.isolated = false)
    (hr : r ∈ [0x01C, 0x880, 0x888]) (h : r < 0x40000) {x : W32} (hx : slReport sl r = some x) : s.show (slBase p + r) false = x := by
  simp [State.show, State.offIsolated_slBase hs h, hi, regDef_slBase_eq_none _ p hp r hr, State.report_slBase hs hp h, hx]

/-- A slice that an access to its registers has ungated (R502). -/
def Slice.ungated (x : Slice) : Slice := { x with ident := { x.ident with gated := false } }

theorem State.touchSlice_slBase (hr : r < 0x40000) : s.touchSlice (slBase p + r) = s.modSlice p Slice.ungated := by
  simp only [State.touchSlice, sliceOfOff_slBase hr]
  rfl

/-! What a read of a slice's register does, of what lies above every other block. -/

theorem State.readEffect_cyc (ho : 0x800000 ≤ o) (hp : sliceOfOff o = some p) (hr : o % 0x40000 = 0x880) (gs : Bool) :
    s.readEffect o (BitVec.allOnes 32) gs =
      s.modSlice p fun x => { x with obs := { x.obs with cyc := x.obs.cyc.latched } } := by
  have notBelow (n : Nat) (h : n ≤ 0x800000) : decide (o < n) = false := decide_eq_false (by omega)
  simp (disch := omega) only [State.readEffect, if_neg, notBelow, Bool.and_false, Bool.false_and, hp, hr]
  rfl

/-- The maxima of a slice start anew at what it holds (R538). -/
def Slice.restartMaxima (x : Slice) : Slice :=
  { x with obs := { x.obs with occTrk := x.trk.length, occHold := x.hold.length, occWpq := x.msc.wpq.length } }

theorem State.readEffect_occMax (ho : 0x800000 ≤ o) (hp : sliceOfOff o = some p) (hr : o % 0x40000 = 0x01C) (gs : Bool) :
    s.readEffect o (BitVec.allOnes 32) gs = s.modSlice p Slice.restartMaxima := by
  have notBelow (n : Nat) (h : n ≤ 0x800000) : decide (o < n) = false := decide_eq_false (by omega)
  have nothingKept (x : W32) (lo len : Nat) (n : Nat) : max (fieldN (x &&& ~~~(BitVec.allOnes 32)) lo len) n = n := by
    simp [fieldN]
  simp (disch := omega) only [State.readEffect, if_neg, notBelow, Bool.and_false, Bool.false_and, hp, hr, nothingKept]
  rfl

end SliceBlock

/-! ### Reads (R454, R461, R463, R509, R518, R538) -/

section Reads

variable {s : State} {r : RegRd} {o : Nat}

/-- A whole read of the base view, of a register that is no trace register, has no GS field and is in no isolated block. -/
theorem State.readAt_eq (ho : o < 0x1000000) (hd : s.defined o = true) (hi : s.offIsolated o = false) (hg : gsBits o = 0)
    (ht : o ≠ 0x50004 ∧ o ≠ 0x50008) (hb : r.be = 15) :
    s.readAt o r = ((s.readEffect o (BitVec.allOnes 32) (r.priv && r.sec)).touchSlice o).answer (s.show o false) := by
  obtain ⟨ht1, ht2⟩ := ht
  have off : (BitVec.ofNat 27 o).toNat = o := by rw [BitVec.toNat_ofNat]; omega
  have noPop : o ≠ 0x50014 := by rintro rfl; exact absurd hg (by decide)
  have noByte : ¬ (15 : BitVec 4) = 0 := by decide
  have whole : beMask 15 = BitVec.allOnes 32 := rfl
  have allBits (x : W32) : x &&& ~~~(0 : W32) = x := BitVec.and_allOnes
  simp only [State.readAt, State.regRead, off, Nat.mod_eq_of_lt ho, Nat.div_eq_of_lt ho, hb, hd, hi, hg, ht1, ht2, noPop, noByte, whole,
    allBits, ite_self, decide_false, Bool.or_self, Bool.false_and, Bool.false_eq_true, if_false]
  rfl

theorem State.defined_moveLow : s.defined 0x018 = true := by simp [State.defined, State.report, State.glReport]

theorem State.defined_intLatch : s.defined 0x060 = true := by simp [State.defined, State.report, State.glReport]

theorem State.show_moveLow : s.show 0x018 false = s.gl.move.setWidth 32 := BitVec.zero_or

theorem State.show_intLatch : s.show 0x060 false = word32 [(1, n1 s.gl.latchMaint), (0, n1 s.gl.latchErr)] := BitVec.zero_or

theorem State.readEffect_intLatch (gs : Bool) : s.readEffect 0x060 (BitVec.allOnes 32) gs =
    { s with gl := { s.gl with latchMaint := false, latchErr := false } } := by
  have maint : (s.gl.latchMaint && !bitAt (BitVec.allOnes 32) 1) = false := Bool.and_false _
  have err : (s.gl.latchErr && !bitAt (BitVec.allOnes 32) 0) = false := Bool.and_false _
  simp only [State.readEffect, if_true, maint, err]

end Reads

section SliceReads

variable {s : State} {sl : Slice} {p o : Nat} {r : RegRd} {w : RegAcc}

/-- The block's registers of a slice may be accessed: the part has the slice, and it is not isolated (R534). -/
structure State.HasRegs (s : State) (p : Nat) (sl : Slice) : Prop where
  slice : s.slice p = some sl
  fitted : p < s.variant.phys
  notIsolated : sl.ident.isolated = false

/-- A whole read of a register of a slice that stores no field: its effect, the slice ungated, and the answer of the report. -/
theorem State.HasRegs.readAt_eq (a : s.HasRegs p sl) (h : o ∈ [0x01C, 0x880, 0x888]) {x : W32} (hx : slReport sl o = some x)
    (hb : r.be = 15) : s.readAt (slBase p + o) r =
      ((s.readEffect (slBase p + o) (BitVec.allOnes 32) (r.priv && r.sec)).modSlice p Slice.ungated).answer x := by
  have small : o < 0x40000 ∧ o % 4 = 0 := by revert o; simp
  obtain ⟨hlt, h4⟩ := small
  have above : 0x800000 ≤ slBase p + o := slBase_zero_le
  have window : slBase p + o < 0x1000000 := (slBase_add_lt a.fitted hlt).trans (slBase_phys_lt _)
  rw [State.readAt_eq window (State.defined_slBase a.slice a.fitted hlt h4 hx)
    ((State.offIsolated_slBase a.slice hlt).trans a.notIsolated) (gsBits_slBase _ p a.fitted o h) (by omega) hb,
    State.touchSlice_slBase hlt, State.show_slBase a.slice a.fitted a.notIsolated h hlt hx]

/-- A read of the cycle counter's low half latches its high bits and SAT (R454). -/
theorem State.HasRegs.readAt_cyc (a : s.HasRegs p sl) (hb : r.be = 15) : s.readAt (slBase p + 0x880) r =
    (s.modSlice p fun x => { x with
      obs := { x.obs with cyc := x.obs.cyc.latched }
      ident := { x.ident with gated := false } }).answer (sl.obs.cyc.value.setWidth 32) := by
  rw [a.readAt_eq (by simp) rfl hb, State.readEffect_cyc slBase_zero_le
    (sliceOfOff_slBase (by decide)) (slBase_add_mod (by decide)), State.modSlice_modSlice]
  rfl

/-- A read of the maxima restarts them (R538). -/
theorem State.HasRegs.readAt_occMax (a : s.HasRegs p sl) (hb : r.be = 15) : ∃ x, s.readAt (slBase p + 0x01C) r =
    (s.modSlice p fun y => y.restartMaxima.ungated).answer x := by
  rw [a.readAt_eq (by simp) rfl hb, State.readEffect_occMax slBase_zero_le (sliceOfOff_slBase (by decide)) (slBase_add_mod (by decide)),
    State.modSlice_modSlice]
  exact ⟨_, rfl⟩

theorem State.regCommand_pmcClr (ho : 0x800000 ≤ o) (hp : sliceOfOff o = some p) (hr : o % 0x40000 = 0x888) (m : W32) :
    s.regCommand o m = s.pmcClr p m := by
  have notBelow : decide (o < 0x50400) = false := decide_eq_false (by omega)
  simp (disch := omega) only [State.regCommand, if_neg, notBelow, Bool.and_false, Bool.false_and, Bool.false_eq_true, if_false,
    if_true, hp, hr]

/-- The counters that the data of a write of SL_PMC_CLR selects are cleared (R463). -/
def Slice.pmcCleared (m : W32) (x : Slice) : Slice :=
  { x with obs := { x.obs with cyc := if bitAt m 8 then x.obs.cyc.clear else x.obs.cyc,
                               pmc := x.obs.pmc.mapIdx fun i k => if bitAt m i then k.clear else k } }

theorem State.HasRegs.writeSl_pmcClr (a : s.HasRegs p sl) (hb : w.be = 15) : s.writeSl p 0x888 w =
    ({ s with pins := { s.pins with regUr := false } }).modSlice p fun x => x.ungated.pmcCleared w.data := by
  have inBlock : 0x888 < 0x40000 := by decide
  have hgs := gsBits_slBase _ p a.fitted 0x888 (by simp)
  have window : slBase p + 0x888 < 0x1000000 := (slBase_add_lt a.fitted (by decide)).trans (slBase_phys_lt _)
  have notEvt : isEvtData (slBase p + 0x888) = false := by simp [isEvtData, slBase]; omega
  have whole : w.data &&& writeMask (slBase p + 0x888) w = w.data := by
    rw [writeMask_of_no_gs hgs, hb, show beMask 15 = BitVec.allOnes 32 from rfl, BitVec.and_allOnes]
  have unstored := regDef_slBase_eq_none s.variant p a.fitted 0x888 (by simp)
  rw [State.writeSl, State.writeAt_eq window (State.defined_slBase a.slice a.fitted (by decide) rfl rfl)]
  simp only [State.offIsolated_slBase a.slice inBlock, a.notIsolated, notEvt, hgs, State.touchSlice_slBase inBlock, State.baseWrite,
    State.modSlice_variant, unstored, whole, bne_self_eq_false, Bool.false_and, Bool.or_self, Bool.false_eq_true, if_false]
  exact (State.regCommand_pmcClr slBase_zero_le (sliceOfOff_slBase (by decide)) (slBase_add_mod (by decide)) _).trans
    (State.modSlice_modSlice ..)

end SliceReads

/-- Settles O58: each read by its register's effect, SL_PMC_CLR by `State.HasRegs.writeSl_pmcClr`. -/
theorem readsLatchClearAndRestart : Obligations.ReadsLatchClearAndRestart := by
  intro s p sl r w hs hp hi hr hw
  have a : s.HasRegs p sl := ⟨hs, hp, hi⟩
  refine ⟨congrArg _ (a.readAt_cyc hr), ?_, ?_, ?_, ?_⟩
  · exact congrArg _ ((State.readAt_eq (by decide) State.defined_moveLow rfl rfl (by decide) hr).trans
      (congrArg (State.answer _) State.show_moveLow))
  · obtain ⟨x, read⟩ := a.readAt_occMax hr
    exact ⟨_, _, congrArg Host.Outcome.next read, State.slice_modSlice s p _ sl hs, rfl, rfl, rfl⟩
  · refine congrArg _ ((State.readAt_eq (by decide) State.defined_intLatch rfl rfl (by decide) hr).trans ?_)
    rw [State.readEffect_intLatch, State.show_intLatch]
    rfl
  · let s1 : State := { s with pins := { s.pins with regUr := false } }
    refine ⟨_, congrArg Host.Outcome.next (a.writeSl_pmcClr hw), rfl, fun x hx => ?_⟩
    cases (State.slice_modSlice s1 p _ sl hs).symm.trans hx
    rfl

/-! ### The expansion ROM window and the atomic aperture (R494, R497) -/

section Aperture

variable {s : State} {n : Nat} {a : AgentMsg} {d : Line}

theorem State.aperture_of_no_aperture (h : s.atomEn = false ∨ 134217728 ≤ n) : s.aperture n a d = s.ur := by
  refine if_pos ?_
  rcases h with h | h <;> simp [h]

/-- The request that the aperture's agent presents for an AtomicOp (R497). -/
def State.apertureMsg (s : State) (n : Nat) (a : AgentMsg) : AgentMsg :=
  { a with port := fieldN (s.actReg 0x40080) 2 3, agent := (s.actReg 0x40080).extractLsb' 0 2, opc := 0x16,
           addr := BitVec.ofNat 52 (s.hintBase + n) }

theorem State.aperture_presents (he : s.atomEn = true) (hn : n < 134217728) :
    s.aperture n a d = s.agentRequest .atomicOp (s.apertureMsg n a) d false :=
  if_neg (by simp [he, hn])

/-- An AtomicOp is never answered from the agent's own data (R270). -/
theorem AgentPort.answersFrom_atomicOp (ap : AgentPort) (s : State) (m : AgentMsg) (po : Bool) :
    ap.answersFrom (s.portReqOf .atomicOp m d po) = none := ite_self none

/-- A request whose class field is a class is held as it is (R236). -/
theorem State.holdReq_of_class {m : AgentMsg} (h : m.cls.toNat < 5) (r : PortReq) :
    s.holdReq m r = s.modAgentPort m.port fun x => { x with held := x.held ++ [r] } := by
  simp only [State.holdReq, AgentPort.countClass, if_neg h.not_ge]

end Aperture

/-- Settles O59: the ROM window by the image in force, an AtomicOp by whether the aperture is on, then as a request of its agent. -/
theorem romDvsecAndAperture : Obligations.RomDvsecAndAperture := by
  intro s n v off r w a d
  refine ⟨rfl, congrArg Host.Outcome.next ?_, rfl, fun h => congrArg Host.Outcome.next (State.aperture_of_no_aperture h), ?_⟩
  · simp only [State.romRead, State.answer, State.romWord, Bool.and_eq_true, beq_iff_eq, decide_eq_true_eq]
  · intro ap he hn ctl m hw hap ht hsilent hon hcr hcls hok hroom hreach
    have may : s.MayPresent m ap := ⟨hw, hap, ht, .inr hon, hcr⟩
    have legal : s.agentRefusal m (bitAt ap.silent m.agent.toNat) = none := by rw [hsilent]; exact hok
    have held : s.Takes m ap .atomicOp d false (s.portReqOf .atomicOp m d false) := ⟨may, legal, rfl, .inr hroom⟩
    refine congrArg Host.Outcome.next ((State.aperture_presents he hn).trans (held.agentRequest_eq.trans ?_))
    rw [AgentPort.answersFrom_atomicOp, Option.elim_none, State.sendIfNext_of_port (m := m) hreach, State.holdReq_of_class (m := m) hcls]

end Sys2Proof.Machine


/-! The fabric block: the event FIFO (R460 to R462), the probes (R451 to R453), trace packets and the trace FIFO (R456 to R458). -/

namespace Sys2Proof.Machine

open Sys2Proof

/-! ### The event FIFO (R460, R461) -/

section EventFifo

variable {s : State} {e : Events} {r : RegRd} {move : BitVec 40} {x : EvRec} {l : List EvRec}

theorem Events.push_of_full (h : e.fifo.length = evDepth) (x : EvRec) :
    e.push x = { e with lost := satInc e.lost, lostBit := true } := if_neg (by omega)

/-- The bits of a record as the read latch shows them (R461). -/
def EvRec.bits (x : EvRec) : BitVec 128 := x.code ++ x.sev ++ x.src ++ x.unit ++ x.move ++ x.detail

/-- The record of the lost ones (R460). -/
def Events.lossRec (e : Events) (move : BitVec 40) : EvRec := ⟨0x3B, 1, BitVec.ofNat 5 srcMesh, 0, move, e.lost.setWidth 64⟩

theorem Events.pop_of_empty (h : e.fifo = []) : e.pop move = { e with latch := 0, staleHalt := false } := by
  simp only [Events.pop, h]

theorem Events.pop_of_head (h : e.fifo = x :: l) : e.pop move = { e with
    fifo := if e.lost = 0 then l else l ++ [e.lossRec move], latch := x.bits, lost := 0, staleHalt := false } := by
  simp only [Events.pop, h]
  rfl

theorem Events.pop_stale (e : Events) (move : BitVec 40) : { e.pop move with stale := e.stale } = e.pop move := by
  unfold Events.pop
  split <;> rfl

/-- A whole read of FB_EVT_HI by a privileged and secure master pops the FIFO, and answers the popped record's upper word (R461). -/
theorem State.readAt_evtPop (hb : r.be = 15) (hp : r.priv = true) (hs : r.sec = true) : s.readAt 0x50014 r =
    ({ s with ev := s.ev.pop (s.gl.move.setWidth 40) }).answer ((s.ev.pop (s.gl.move.setWidth 40)).latch.extractLsb' 96 32) := by
  have effect : s.readEffect 0x50014 (beMask 15) true = { s with ev := s.ev.pop (s.gl.move.setWidth 40) } :=
    congrArg (fun ev => { s with ev := ev }) (Events.pop_stale ..)
  simp only [State.readAt, State.regRead, hb, hp, hs]
  show ((s.readEffect 0x50014 (beMask 15) true).touchSlice 0x50014).answer
    ((s.readEffect 0x50014 (beMask 15) true).ev.latch.extractLsb' 96 32) = _
  rw [effect]
  rfl

end EventFifo

/-- Settles O57: a push into a full FIFO by `Events.push_of_full`, the read of FB_EVT_HI by what the FIFO has at its head. -/
theorem theEventFifoCountsWhatItLoses : Obligations.TheEventFifoCountsWhatItLoses := by
  intro s e r hb hp hs
  have run : exec (.fbEvtPop r) s = .next (s.readAt 0x50014 r) := rfl
  rw [State.readAt_evtPop hb hp hs] at run
  refine ⟨fun h => Events.push_of_full h e, fun h rest hf => ?_, fun hf => ?_⟩
  · rw [Events.pop_of_head hf] at run
    exact ⟨_, h.bits, run, rfl, rfl, fun h0 => if_pos h0, fun h0 => ⟨s.ev.lossRec _, if_neg h0, rfl, rfl, rfl⟩⟩
  · rw [Events.pop_of_empty hf] at run
    have zero : (0 : BitVec 128).extractLsb' 96 32 = 0 := by decide
    exact run.trans (congrArg (fun w => Host.Outcome.next (State.answer _ w)) zero)

/-! ### A read of FB_TRACE_DATA (R458) -/

/-- A record that waits in a probe's buffer. -/
def TraceRec.waiting : TraceRec := ⟨0, 0, 0, 0⟩

/-- A block in which the first probe's buffer holds a record and the trace FIFO is empty. -/
def State.recordWaits : State :=
  { State.reset with fb := State.reset.fb.modProbe 0 fun p => { p with buf := [.waiting] } }

/-- The trace FIFO takes what the buffers hold before it is read (R456). -/
theorem fbTraceDataRead_recordWaits : ∃ t, exec (.fbTraceDataRead ⟨15, true, true⟩) State.recordWaits = .next t ∧
    t.fb.trace.length = 8 := ⟨_, rfl, by decide⟩

/-- Refutes O56: a read of an empty FIFO, which the statement says changes nothing but the answer, lets the FIFO take a record that
waits in a probe's buffer. -/
theorem not_traceDataReturnsTheHeadWord : ¬ Obligations.TraceDataReturnsTheHeadWord := by
  intro h
  have unchanged := (h State.recordWaits ⟨15, true, true⟩ rfl).2 (.inl rfl)
  obtain ⟨t, run, filled⟩ := fbTraceDataRead_recordWaits
  obtain rfl := Host.Outcome.next.inj (run.symm.trans unchanged)
  exact absurd filled (by decide)

/-! ### Probes (R451 to R453) -/

section Probes

variable {s : State} {n : Nat} {f : Flit}

/-- A flit passes an enabled probe of the block, on a link that the part has, and matches its filter (R451 to R453). -/
structure State.ProbeMatches (s : State) (n : Nat) (f : Flit) : Prop where
  fitted : n < 12
  enabled : bitAt (s.prb n 0) 31 = true
  link : linkIn s.variant (fieldN (s.prb n 0) 13 8) = true
  hits : s.probeHits n f.header = true

/-- The probe's counter counts a flit (R452). -/
def State.probeCount (s : State) (n : Nat) (f : Flit) : State :=
  { s with fb := s.fb.modProbe n fun p => { p with cnt := p.cnt.add (probeAdds (s.prb n 0) f) } }

theorem State.ProbeMatches.probeFlit_eq (a : s.ProbeMatches n f) : s.probeFlit n f =
    if bitAt (s.prb n 0) 27 && bitAt (s.actReg 0x50000) 31 then (s.probeCount n f).traceFlit n
      ⟨fieldN (s.prb n 0) 13 8, f.lane, f.header, (s.gl.move <<< 10) ||| f.cycle.setWidth 48⟩
    else s.probeCount n f :=
  if_neg (by simp [a.fitted, a.enabled, a.link, a.hits])

theorem State.probeFlit_of_no_match (h : bitAt (s.prb n 0) 31 = false ∨ s.probeHits n f.header = false) : s.probeFlit n f = s := by
  refine if_pos ?_
  rcases h with h | h <;> simp [h]

end Probes

/-! ### Packets and the trace port (R457, R458) -/

section Packets

variable {s : State} {f : Fabric} {n : Nat}

/-- A packet that closes puts its length word into the one slot that is reserved for it (R457). -/
theorem Fabric.close_of_packet {b : Probe} {k : Packet} {u v : List TraceWord} (hb : f.probes[n]? = some b) (hk : b.packet = some k)
    (ht : f.trace = u ++ .slot n :: v) (hu : .slot n ∉ u) (hv : .slot n ∉ v) (trunc : Bool) : f.close n trunc =
      { f with trace := u ++ .word (lengthWord n k.records trunc) :: v
               probes := f.probes.modify n fun x => { x with packet := none } } := by
  have others {l : List TraceWord} (hl : .slot n ∉ l) :
      (l.map fun w => if w == .slot n then .word (lengthWord n k.records trunc) else w) = l :=
    (List.map_congr_left fun w hw => if_neg (mt beq_iff_eq.mp fun e => hl (e ▸ hw))).trans (List.map_id l)
  simp only [Fabric.close, hb, Option.bind_some, hk, ht, List.map_append, List.map_cons, others hu, others hv, beq_self_eq_true, if_true]
  rfl

/-- What the trace port takes of the FIFO with SINK at 1 (R458). -/
theorem execTracePortTransfer_of_word {x : W32} {l : List TraceWord} (hs : bitAt (s.actReg 0x50000) 30 = true)
    (ht : s.traceAll.fb.trace = .word x :: l) : execTracePortTransfer s =
      .next { s.traceAll with fb := { s.traceAll.fb with trace := l, trcData := x } } := by
  simp only [execTracePortTransfer, hs, ht, if_true]

theorem execTracePortTransfer_of_no_sink (h : bitAt (s.actReg 0x50000) 30 = false) : execTracePortTransfer s = .next s :=
  congrArg _ (if_neg (by simp [h]))

end Packets

/-! ### The stale timer (R462) -/

section StaleTimer

variable {s : State}

theorem execEventFifoStale_of_entries (hf : s.ev.fifo ≠ []) (hh : s.ev.staleHalt = false) (hm : fieldN (s.actReg 0x50020) 10 10 ≠ 0) :
    execEventFifoStale s = .next { s with ev := { s.ev with stale := true, staleHalt := true } } :=
  congrArg _ (if_neg (by simp [hf, hh, hm]))

theorem execEventFifoStale_of_halted (h : s.ev.fifo = [] ∨ s.ev.staleHalt = true) : execEventFifoStale s = .next s := by
  refine congrArg _ (if_pos ?_)
  rcases h with h | h <;> simp [h]

end StaleTimer

/-- Settles O60: a flit by whether it matches its probe and whether the probe traces, a gap by `Fabric.close_of_packet`. -/
theorem probesTraceAndEventPorts : Obligations.ProbesTraceAndEventPorts := by
  refine fun s n f => ⟨fun hn he hl hh ht => ?_, fun h => congrArg _ (State.probeFlit_of_no_match h), fun hn he hl hh ht hg => ?_,
    ⟨fun b k u v hb hk hw hu hv => ?_, fun x rest hs hw => execTracePortTransfer_of_word hs hw⟩,
    execTracePortTransfer_of_no_sink, execEventFifoStale_of_entries, execEventFifoStale_of_halted, rfl⟩
  · have a : s.ProbeMatches n f := ⟨hn, he, hl, hh⟩
    exact congrArg _ (a.probeFlit_eq.trans (if_neg (by simp [ht])))
  · have a : s.ProbeMatches n f := ⟨hn, he, hl, hh⟩
    exact congrArg _ (a.probeFlit_eq.trans (if_pos (by simp [ht, hg])))
  · exact congrArg (fun g => Host.Outcome.next { s.traceAll with fb := g }) (Fabric.close_of_packet hb hk hw hu hv false)

end Sys2Proof.Machine

/-! The sweeper of a range in blindfold mode (R423, R424), prefetches (R302), the preload walk (R315), and a slice's declared failure
(R412, R414, R415, R425, R428). -/

namespace Sys2Proof.Machine

open Sys2Proof

/-! ### The blindfold sweeper (R423, R424) -/

section Sweep

variable {s : State} {p : Nat} {sl : Slice} {b : Blind} {rest : List Blind} {pg : Page} {f : Option Nat}

/-- A live slice sweeps its first range: it is not stalled, and the Endgame unit asks for no drain. -/
structure State.Sweeps (s : State) (p : Nat) (sl : Slice) (b : Blind) (rest : List Blind) : Prop where
  slice : s.slice p = some sl
  live : sl.live = true
  unstalled : sl.ident.adoptStall = false
  noDrain : s.eg.drainReq = false
  ranges : sl.blind = b :: rest

theorem State.Sweeps.sweepGroup_ends (a : s.Sweeps p sl b rest) (h : s.sweepPage b = none) : s.sweepGroup p = s.sweepEndRange p b := by
  simp only [State.sweepGroup, a.slice, a.ranges, a.live, a.unstalled, a.noDrain, h, Bool.not_true, Bool.or_self, Bool.false_eq_true,
    if_false]

theorem State.Sweeps.sweepGroup_reads (a : s.Sweeps p sl b rest) (h : s.sweepPage b = some (pg, f)) (ht : sl.sweepers = [])
    (hm : sl.pmFind pg = none) : s.sweepGroup p = s.pmRequest p pg := by
  simp only [State.sweepGroup, a.slice, a.ranges, a.live, a.unstalled, a.noDrain, h, ht, hm, Bool.not_true, Bool.or_self,
    Bool.false_eq_true, List.isEmpty_nil, Option.isNone_none, if_false, if_true]

/-- What the sweeper need not ask for: the snoop filter holds an entry of the line, or the slice a nibble that names no holder. -/
theorem State.Sweeps.sweepGroup_passes (a : s.Sweeps p sl b rest) (h : s.sweepPage b = some (pg, f)) (ht : sl.sweepers = [])
    (hm : (sl.pmFind pg).isSome = true) (hn : (s.pageEnt pg).near = true)
    (known : ∀ i < 4, (sl.sfFind (pageLine pg (4 * b.group + i))).isSome = true ∨
      ∃ n, sl.nibHere (pageLine pg (4 * b.group + i)) = some n ∧ Nib.dir n ≠ 0b01) :
    s.sweepGroup p = s.modSlice p fun x => { x with blind := b.next f :: rest } := by
  have cached : (sl.pmFind pg).isNone = false := Option.isNone_eq_false_iff.mpr hm
  have group : ((List.range 4).map fun i => pageLine pg (4 * b.group + i)).all (fun l => match sl.nibHere l with
      | some n => !(s.nibCurrent (s.lineEnt sl l).game n && Nib.dir n == 0b01) || (sl.sfFind l).isSome
      | none => (sl.sfFind l).isSome) = true := by
    simp only [List.all_map, List.all_eq_true, List.mem_range, Function.comp_apply]
    intro i hi
    rcases known i hi with entry | ⟨n, here, other⟩
    · split <;> simp [entry]
    · have noHolder : (Nib.dir n == 0b01) = false := beq_false_of_ne other
      simp only [here, noHolder, Bool.and_false, Bool.not_false, Bool.true_or]
  simp only [State.sweepGroup, a.slice, a.ranges, a.live, a.unstalled, a.noDrain, h, ht, cached, hn, Bool.not_true, Bool.or_self,
    Bool.false_eq_true, List.isEmpty_nil, if_false]
  exact if_pos group

end Sweep

/-! ### Prefetches and the preload walk (R302, R315) -/

section Preload

variable {s : State} {p n : Nat} {sl : Slice}

theorem State.prefetchAccept_presents {l : LineAddr} {c : Cls} {r : List (LineAddr × Cls)} (hs : s.slice p = some sl)
    (hl : sl.live = true) (hq : sl.msc.pfq = (l, c) :: r) (ha : sl.ident.adoptStall = false) (hd : s.eg.drainReq = false)
    (ht : sl.poolUsed .shared + sl.creditsOf .shared ≤ 128) (hh : sl.holdFree = true) : s.prefetchAccept p =
      (((s.modSlice p fun x => { x with msc := { x.msc with pfq := r } }).count p 0x27 (some c)).present p
        (ownReq .memSpecRd .prefetch 0 l c) .shared).settle p := by
  simp only [State.prefetchAccept, hs, hl, hq, ha, hd, hh, decide_eq_false ht.not_gt, Bool.not_true, Bool.or_self, Bool.false_eq_true,
    if_false]

theorem State.preloadTurn_of_idle (hs : s.slice p = some sl) (h : sl.msc.pre.busy = false) : s.preloadTurn p = s := by
  simp only [State.preloadTurn, hs, h, Bool.not_false, Bool.or_true, if_true]

/-- A live slice whose preload walk is busy with its range, not with clearing the targets. -/
structure State.Preloads (s : State) (p : Nat) (sl : Slice) : Prop where
  slice : s.slice p = some sl
  live : sl.live = true
  busy : sl.msc.pre.busy = true
  noClearing : sl.msc.pre.clearing = none

/-- A line that is not near is passed and counted (R315). -/
theorem State.Preloads.preloadTurn_skips (a : s.Preloads p sl) (hl : sl.msc.pre.left = n + 1)
    (hh : s.homeSlice sl.msc.pre.page = some p) (hn : sl.msc.pre.lineNo < 63)
    (far : (s.lineEnt sl (pageLine sl.msc.pre.page sl.msc.pre.lineNo)).near = false) :
    s.preloadTurn p = s.modSlice p fun x => { x with msc := { x.msc with pre :=
      { x.msc.pre with skipped := x.msc.pre.skipped + 1, lineNo := sl.msc.pre.lineNo + 1, left := n + 1 } } } := by
  have next : s.nextHomed p (n + 1) sl.msc.pre.page = some (sl.msc.pre.page, n + 1) := if_pos (beq_iff_eq.mpr hh)
  have skip : s.preloadLine p sl (pageLine sl.msc.pre.page sl.msc.pre.lineNo) =
      some (s.modMsc p fun m => { m with pre := { m.pre with skipped := m.pre.skipped + 1 } }) := if_pos (by simp [far])
  have notLast : sl.msc.pre.lineNo ≠ 63 := hn.ne
  simp only [State.preloadTurn, a.slice, a.live, a.busy, a.noClearing, hl, next, skip, notLast, Bool.not_true, Bool.or_self,
    Bool.false_eq_true, Bool.false_and, decide_false, if_true, if_false, State.modMsc, State.modSlice_modSlice]
  exact State.modSlice_congr a.slice rfl

theorem State.Preloads.preloadTurn_ends (a : s.Preloads p sl) (hl : sl.msc.pre.left = 0) (hp : sl.preloading = false) :
    s.preloadTurn p = s.modSlice p fun x => { x with msc := { x.msc with pre :=
      { x.msc.pre with busy := false, done := true, clearing := none, loaded := s.inTargets p sl } } } := by
  simp only [State.preloadTurn, State.nextHomed, State.preloadEnd, a.slice, a.live, a.busy, a.noClearing, hl, hp, Bool.not_true,
    Bool.or_self, Bool.false_eq_true, if_false]
  rfl

end Preload

/-- Settles O29: the sweeper by the page it comes to, a prefetch by the slice's room, the walk by what is left of its range. -/
theorem sweepersPrefetchesAndPreloads : Obligations.SweepersPrefetchesAndPreloads := by
  refine ⟨fun s p sl b rest hs hl ha hd hb => ?_, fun s p sl hs hl => ⟨fun l c r hq ha hd ht hh => ?_, fun h => ?_, ?_, ?_⟩⟩
  · have a : s.Sweeps p sl b rest := ⟨hs, hl, ha, hd, hb⟩
    exact ⟨fun h => congrArg _ (a.sweepGroup_ends h), fun pg f h ht hm hn known => congrArg _ (a.sweepGroup_passes h ht hm hn known),
      fun pg f h ht hm => congrArg _ (a.sweepGroup_reads h ht hm)⟩
  · exact congrArg _ (State.prefetchAccept_presents hs hl hq ha hd ht hh)
  · exact congrArg _ (State.preloadTurn_of_idle hs h)
  · intro n hb hc hn hh hlt far
    have a : s.Preloads p sl := ⟨hs, hl, hb, hc⟩
    exact congrArg _ (a.preloadTurn_skips hn hh hlt far)
  · intro hb hc h0 hp
    have a : s.Preloads p sl := ⟨hs, hl, hb, hc⟩
    exact congrArg _ (a.preloadTurn_ends h0 hp)

/-! ### A declared failure (R412, R414, R415, R425, R428) -/

section Failure

variable {s : State} {p b : Nat} {sl sb : Slice} {c : FailCause}

/-- A slice has stopped with a cause of its own, and the castling logic has not yet isolated it (R412). -/
structure State.Failed (s : State) (p : Nat) (sl : Slice) (c : FailCause) : Prop where
  slice : s.slice p = some sl
  cause : sl.ident.failed = some c
  notIsolated : sl.ident.isolated = false

/-- The slice's own cause as the command carries it. -/
theorem FailCause.code_toNat (c : FailCause) : (BitVec.ofNat 4 c.code).toNat = c.code := by cases c <;> rfl

theorem State.Failed.declare_of_other_cause (a : s.Failed p sl c) {cause : BitVec 4} (h : cause.toNat ≠ c.code) :
    s.declare p cause = s := by
  simp only [State.declare, a.slice, a.cause, bne_iff_ne.mpr h.symm, Bool.or_true, if_true]

/-- A reserve that takes no replay is isolated, and no reserve is left (R425). -/
theorem State.Failed.declare_of_reserve (a : s.Failed p sl c) (hr : sl.ident.role = .reserve)
    (free : ∀ r ∈ s.cast.replays, r.target ≠ p) : s.declare p (BitVec.ofNat 4 c.code) =
      (s.isolate p).setHealthWith (fun g => { g with noReserve := g.noReserve || !g.reserveUsed }) 0x04 1 0 0 := by
  have noReplay : (s.cast.replays.find? fun r => r.target == p) = none := by simpa using free
  simp only [State.declare, a.slice, a.cause, a.notIsolated, hr, noReplay, FailCause.code_toNat, bne_self_eq_false, beq_self_eq_true,
    Role.serves, Bool.or_self, Bool.false_eq_true, if_false, if_true]

theorem State.Failed.declare_of_active (a : s.Failed p sl c) (hr : sl.ident.role = .active) :
    s.declare p (BitVec.ofNat 4 c.code) = s.servingFails p sl c := by
  simp only [State.declare, a.slice, a.cause, a.notIsolated, hr, FailCause.code_toNat, bne_self_eq_false, Role.serves, Bool.or_self,
    Bool.false_eq_true, if_false, if_true]

theorem State.servingFails_of_no_buddy (h : s.buddyOf p = none) : s.servingFails p sl c = s.lose p := by
  simp only [State.servingFails, h]

/-- An active slice's range is replayed: it is mirrored by a healthy buddy, whose mirror holds no error, and no replay is under way
(R414, R420). -/
structure State.Replayable (s : State) (p b : Nat) (sl sb : Slice) : Prop where
  role : sl.ident.role = .active
  mirrored : sl.ident.unprot = false
  pair : s.buddyOf p = some b
  healthy : s.castleLive b = true
  noReplay : s.cast.replays = []
  buddy : (s.landUpdates p b).slice b = some sb
  noErrs : sb.obs.errs = []

theorem State.landUpdates_cast (s : State) (f b : Nat) : (s.landUpdates f b).cast = s.cast := by
  unfold State.landUpdates
  split <;> rfl

theorem State.Replayable.servingFails_eq (a : s.Replayable p b sl sb) : s.servingFails p sl c =
    (s.landUpdates p b).reserveFree.elim ((s.landUpdates p b).adopt p b sl.ident.logA c (replayItems sl sb))
      fun g => (s.landUpdates p b).takeover p b g sl.ident.logA c (replayItems sl sb) := by
  have landed : (s.landUpdates p b).cast.replays = [] := by rw [State.landUpdates_cast, a.noReplay]
  have notAdopting : (sl.ident.role == .adopting) = false := by rw [a.role]; rfl
  simp only [State.servingFails, a.pair, a.healthy, a.mirrored, a.noReplay, a.buddy, notAdopting, landed,
    State.meetErr_of_no_errs a.buddy a.noErrs, List.any_nil, Bool.not_true, Bool.or_self, Bool.false_eq_true, if_false]
  cases (s.landUpdates p b).reserveFree <;> rfl

end Failure

/-- Settles O31: a reserve by `State.Failed.declare_of_reserve`, an active slice by whether it has a buddy to replay from. -/
theorem aFailedSliceIsReplacedOrLost : Obligations.AFailedSliceIsReplacedOrLost := by
  intro s p sl c hs hc hi
  have a : s.Failed p sl c := ⟨hs, hc, hi⟩
  refine ⟨fun hr free => congrArg _ (a.declare_of_reserve hr free),
    fun hr hb => congrArg _ ((a.declare_of_active hr).trans (State.servingFails_of_no_buddy hb)), ?_,
    fun cause h => congrArg _ (a.declare_of_other_cause h)⟩
  intro b sb hr hu hb hl hq s1 h1 he
  have m : s.Replayable p b sl sb := ⟨hr, hu, hb, hl, hq, h1, he⟩
  have replays := (a.declare_of_active hr).trans m.servingFails_eq
  refine ⟨fun g hg => congrArg Host.Outcome.next ?_, fun hn => congrArg Host.Outcome.next ?_⟩
  · rw [replays, show (s.landUpdates p b).reserveFree = some g from hg]
    rfl
  · rw [replays, show (s.landUpdates p b).reserveFree = none from hn]
    rfl

end Sys2Proof.Machine

/-! The loader: the slots it tries at start-up (R466, R475 to R478), warm reloads and fetches (R483, R485, R486). -/

namespace Sys2Proof.Machine

open Sys2Proof

/-! ### Headers (R466, R475) -/

section Headers

variable {s : State} {a b : List Byte} {x : Sfdp} {y : Option Sfdp}

/-- A header without bytes is not usable. -/
theorem headerUsable_nil (v : Variant) : headerUsable v [] = false := by cases v <;> decide

theorem slotOrder_of_both {v : Variant} (ha : headerUsable v a = true) (hb : headerUsable v b = true) : slotOrder v a b =
    if serialLater (imgSeq b) (imgSeq a) then [(true, imgSeq b), (false, imgSeq a)] else [(false, imgSeq a), (true, imgSeq b)] := by
  unfold slotOrder
  rw [ha, hb]

theorem slotOrder_of_none {v : Variant} (ha : headerUsable v a = false) (hb : headerUsable v b = false) : slotOrder v a b = [] := by
  unfold slotOrder
  rw [ha, hb]

/-- The loader with the SFDP tables, if their density is enough (R466). -/
def State.sfdpIn (s : State) (y : Option Sfdp) : State :=
  { s with ld := { s.ld with state := .loading, sfdp := y.filter Sfdp.ok } }

/-- The first read of the headers comes with the SFDP tables. -/
theorem State.headersRead_of_sfdp (h : s.ld.state = .sfdp) : s.headersRead a b y =
    let s1 := if (y.filter Sfdp.ok).isSome then (s.sfdpIn y).headersIn a b else (s.sfdpIn y).headersIn [] []
    if s1.ld.toTry.isEmpty then s1.noImage else s1 := by
  simp only [State.headersRead, h, beq_self_eq_true, Bool.not_true, Bool.false_and, Bool.false_eq_true, if_false, if_true]
  rfl

/-- Two usable headers are tried in their order, and nothing is logged. -/
theorem State.headersIn_of_both (ha : headerUsable s.variant a = true) (hb : headerUsable s.variant b = true) : s.headersIn a b =
    { s with ld := { s.ld with toTry := slotOrder s.variant a b, second := false, accepted := false, digestValid := false,
                               aFailed := false, bFailed := false } } := by
  simp only [State.headersIn, ha, hb, if_true, Bool.not_true]

/-- Two headers that are not usable are logged, and no slot is tried. -/
theorem State.headersIn_of_none (ha : headerUsable s.variant a = false) (hb : headerUsable s.variant b = false) : s.headersIn a b =
    { s with
      ld := { s.ld with toTry := [], second := false, accepted := false, digestValid := false, aFailed := true, bFailed := true }
      ev := ((s.slotRejected false 0).slotRejected true 0).ev } := by
  simp only [State.headersIn, ha, hb, slotOrder_of_none ha hb, Bool.false_eq_true, if_false, Bool.not_false]
  rfl

/-- Of two usable slots the first in their order is loaded next (R475). -/
theorem State.headersRead_of_both (h : s.ld.state = .sfdp) (hx : x.ok = true) (ha : headerUsable s.variant a = true)
    (hb : headerUsable s.variant b = true) : s.headersRead a b (some x) = { s with ld := { s.ld with
      state := .loading, sfdp := some x, toTry := slotOrder s.variant a b, second := false, accepted := false,
      digestValid := false, aFailed := false, bFailed := false } } := by
  have found : (some x).filter Sfdp.ok = some x := Option.filter_eq_some_iff.mpr ⟨rfl, hx⟩
  have slots : (slotOrder s.variant a b).isEmpty = false := by
    rw [slotOrder_of_both ha hb]
    split <;> rfl
  have tries := State.headersIn_of_both (s := s.sfdpIn (some x)) ha hb
  simp only [State.headersRead_of_sfdp h, found, Option.isSome_some, if_true, tries]
  refine (if_neg (Bool.eq_false_iff.mp slots)).trans ?_
  simp only [State.sfdpIn, found]

/-- With no usable slot, or without tables that are good enough, the block waits without an image (R466, R481). -/
theorem State.headersRead_of_none (h : s.ld.state = .sfdp)
    (hn : y.filter Sfdp.ok = none ∨ (headerUsable s.variant a = false ∧ headerUsable s.variant b = false)) :
    s.headersRead a b y = { s with
      ld := { s.ld with state := .noImage, image := [], sfdp := y.filter Sfdp.ok, toTry := [], second := false, accepted := false,
                        digestValid := false, aFailed := true, bFailed := true }
      gl := { s.gl with setupFail := true, phase := 6 }
      ev := ((s.slotRejected false 0).slotRejected true 0).ev } := by
  have empty := State.headersIn_of_none (s := s.sfdpIn y) (headerUsable_nil _) (headerUsable_nil _)
  have tries : (if (y.filter Sfdp.ok).isSome = true then (s.sfdpIn y).headersIn a b else (s.sfdpIn y).headersIn [] []) =
      (s.sfdpIn y).headersIn [] [] := by
    rcases hn with hn | ⟨ha, hb⟩
    · exact if_neg (by simp [hn])
    · rw [State.headersIn_of_none (s := s.sfdpIn y) ha hb, empty, ite_self]
  simp only [State.headersRead_of_sfdp h, tries.trans empty]
  rfl

end Headers

/-! ### A slot that has been read (R476 to R478) -/

section SlotRead

variable {s : State} {img : List Byte} {sb : Bool} {q : W32} {r : List (Bool × W32)} {sec : Nat}

/-- A slot that passes its checks is accepted, or waits for the root of trust (R476, R478). -/
theorem State.slotRead_of_pass (hc : s.checkSlot (img.take (imgLen img)) = none) : s.slotRead img = { s with ld := { s.ld with
      image := img.take (imgLen img), digest := digestWords (img.take (imgLen img)), digestValid := true
      state := if s.pins.rotEn then .rot else s.ld.state, accepted := if s.pins.rotEn then s.ld.accepted else true } } := by
  unfold State.slotRead
  dsimp only
  rw [hc]
  cases s.pins.rotEn <;> rfl

/-- A slot that fails a check is logged, and the other is next (R476, R477). -/
theorem State.slotRead_of_fail (hc : s.checkSlot (img.take (imgLen img)) = some sec) (h : s.ld.toTry = (sb, q) :: r) :
    s.slotRead img = { s with
      ev := (s.slotRejected sb sec).ev
      ld := { s.ld with image := img.take (imgLen img), digest := digestWords (img.take (imgLen img)), digestValid := r.isEmpty,
                        toTry := r, second := true, accepted := false, aFailed := s.ld.aFailed || !sb,
                        bFailed := s.ld.bFailed || sb } } := by
  unfold State.slotRead
  dsimp only
  rw [hc]
  simp only [State.slotFailed, h, Bool.true_and]
  rfl

/-- The loader at start-up reads the first slot that it has still to try. -/
structure State.Loads (s : State) (sb : Bool) (q : W32) (r : List (Bool × W32)) : Prop where
  loading : s.ld.state = .loading
  unaccepted : s.ld.accepted = false
  slots : s.ld.toTry = (sb, q) :: r
  image : s.gl.phase ≠ 6

theorem State.Loads.slotLoaded_eq (a : s.Loads sb q r) (h : (s.slotRead img).ld.toTry ≠ []) : s.slotLoaded img = s.slotRead img := by
  have slot : s.ld.toTry.isEmpty = false := by rw [a.slots]; rfl
  have left : (s.slotRead img).ld.toTry.isEmpty = false := by simpa using h
  simp only [State.slotLoaded, a.loading, a.unaccepted, slot, beq_false_of_ne a.image, left, bne_self_eq_false, Bool.or_self,
    Bool.false_eq_true, if_false]

theorem State.Loads.slotLoaded_of_pass (a : s.Loads sb q r) (hc : s.checkSlot (img.take (imgLen img)) = none) :
    s.slotLoaded img = { s with ld := { s.ld with
      image := img.take (imgLen img), digest := digestWords (img.take (imgLen img)), digestValid := true
      state := if s.pins.rotEn then .rot else .loading, accepted := !s.pins.rotEn } } := by
  have read := State.slotRead_of_pass hc
  have slots : (s.slotRead img).ld.toTry ≠ [] := by
    rw [read]
    exact a.slots ▸ List.cons_ne_nil _ _
  rw [a.slotLoaded_eq slots, read, a.loading, a.unaccepted]
  cases s.pins.rotEn <;> rfl

theorem State.Loads.slotLoaded_of_fail (a : s.Loads sb q r) (hc : s.checkSlot (img.take (imgLen img)) = some sec) (hr : r ≠ []) :
    s.slotLoaded img = s.slotRead img :=
  a.slotLoaded_eq (by rw [State.slotRead_of_fail hc a.slots]; exact hr)

theorem State.rotDecide_of_not_waiting (h : s.ld.state ≠ .rot) (ok : Bool) : s.rotDecide ok = s := if_pos (bne_iff_ne.mpr h)

end SlotRead

/-- Settles O41: the headers by the slots that are usable, a slot by its checks, the root of trust by `State.rotDecide_rejects`. -/
theorem theLoaderTriesTheLaterSlotFirst : Obligations.TheLoaderTriesTheLaterSlotFirst := by
  intro s a b img x
  refine ⟨fun h hx ha hb => ?_, fun h ha hb => ?_, fun y h hy => ?_, fun sb q r hl hc ht hp => ?_, fun sb q r hs hl ht hr => ?_,
    fun h => congrArg _ (State.rotDecide_of_not_waiting h false)⟩
  · exact ⟨_, congrArg Host.Outcome.next (State.headersRead_of_both h hx ha hb), rfl, rfl, rfl, slotOrder_of_both ha hb⟩
  · exact ⟨_, congrArg Host.Outcome.next (State.headersRead_of_none h (.inr ⟨ha, hb⟩)), rfl, rfl, rfl⟩
  · have noTables : y.filter Sfdp.ok = none := by rcases hy with rfl | ⟨rfl, hx⟩ <;> simp [*]
    exact ⟨_, congrArg Host.Outcome.next (State.headersRead_of_none h (.inl noTables)), rfl, noTables, rfl, rfl⟩
  · have loads : s.Loads sb q r := ⟨hl, hc, ht, hp⟩
    refine ⟨s.slotLoaded img, rfl, ?_⟩
    cases hk : s.checkSlot (img.take (imgLen img)) with
    | none =>
      rw [loads.slotLoaded_of_pass hk]
      exact ⟨rfl, rfl, rfl, rfl, rfl⟩
    | some sec =>
      intro hr
      rw [loads.slotLoaded_of_fail hk hr, State.slotRead_of_fail hk ht]
      exact ⟨rfl, rfl, rfl, rfl⟩
  · exact ⟨_, congrArg Host.Outcome.next (State.rotDecide_rejects hs hl ht hr), rfl, rfl, rfl, rfl⟩

/-! ### Warm reloads (R483) -/

/-- A change of the health state changes nothing but the health and the events (R439, R440). -/
theorem State.setHealth_only (s : State) (f : Gl → Gl) :
    s.setHealth f = { s with gl := (s.setHealth f).gl, ev := (s.setHealth f).ev } := by
  unfold State.setHealth
  dsimp only
  split <;> rfl

theorem State.fallbackSeen_only (s : State) (was : Bool) :
    s.fallbackSeen was = { s with gl := (s.fallbackSeen was).gl, ev := (s.fallbackSeen was).ev } := by
  cases was
  · exact State.setHealth_only s fun g => { g with fallback := false }
  · exact State.setHealth_only (s.logEv 0x38 1 srcLoader 0 0) fun g => { g with fallback := true }

theorem State.loadSnpTo_only (s : State) (b : List Byte) : s.loadSnpTo b =
    { s with cfg := { s.cfg with snpTo := (s.loadSnpTo b).cfg.snpTo }, ev := (s.loadSnpTo b).ev } := by
  unfold State.loadSnpTo
  dsimp only
  split <;> rfl

section Reload

variable {s : State} {a b img : List Byte} {sb : Bool} {q : W32} {r : List (Bool × W32)} {sec : Nat}

/-- A slot's checks read the configuration, not the loader. -/
theorem State.checkSlot_loader (s : State) (l : Loader) (e : Events) (b : List Byte) :
    ({ s with ld := l, ev := e }).checkSlot b = s.checkSlot b := rfl

/-- A reload may begin: warm_ack is given with a reload armed, none is under way, and the NOR has its tables (R466, R483). -/
structure State.MayReload (s : State) : Prop where
  warm : s.pwr.warm = true
  ack : s.pwr.warmAck = true
  armed : s.ld.armed = true
  idle : s.ld.busy = false
  tables : s.ld.sfdp.isSome = true

theorem State.reload_of_no_handshake (h : s.pwr.warmAck = false ∨ s.ld.armed = false) : s.reload a b = s := by
  refine if_pos ?_
  rcases h with h | h <;> simp [h]

/-- The loader as a reload begins: the image in force is kept aside. -/
def State.reloading (s : State) (a b : List Byte) : State :=
  { s with ld := { s.ld with state := .reloading, busy := true, reload := some (a, b), prior := s.ld.image } }

theorem State.MayReload.reload_eq (h : s.MayReload) : s.reload a b = State.reloadTry 3 ((s.reloading a b).headersIn a b) := by
  simp only [State.reload, h.warm, h.ack, h.armed, h.idle, h.tables, Bool.and_self, Bool.not_true, Bool.or_self, Bool.false_eq_true,
    if_false, if_true]
  rfl

theorem State.reloadTry_of_no_slot (h : s.ld.toTry = []) (n : Nat) : State.reloadTry n s = s.reloadFailed := by
  cases n with
  | zero => rfl
  | succ n => simp only [State.reloadTry, h]

/-- Only slot A is usable: slot B is logged. -/
theorem State.headersIn_of_first (ha : headerUsable s.variant a = true) (hb : headerUsable s.variant b = false) : s.headersIn a b =
    { s with
      ld := { s.ld with toTry := [(false, imgSeq a)], second := false, accepted := false, digestValid := false, aFailed := false,
                        bFailed := true }
      ev := (s.slotRejected true 0).ev } := by
  have order : slotOrder s.variant a b = [(false, imgSeq a)] := by
    unfold slotOrder
    rw [ha, hb]
  simp only [State.headersIn, ha, hb, order, Bool.false_eq_true, if_true, if_false, Bool.not_true, Bool.not_false]
  rfl

/-- A reload that has read the headers, and has slot A alone to try. -/
def State.reloadsFirst (s : State) (a b : List Byte) : State :=
  { s with
    ld := { (s.reloading a b).ld with toTry := [(false, imgSeq a)], second := false, accepted := false, digestValid := false,
                                      aFailed := false, bFailed := true }
    ev := (s.slotRejected true 0).ev }

/-- The slot that is tried passes, with no root of trust: it comes into force. -/
theorem State.reloadTry_of_pass (h : s.ld.toTry = (sb, q) :: r) (hi : s.ld.reloadSlot sb = img) (hrot : s.pins.rotEn = false)
    (hc : s.checkSlot (img.take (imgLen img)) = none) (n : Nat) : State.reloadTry (n + 1) s = (s.slotRead img).reloadDone := by
  have accepted : (s.slotRead img).ld.accepted = true := by
    rw [State.slotRead_of_pass hc]
    simp only [hrot, Bool.false_eq_true, if_false]
  simp only [State.reloadTry, h, hi, accepted, if_true]

/-- The last slot to try fails: the reload is over. -/
theorem State.reloadTry_of_fail (h : s.ld.toTry = [(sb, q)]) (hi : s.ld.reloadSlot sb = img) (hs : s.ld.state = .reloading)
    (hc : s.checkSlot (img.take (imgLen img)) = some sec) (n : Nat) :
    State.reloadTry (n + 1) s = (s.slotRead img).reloadFailed := by
  have read := State.slotRead_of_fail hc h
  have unaccepted : (s.slotRead img).ld.accepted = false := by rw [read]
  have notWaiting : ((s.slotRead img).ld.state == .rot) = false := by
    rw [read]
    exact hs ▸ rfl
  have noSlot : (s.slotRead img).ld.toTry = [] := by rw [read]
  simp only [State.reloadTry, h, hi, unaccepted, notWaiting, Bool.false_eq_true, if_false, State.reloadTry_of_no_slot noSlot]

/-- The image of slot `sb` has come into force as a reload brings it (R483). -/
structure State.Reloaded (s : State) (sb : Bool) (t : State) : Prop where
  state : t.ld.state = .loaded
  disarmed : t.ld.armed = false
  idle : t.ld.busy = false
  slot : t.ld.slotB = sb
  image : t.ld.image = s.ld.image
  table : t.cfg.table = tableOf t.ld.image
  hids : t.hids = s.hids.mapIdx fun i _ => hidAt (secBytes t.ld.image 2) i

/-- The end of a reload writes the image's TABLE, HOSTS and snoop timeout, and the loader, the health and the events follow. -/
theorem State.reloadDone_only (s : State) : s.reloadDone =
    let s1 := (s.loadTable s.ld.image).loadHids s.ld.image
    { s1 with
      ld := { s.ld.inForce with reload := none, prior := [], armed := false, busy := false }
      cfg := { s1.cfg with snpTo := s.reloadDone.cfg.snpTo }
      gl := s.reloadDone.gl
      ev := s.reloadDone.ev } := by
  unfold State.reloadDone
  dsimp only
  rw [State.fallbackSeen_only, State.loadSnpTo_only]
  rfl

theorem State.reloadDone_reloaded (h : s.ld.toTry = (sb, q) :: r) : s.Reloaded sb s.reloadDone := by
  have into : s.ld.inForce =
      { s.ld with state := .loaded, slotB := sb, seq := q, fallback := s.ld.second, accepted := false, toTry := [] } := by
    simp only [Loader.inForce, h]
  have whole := s.reloadDone_only
  have ld := congrArg State.ld whole
  have table : s.reloadDone.cfg.table = tableOf s.ld.image := congrArg (fun t => t.cfg.table) whole
  have hids : s.reloadDone.hids = s.hids.mapIdx fun i _ => hidAt (secBytes s.ld.image 2) i := congrArg State.hids whole
  simp only [into] at ld
  have image : s.reloadDone.ld.image = s.ld.image := by rw [ld]
  exact ⟨by rw [ld], by rw [ld], by rw [ld], by rw [ld], image, by rw [image, table], by rw [image, hids]⟩

end Reload

/-! ### Fetches (R485, R486) -/

section Fetches

variable {s : State} {f : Fetch} {n : Nat} {bs : List Byte}

/-- An erase unit is at least 4 KiB (R466). -/
theorem Sfdp.eraseUnit_pos (x : Sfdp) : 0 < x.eraseUnit := by
  have fits : ∀ n ∈ x.erase.filter (fun n => 4096 ≤ n && 1048576 % n == 0), 0 < n := by
    intro n hn
    obtain ⟨least, -⟩ := Bool.and_eq_true_iff.mp (List.mem_filter.mp hn).2
    have := of_decide_eq_true least
    omega
  unfold Sfdp.eraseUnit
  dsimp only
  generalize x.erase.filter (fun n => 4096 ≤ n && 1048576 % n == 0) = l at fits
  refine List.foldlRecOn l min ?_ fun n hn m hm => lt_min hn (fits m hm)
  cases l with
  | nil => decide
  | cons n l => exact fits n (.head _)

theorem State.norErase_pos (s : State) : 0 < s.norErase := by
  unfold State.norErase
  split
  · exact Sfdp.eraseUnit_pos _
  · decide

theorem State.fetchStep_of_none (h : s.ld.fetch = none) (e : FetchEvent) : s.fetchStep e = s := by
  simp only [State.fetchStep, h]

theorem State.fetchStep_eraseFirst (h : s.ld.fetch = some f) (hs : f.step = .eraseFirst) (hl : s.norErase < s.fetchLen) :
    s.fetchStep .erased = s.setFetch f (.eraseRest ((s.fetchLen + s.norErase - 1) / s.norErase - 1)) := by
  have more : (s.fetchLen + s.norErase - 1) / s.norErase - 1 ≠ 0 := by
    have two : 2 ≤ (s.fetchLen + s.norErase - 1) / s.norErase := (Nat.le_div_iff_mul_le s.norErase_pos).mpr (by omega)
    omega
  simp only [State.fetchStep, h, hs, more, if_false]

theorem State.fetchStep_page (h : s.ld.fetch = some f) (hs : f.step = .page n) : s.fetchStep (.read bs) = s.setFetch f (.program n) := by
  simp only [State.fetchStep, h, hs]

theorem State.fetchStep_compare (h : s.ld.fetch = some f) (hs : f.step = .compare) :
    s.fetchStep (.readBack bs) = s.fetchEnd (if bs.take 256 == f.page0 then 0 else 7) := by
  simp only [State.fetchStep, h, hs]
  split <;> rfl

theorem State.norTimeout_of_none (h : s.ld.fetch = none) : s.norTimeout = s := by
  simp only [State.norTimeout, h]

/-- The steps in which the NOR erases or programs. -/
theorem State.norTimeout_ends (h : s.ld.fetch = some f)
    (hs : f.step = .eraseFirst ∨ f.step = .eraseRest n ∨ f.step = .program n ∨ f.step = .programHeader) :
    s.norTimeout = s.fetchEnd 6 := by
  rcases hs with hs | hs | hs | hs <;> simp only [State.norTimeout, h, hs]

theorem State.norTimeout_of_verify (h : s.ld.fetch = some f) (hs : f.step = .verify) : s.norTimeout = s := by
  simp only [State.norTimeout, h, hs]

end Fetches

/-- Settles O44: a reload by the slots that are usable, a fetch by the step that it is at. -/
theorem reloadsAndFetches : Obligations.ReloadsAndFetches := by
  intro s a b
  refine ⟨fun h => congrArg _ (State.reload_of_no_handshake h), fun hw hk ha hi hx ua ub => ?_, fun hw hk ha hi hx hrot ua ub => ?_,
    fun f h => ⟨fun hs hl => congrArg _ (State.fetchStep_eraseFirst h hs hl), fun n bs hs => congrArg _ (State.fetchStep_page h hs),
      fun bs hs => congrArg _ (State.fetchStep_compare h hs), fun n hs => congrArg _ (State.norTimeout_ends h hs),
      fun hs => congrArg _ (State.norTimeout_of_verify h hs)⟩,
    fun h => ⟨congrArg _ (State.fetchStep_of_none h _), congrArg _ (State.norTimeout_of_none h)⟩⟩
  · have may : s.MayReload := ⟨hw, hk, ha, hi, hx⟩
    have headers := State.headersIn_of_none (s := s.reloading a b) ua ub
    have failed := may.reload_eq.trans (State.reloadTry_of_no_slot (by rw [headers]) 3)
    rw [headers] at failed
    exact ⟨_, congrArg Host.Outcome.next failed, rfl, rfl, rfl, rfl, rfl⟩
  · have may : s.MayReload := ⟨hw, hk, ha, hi, hx⟩
    let s1 := s.reloadsFirst a b
    have begins : s.reload a b = State.reloadTry 3 s1 := may.reload_eq.trans (congrArg _ (State.headersIn_of_first ua ub))
    have slots : s1.ld.toTry = [(false, imgSeq a)] := rfl
    have bytes : s1.ld.reloadSlot false = a := rfl
    have check : s1.checkSlot (a.take (imgLen a)) = s.checkSlot (a.take (imgLen a)) := State.checkSlot_loader ..
    cases hc : s.checkSlot (a.take (imgLen a)) with
    | none =>
      have done := begins.trans (State.reloadTry_of_pass slots bytes hrot (check.trans hc) 2)
      have read := State.slotRead_of_pass (check.trans hc)
      have into : (s1.slotRead a).Reloaded false (s1.slotRead a).reloadDone := State.reloadDone_reloaded (by rw [read]; exact slots)
      have image : (s1.slotRead a).reloadDone.ld.image = a.take (imgLen a) := into.image.trans (by rw [read])
      have hids := into.hids
      rw [show (s1.slotRead a).hids = s.hids by rw [read]; rfl] at hids
      exact ⟨_, congrArg Host.Outcome.next done, into.state, into.disarmed, into.idle, into.slot, image, into.table, hids⟩
    | some sec =>
      have failed := begins.trans (State.reloadTry_of_fail slots bytes rfl (check.trans hc) 2)
      rw [State.slotRead_of_fail (check.trans hc) slots] at failed
      exact ⟨_, congrArg Host.Outcome.next failed, rfl, rfl, rfl, rfl, rfl, rfl, rfl⟩

end Sys2Proof.Machine

/-! The power states: entry to P2 and its end, the exit, and P3 (R501 to R507). -/

namespace Sys2Proof.Machine

open Sys2Proof

section PowerStates

variable {s : State}

/-! ### D3hot (R503) -/

theorem State.d3hot_serving (hp : s.pwr.phase = .p0) (hs : s.gl.serving = true) : s.d3hot = s.p2Enter := by
  simp only [State.d3hot, hp, hs, if_true]

theorem State.d3hot_before_service (hp : s.pwr.phase = .p0) (hs : s.gl.serving = false) :
    s.d3hot = { s with pwr := { s.pwr with later := some 3 } } := by
  simp only [State.d3hot, hp, hs, Bool.false_eq_true, if_false]

theorem State.d3hot_in_p2 (hp : s.pwr.phase = .p2) : s.d3hot = s := by
  simp only [State.d3hot, hp]

/-- The block in the entry to P2, before its slices drain: the ports are stopped, and the director has abandoned its moves. -/
def State.p2Stops (s : State) : State :=
  State.abandonMoves { s with
    pwr := { s.pwr with dstate := 3, phase := .entering, later := none, ack := false }
    agentPorts := s.agentPorts.map fun a => { a with stopped := true } }

/-- Then a page list is told to stop, and a fetch ends. -/
def State.p2Quits (s : State) : State :=
  let s1 := s.p2Stops.listStop 0x0C
  if s1.ld.fetch.isSome then s1.fetchEnd 8 else s1

theorem State.p2Quits_only (s : State) : s.p2Quits = { s.p2Stops with ld := s.p2Quits.ld, dctl := s.p2Quits.dctl } := by
  unfold State.p2Quits State.listStop
  dsimp only
  split <;> split <;> rfl

/-- A serving slice that is not isolated begins its drain. -/
def Slice.drains (sl : Slice) : Slice := if sl.ident.role.serves && !sl.ident.isolated then sl.startDrain else sl

theorem Slice.drains_draining (sl : Slice) (hs : sl.drains.ident.role.serves = true) (hi : sl.drains.ident.isolated = false) :
    sl.drains.ident.draining = true := by
  unfold Slice.drains at hs hi ⊢
  split
  next => rfl
  next idle =>
    rw [if_neg idle] at hs hi
    exact absurd (by simp [hs, hi]) idle

/-- What the entry leaves: the ports and the power state as they are when it stops them, and the slices in their drain, which a drain
of the Endgame unit has already begun. -/
structure State.P2Entered (s t : State) : Prop where
  pwr : t.pwr = { s.pwr with dstate := 3, phase := .entering, later := none, ack := false }
  agentPorts : t.agentPorts = s.agentPorts.map fun a => { a with stopped := true }
  slices : s.eg.drainReq = false → t.slices = s.slices.map Slice.drains

theorem State.p2Enter_eq (s : State) : s.p2Enter =
    if s.p2Quits.eg.drainReq then s.p2Quits else { s.p2Quits with slices := s.p2Quits.slices.map Slice.drains } := rfl

theorem State.p2Enter_entered (s : State) : s.P2Entered s.p2Enter := by
  have beside : s.p2Stops.besideDirector = _ := State.abandonMoves_beside _
  have pwr := congrArg State.pwr beside
  have ports := congrArg State.agentPorts beside
  have eg := congrArg State.eg beside
  have slices := congrArg State.slices beside
  have quits := s.p2Quits_only
  have drainReq : s.p2Quits.eg.drainReq = s.eg.drainReq := congrArg Endgame.drainReq ((congrArg State.eg quits).trans eg)
  rw [State.p2Enter_eq]
  split
  next drains =>
    refine ⟨(congrArg State.pwr quits).trans pwr, (congrArg State.agentPorts quits).trans ports, fun h => ?_⟩
    rw [drainReq, h] at drains
    cases drains
  next =>
    exact ⟨(congrArg State.pwr quits).trans pwr, (congrArg State.agentPorts quits).trans ports, fun _ =>
      congrArg (List.map Slice.drains) ((congrArg State.slices quits).trans slices)⟩

/-! ### The end of the entry (R503) -/

theorem State.p2Done_of_no_entry (h : s.pwr.phase ≠ .entering) : s.p2Done = s := if_pos (by simp [h])

/-- Nothing waited for the end of the entry. -/
theorem State.p2After_of_nothing (hg : s.pwr.gpfLater = []) (hl : s.pwr.later = none) (hw : s.pwr.warm = false) : s.p2After = s := by
  have same : ({ s with pwr := { s.pwr with gpfLater := [] } } : State) = s := by rw [← hg]
  have noDrain : s.warmDrain = s := if_pos (by simp [hw])
  have noPhase : s.pwr.gpfLater.foldl (fun s n => s.gpf n) { s with pwr := { s.pwr with gpfLater := [] } } = s := by
    rw [same, hg]
    rfl
  unfold State.p2After
  dsimp only
  rw [noPhase, noDrain, hl]
  rfl

theorem State.p2Done_sleeps (hp : s.pwr.phase = .entering) (hr : ∀ sl ∈ s.slices, sl.p2Ready = true) (hc : s.cast.replays = [])
    (ha : ∀ a ∈ s.agentPorts, a.held = []) : s.p2Done = State.p2After { s with
      pwr := { s.pwr with phase := .p2, ack := true }
      slices := s.slices.map Slice.p2Sleep
      agentPorts := s.agentPorts.map fun (a : AgentPort) => { a with resv := [] } } := by
  have ready : s.slices.all Slice.p2Ready = true := List.all_eq_true.mpr hr
  have answered : (s.agentPorts.any fun a => a.held.any a.uncommitted) = false := by
    rw [List.any_eq_false]
    intro a h
    simp [ha a h]
  exact if_neg (by simp only [hp, ready, hc, answered]; decide)

/-! ### D0 (R505) -/

theorem State.d0_in_p0 (h : s.pwr.phase = .p0) : s.d0 = { s with pwr := { s.pwr with dstate := 0, later := none } } := by
  simp only [State.d0, h]

theorem State.d0_entering (h : s.pwr.phase = .entering) : s.d0 = { s with pwr := { s.pwr with later := some 0 } } := by
  simp only [State.d0, h]

theorem State.d0_in_p2 (h : s.pwr.phase = .p2) : s.d0 = s.p2Exit := by
  simp only [State.d0, h]

/-- What waits at the director goes on after the exit, and leaves the power state alone. -/
theorem State.p2Exit_pwr (s : State) : s.p2Exit.pwr = { s.pwr with dstate := 0, phase := .p0, later := none, ack := true } :=
  congrArg State.pwr (State.kick_beside _)

/-! ### P3 (R507) -/

theorem State.p3_again (h : s.pwr.p3 = true) : s.p3 = s := if_pos h

theorem State.p3_drains (h : s.pwr.p3 = false) (hb : s.dctl.list.busy = false) (hf : s.ld.fetch = none) (hn : s.eg.pstate = .normal) :
    s.p3 = ({ s with
      pwr := { s.pwr with p3 := true }
      agentPorts := s.agentPorts.map fun (a : AgentPort) => { a with resv := [] }
      slices := s.slices.map fun (sl : Slice) => { sl with dir := { sl.dir with monitors := [] } } } : State).enterDrain 4 := by
  have notSaved : (PState.normal == PState.saved) = false := rfl
  have cleared : (fun a : AgentPort => a.clearRes fun _ => true) = fun a => { a with resv := [] } := by
    funext a
    simp [AgentPort.clearRes]
  simp only [State.p3, State.listStop, State.drainCause, h, hb, hf, hn, notSaved, cleared, Bool.or_false, Option.isSome_none,
    Bool.false_eq_true, if_false]

end PowerStates

/-- Settles O49: each event by the phase of power that it meets. -/
theorem powerStatesAreEnteredAndLeft : Obligations.PowerStatesAreEnteredAndLeft := by
  intro s v
  refine ⟨fun hp hs => ?_, fun hp hs => congrArg _ (State.d3hot_before_service hp hs), fun hp => congrArg _ (State.d3hot_in_p2 hp),
    fun hp => congrArg _ (State.p2Done_of_no_entry hp), fun hp hr hc ha hg hl hw => ?_, fun hp => congrArg _ (State.d0_in_p0 hp),
    fun hp => congrArg _ (State.d0_entering hp), fun hp => ?_, fun h => congrArg _ (State.p3_again h),
    fun h hb hf hn => congrArg _ (State.p3_drains h hb hf hn), fun h => congrArg _ (if_pos (by simpa using h))⟩
  · obtain ⟨pwr, ports, slices⟩ := s.p2Enter_entered
    refine ⟨_, congrArg Host.Outcome.next (State.d3hot_serving hp hs), by rw [pwr], by rw [pwr], by rw [pwr], fun a ha => ?_,
      fun hd sl hsl hserves hi => ?_⟩
    · rw [ports] at ha
      obtain ⟨b, -, rfl⟩ := List.mem_map.mp ha
      rfl
    · rw [slices hd] at hsl
      obtain ⟨y, -, rfl⟩ := List.mem_map.mp hsl
      exact y.drains_draining hserves hi
  · exact congrArg _ ((State.p2Done_sleeps hp hr hc ha).trans (State.p2After_of_nothing hg hl hw))
  · have pwr := s.p2Exit_pwr
    exact ⟨_, congrArg Host.Outcome.next (State.d0_in_p2 hp), by rw [pwr], by rw [pwr], by rw [pwr]⟩

end Sys2Proof.Machine
